-- ==== Sys2Proof/Syntax.lean ====
section
/-! DEFINITION. The commands of the block: one constructor of `Instr` per row of the opcode table, with the row's
operands, and the packets, link units and control units that some of them carry. -/

namespace Sys2Proof

/-- The operation codes of Table 02-4 (R40). -/
inductive Op where
  | load | store | fadd | swap | cas | acc | rdS | rdM | upg | wb | inv | rcl | cpl
  | reserved (code : BitVec 5)
  deriving DecidableEq, Repr

/-- The completion status codes of Table 02-7 (R54). -/
inductive Status where
  | ok | notHeld | addrErr | access | align | unsup | timeout | poison | tagQuar | tagErr | opMismatch | unreach
  | reserved (code : BitVec 4)
  deriving DecidableEq, Repr

/-- The accumulate-store operators of Table 02-5 (R45). -/
inductive Operator where
  | sum | min | max | and | or | xor | smerge
  | reserved (code : BitVec 4)
  deriving DecidableEq, Repr

/-- The element formats of Table 02-6 (R46). -/
inductive Format where
  | fp32 | bf16 | fp16 | fp8e4m3 | fp8e5m2 | mxfp8e4m3 | mxfp8e5m2 | mxfp6e3m2 | mxfp6e2m3 | mxfp4e2m1 | mxint8
  | int32 | int64
  | reserved (code : BitVec 4)
  deriving DecidableEq, Repr

/-- The two header kinds of data packets (Table 03-2). -/
inductive HdrForm where
  | compact | direct
  deriving DecidableEq, Repr

/-- What a receiver's CRC check finds (R105). -/
inductive Crc where
  | good | stomped | bad
  deriving DecidableEq, Repr

/-- A data packet: the fields of Tables 03-4, 03-5 and 03-7 and the payload. A field that the packet's form does not
carry is 0 or false. In a compact ACC `address` holds the group address that ctx, group and offset name. -/
structure Packet where
  form : HdrForm
  op : Op
  queue : BitVec 3
  ord : Bool
  status : Status
  nm : Bool
  ssw : Bool
  src : BitVec 15
  ftag : BitVec 16
  dst : BitVec 15
  dsw : Bool
  lenM1 : BitVec 12
  ctx : BitVec 12
  handle : BitVec 8
  dat : Bool
  offset : BitVec 32
  operator : Operator
  format : Format
  address : BitVec 64
  epoch : BitVec 16
  tree : Bool
  stage : BitVec 2
  lclass : BitVec 4
  pick : BitVec 23
  payload : List Byte
  deriving DecidableEq, Repr

/-- A control packet (Table 03-8): its header fields and its 48-byte body. -/
structure Ctl where
  ckind : BitVec 5
  queue : BitVec 3
  lenM1 : BitVec 6
  ks : BitVec 16
  w1 : Word
  w2 : Word
  body : List Byte
  deriving DecidableEq, Repr

/-- A packet of either kind. -/
inductive Pkt where
  | data (p : Packet)
  | ctl (c : Ctl)
  deriving DecidableEq, Repr

/-- A link unit as received or sent: its marker (Table 03-1) and its 64 bytes (R87, R89). -/
structure LinkUnit where
  marker : BitVec 2
  bytes : List Byte
  deriving DecidableEq, Repr

/-- The contents of a link-control unit whose CRC matches (Table 03-10). `lims` lists lim_q0 to lim_q7. -/
structure Lcu where
  txSeq : BitVec 16
  ackSeq : BitVec 16
  nakSeq : BitVec 16
  init : Bool
  pseen : Bool
  ucnt : Bool
  rpl : Bool
  nakVld : Bool
  ackVld : Bool
  lims : List (BitVec 16)
  deriving DecidableEq, Repr

/-- What the board and the flash show the Deckle during power-up: the bytes of the board record EEPROM, the level of TEST_EN at the
rise of POR_N, the log2 size that SFDP reports (0: no flash answers), the clocks after which SDA is high in the bus checks of the two
I2C controllers (`none`: still low after the ninth, R482), and whether RST_N is low at step 10 of Table 12-6 (R528). -/
structure Board where
  eeprom : List Byte
  testEn : Bool
  flashLog : Nat
  sda0 : Option (Fin 10)
  sda1 : Option (Fin 10)
  rstLow : Bool
  deriving DecidableEq, Repr

/-- The data of a BAR write and, of the accessed register or pair, the W1C bits that hardware sets in the cycle of the write (R10,
R545). -/
structure BarWrite where
  data : BitVec 64
  hw : BitVec 64 := 0
  deriving DecidableEq, Repr

/-- The commands: one constructor per row of the opcode table. A `port`, `lane`, `die` ... operand names the unit,
a `val` operand is the word written to the register the row names, and measured physical values are operands. -/
inductive Instr where
  -- register accesses (R5 to R16, R510 to R516)
  -- `events`: one bit for each RC field that counts an event in the cycle of the read, at the field's lowest bit (R11)
  | registerWrite (off : BitVec 26) (size : Nat) (val : BarWrite)
  | readClear (off : BitVec 26) (size : Nat) (events : BitVec 64)
  | latchingRead (off : BitVec 26)
  -- fabric operations and completions (file 02)
  | load (port : Fin 512) (p : Packet)
  | store (port : Fin 512) (p : Packet)
  | fadd (port : Fin 512) (p : Packet)
  | swap (port : Fin 512) (p : Packet)
  | cas (port : Fin 512) (p : Packet)
  | acc (port : Fin 512) (p : Packet)
  | sacc (port : Fin 512) (c : Ctl)
  | rdS (port : Fin 512) (p : Packet)
  | rdM (port : Fin 512) (p : Packet)
  | upg (port : Fin 512) (p : Packet)
  | wb (port : Fin 512) (p : Packet)
  | inv (port : Fin 512) (p : Packet)
  | fanoutAdmit
  | fanoutExpire (r : Fin 4096)
  | cpl (port : Fin 512) (p : Packet)
  | expire (line : Fin 65536)
  | waitListHead (line : Fin 65536)
  | timeout (e : Fin 131072)
  | quarantineEnd (e : Fin 131072)
  | staleExpire (e : Fin 131072) (gen : BitVec 4)
  | waitDiscard (port : Fin 512) (q : Fin 8) (i : Nat)
  -- the link layer (file 03)
  | packetReceive (port : Fin 512) (units : List LinkUnit)
  | lock (port : Fin 512)
  | loss (port : Fin 512)
  | lcuI (port : Fin 512) (l : Lcu)
  | lcuU (port : Fin 512) (l : Lcu)
  | rplGroup (port : Fin 512) (l : Lcu)
  | badcw (port : Fin 512)
  | rtmo (port : Fin 512)
  | rlim (port : Fin 512)
  | itmo (port : Fin 512)
  | lcuSend (port : Fin 512)
  -- discovery and routing (file 04)
  | discStart
  | discRestart
  | helloSend
  | hello (port : Fin 512) (c : Ctl)
  | quiet
  | nbr (port : Fin 512) (c : Ctl)
  | assign (port : Fin 512) (c : Ctl)
  | atmo
  | epHello (port : Fin 512) (c : Ctl)
  | learnCommit (die : Fin 4)
  | win (port : Fin 512)
  | epAck (port : Fin 512) (c : Ctl)
  | clr (port : Fin 512) (val : Word)
  | routeWrite (off : BitVec 26) (size : Nat) (val : BitVec 64)
  | versionRetire (off : BitVec 26)
  | ordHoldRelease (off : BitVec 26)
  -- the switch core (file 05)
  | admission (port : Fin 512) (q : Fin 8)
  | crossbarSlot
  | egressArbitration (port : Fin 512)
  | holFlush (port : Fin 512) (q : Fin 8)
  -- traffic and time (file 06)
  | ageTick
  | promotion (port : Fin 512) (q : Fin 8)
  | timeExchange
  | req (port : Fin 512) (c : Ctl)
  | rsp (port : Fin 512) (c : Ctl)
  | shedOpen (port : Fin 512) (i : Nat)
  | shedClose (port : Fin 512)
  | treadlingHandover (port : Fin 512)
  | fineSlot (die : Fin 4)
  | coarseSlot (die : Fin 4)
  | sample
  -- collective groups and arithmetic (files 07, 08)
  | groupCommit (g : Fin 16384) (val : Word)
  | groupVersionRetire (g : Fin 16384)
  | inEvent (i : Nat)
  | res (port : Fin 512) (p : Pkt)
  | sent (t : Fin 16384)
  | tmo (t : Fin 16384)
  | abort (val : Word)
  | straggler (g : Fin 16384) (slot : Fin 131072)
  | homeTabRebuild
  | add (sh : Fin 544)
  | part (sh : Fin 544)
  | result (sh : Fin 544)
  -- shuttles (file 09)
  | forward (sh : Fin 544)
  | drain (sh : Fin 544)
  | fill (sh : Fin 544)
  | copy (sh : Fin 544)
  | unload (sh : Fin 544)
  | wake (sh : Fin 544)
  | powerUpPlace (die : Fin 4)
  | wakeDone (sh : Fin 544)
  | park (sh : Fin 544)
  | off (sh : Fin 544)
  | migration (val : Word)
  | switchCycle
  | redirectRelease (sh : Fin 544)
  | reweight (die : Fin 4) (busyNs : List Nat)
  -- watermarks (file 10)
  | snap (g : Fin 16384)
  | traceRingEnable (val : Word)
  -- lanes (file 11)
  | trainingFrame (lane : Fin 512) (cdr : Bool) (block : BitVec 128)
  | fll (lane : Fin 512)
  | ad (lane : Fin 512)
  | join (port : Fin 512)
  | cwloss (lane : Fin 512)
  | rt (lane : Fin 512)
  | ttmo (lane : Fin 512) (signal : Bool)
  | eiEntry (port : Fin 512)
  | eiEnter (port : Fin 512) (c : Ctl)
  | eiExit (port : Fin 512)
  | eiExitFail (port : Fin 512)
  | widthPropose (port : Fin 512) (kind : Bool) (mask : BitVec 8)
  | prop (port : Fin 512) (c : Ctl)
  | ack (port : Fin 512) (c : Ctl)
  | go (port : Fin 512) (c : Ctl)
  | lapse (port : Fin 512)
  | proposalRetry (port : Fin 512)
  | removalInterval (lane : Fin 512) (corrected : Nat) (uncorrectable : Nat) (prbsErrors : Nat)
  | marginScan (lane : Fin 512) (val : Word)
  | marginScanEnd (lane : Fin 512) (neg pos : BitVec 7)
  -- clocks, power, thermal (file 12)
  | aonClkLoss
  | coreRefclkLoss
  | coreRefclkReturn
  | pllUnlock (die : Fin 4)
  | laneRefclkLoss (b : Bool)
  | laneRefclkReturn (b : Bool)
  | powerUp (board : Board)
  | railGood (rail : Fin 7)
  | railSeq
  | orderlyPowerDown (val : Word)
  | railOff (rail : Fin 7)
  | railOffFail (rail : Fin 7)
  | railMonitor (mv : List Nat)
  | railFault (rail : Fin 7)
  | phaseSelect (val : Word)
  | levelStep (die : Fin 4)
  | pcap (watts : Nat)
  | icap (amps : Nat)
  | droop (die : Fin 4) (stretchNs : Nat)
  | temp (die : Fin 4)
  | throttleNFall
  | throttleNRise
  | mgmt (die : Fin 4) (val : Word)
  | droopTrip (die : Fin 4)
  | stretchEnd (die : Fin 4)
  | energyUpdate (measuredUj : Nat)
  | sensorRead (sensor : Fin 24) (t : BitVec 16)
  | thermtrip (sensor : Fin 24) (t : BitVec 16)
  | dieStandby (die : Fin 4)
  | dieStandbyExit (die : Fin 4)
  -- faults and resets (file 13)
  | faultNMinimumEnd
  | faultNRelease (val : Word)
  | d2dChannelFail (src dst : Fin 4) (ch : Fin 34)
  | regTmo (off : BitVec 26) (write : Bool)
  | watchdogExpiry
  | cmdTmo (sh : Fin 544)
  | shtHang (sh : Fin 544)
  | contextReset (val : Word)
  | ctxResetTmo
  | captureRelease (val : Word)
  | dieReset (val : Word)
  | warmReset (key : Option Byte)
  | selvedgeFlush (val : Word)
  | selvedgeHourly
  | fecHistogram (lane : Fin 512) (corrected : Nat)
  | tempHistogram
  -- management (file 14)
  | functionLevelReset
  | pcieLinkDown
  | i2cTransfer (n : Fin 2) (val : Word)
  | i2cTransferEnd (n : Fin 2) (result : BitVec 3) (data : List Byte) (sdaHigh : Option (Fin 10))
  | i2cTimeout (n : Fin 2)
  | recover (n : Fin 2) (sdaHigh : Option (Fin 10))
  | ident
  | i2cFault
  | thermal
  | power
  | addr (bytes : List Byte) (pec : Option Byte)
  | read
  | spiRead (val : Word)
  | program (val : Word)
  | erase (val : Word)
  | dump (val : Word)
  | flashOpEnd (ok : Bool)
  | draftLoad (val : Word)
  | panelDrainEnd
  | drainTmo
  | portReset (val : Word)
  | shuttleReset (val : Word)
  | broadcastWrite (off : BitVec 26) (val : Word)
  | broadcastRead (off : BitVec 26)
  | lifeCycleRequest (val : Word)
  | gpioChange (pins : Byte)
  | receiveElectricalIdle (port : Fin 512)
  | sheetsCleared
  | sramWipeDone
  | selvedgeWriteDone (ok : Bool)
  | abortDone
  | contextResetDone
  | dieResetDone (die : Fin 4)
  | warmResetDone
  | draftVerifyDone
  | lifeCycleTransitionDone
  | powerOnReset
  | pciePerstNRise
  | schLate (port : Fin 512)
  deriving DecidableEq, Repr

end Sys2Proof
end

