-- ==== Sys2Proof/Decode.lean ====
section
/-! DEFINITION. The opcode table of a block: it lists commands and gives no row any bits. -/

namespace Sys2Proof

/-- The command that a word spells by the bits of the opcode table: no row has bits, so no word spells one. -/
def decodeTableWord (_nbits _w : Nat) : Option Instr := none

end Sys2Proof
end

