-- ==== Sys2Proof/Config.lean ====
section
/-! DEFINITION. What the spec leaves open: free values, opaque constants without a body. A claim that meets one holds
whatever it is. -/

namespace Sys2Proof.Config

/-- A fresh free value: `freeNat n` is the `n`-th one drawn (State.free counts them). -/
opaque freeNat : Nat → Nat

end Sys2Proof.Config
end

