-- ==== Sys2Proof/Machine/Sparse.lean ====
section
/-! DEFINITION. Sparse tables: a function from numbers held as a list of (key, value) pairs in one canonical form, keys
strictly rising and no entry equal to what an unlisted key reads as. Registers, memories and per-unit records use it. -/

namespace Sys2Proof.Machine.Sparse

variable {α : Type} [DecidableEq α]

/-- The value at key `k`; an unlisted key reads `d k`. -/
def get (d : Nat → α) : List (Nat × α) → Nat → α
  | [], k => d k
  | (j, v) :: rest, k => if j = k then v else get d rest k

/-- The table without key `k`. -/
def drop : List (Nat × α) → Nat → List (Nat × α)
  | [], _ => []
  | (j, v) :: rest, k => if j = k then drop rest k else (j, v) :: drop rest k

/-- The table with the new pair `(k, v)` put before the first higher key. -/
def place (k : Nat) (v : α) : List (Nat × α) → List (Nat × α)
  | [] => [(k, v)]
  | (j, w) :: rest => if k < j then (k, v) :: (j, w) :: rest else (j, w) :: place k v rest

/-- Writes `v` at `k`; writing the value that an unlisted key reads as removes the entry. -/
def put (d : Nat → α) (m : List (Nat × α)) (k : Nat) (v : α) : List (Nat × α) :=
  if v = d k then drop m k else place k v (drop m k)

/-- Keys strictly rising, every key above `lo` when `lo` is given, and no entry at its unlisted value. -/
def wfFrom (d : Nat → α) : Option Nat → List (Nat × α) → Bool
  | _, [] => true
  | lo, (j, v) :: rest => (lo.all (· < j)) && decide (v ≠ d j) && wfFrom d (some j) rest

/-- The canonical form. -/
def wf (d : Nat → α) (m : List (Nat × α)) : Bool := wfFrom d none m

/-- Applies `f` to every listed value, keeping the canonical form. -/
def mapVals (d : Nat → α) (f : Nat → α → α) (m : List (Nat × α)) : List (Nat × α) :=
  (m.map fun kv => (kv.1, f kv.1 kv.2)).filter fun kv => kv.2 ≠ d kv.1

end Sys2Proof.Machine.Sparse
end

