-- ==== Sys2Proof/Machine/RegMap.lean ====
section
/-! DEFINITION. The register map of BAR0: one address and one field list per register of Tables 15-2 to 15-12
(R510, R512, R517), taken row by row from the field tables of the chapters. -/

namespace Sys2Proof.Machine

/-- The access types of Table 00-3 (R6). -/
inductive Access where
  | rw | ro | wo | w1c | w1s | rc | dl
  deriving DecidableEq, Repr

/-- The reset domains of Table 00-4 (R13). -/
inductive Domain where
  | p | a | w | d | t | s | c
  deriving DecidableEq, Repr

/-- One row of a field table: the field's bits, access type, reset value and reset letter. -/
structure FieldSpec where
  lo : Nat
  width : Nat
  access : Access
  reset : Nat
  dom : Domain
  deriving DecidableEq, Repr

/-- A field of one register: its BAR offset and its bits. -/
structure FieldRef where
  off : Nat
  lo : Nat
  width : Nat
  deriving DecidableEq, Repr

namespace R

/-- GLB_ID, file 15. -/
def GLB_ID : Nat := 0x00000000
/-- GLB_REV, file 15. -/
def GLB_REV : Nat := 0x00000004
/-- GLB_SERIAL_LO, file 15. -/
def GLB_SERIAL_LO : Nat := 0x00000008
/-- GLB_SERIAL_HI, file 15. -/
def GLB_SERIAL_HI : Nat := 0x0000000C
/-- GLB_CAPS, file 15. -/
def GLB_CAPS : Nat := 0x00000010
/-- GLB_TBASE_LO, file 15. -/
def GLB_TBASE_LO : Nat := 0x00000018
/-- GLB_TBASE_HI, file 15. -/
def GLB_TBASE_HI : Nat := 0x0000001C
/-- GLB_SCRATCH, file 15. -/
def GLB_SCRATCH (k : Nat) : Nat := 0x00000020 + k * 0x4
/-- GLB_PON_TIME, file 15. -/
def GLB_PON_TIME : Nat := 0x00000030
/-- GLB_WIN_CFG, file 02. -/
def GLB_WIN_CFG : Nat := 0x00000200
/-- GLB_COH_PROTO_CNT, file 02. -/
def GLB_COH_PROTO_CNT : Nat := 0x00000204
/-- GLB_COH_STRAY_CNT, file 02. -/
def GLB_COH_STRAY_CNT : Nat := 0x00000208
/-- GLB_COH_TMO_CNT, file 02. -/
def GLB_COH_TMO_CNT : Nat := 0x0000020C
/-- GLB_COH_POISON_CNT, file 02. -/
def GLB_COH_POISON_CNT : Nat := 0x00000210
/-- GLB_GRP_ABORT_SEL, file 07. -/
def GLB_GRP_ABORT_SEL : Nat := 0x00000300
/-- GLB_GRP_ABORT, file 07. -/
def GLB_GRP_ABORT : Nat := 0x00000304
/-- GLB_GRP_ABORT_STATUS, file 07. -/
def GLB_GRP_ABORT_STATUS : Nat := 0x00000308
/-- GLB_GRP_HOME, file 07. -/
def GLB_GRP_HOME : Nat := 0x0000030C
/-- GLB_GRP_UPD_STATUS, file 07. -/
def GLB_GRP_UPD_STATUS : Nat := 0x00000310
/-- GLB_GRP_STRAY_CNT, file 07. -/
def GLB_GRP_STRAY_CNT : Nat := 0x00000314
/-- GLB_GRP_OVER_CNT, file 07. -/
def GLB_GRP_OVER_CNT : Nat := 0x00000318
/-- GLB_GRP_RES_ERR_CNT, file 07. -/
def GLB_GRP_RES_ERR_CNT : Nat := 0x0000031C
/-- GLB_GRP_RES_DROP_CNT, file 07. -/
def GLB_GRP_RES_DROP_CNT : Nat := 0x00000320
/-- GLB_GRP_STRAG_LOG0, file 07. -/
def GLB_GRP_STRAG_LOG0 : Nat := 0x00000324
/-- GLB_GRP_STRAG_LOG1, file 07. -/
def GLB_GRP_STRAG_LOG1 : Nat := 0x00000328
/-- GLB_ORP_BAD_CNT, file 08. -/
def GLB_ORP_BAD_CNT : Nat := 0x00000340
/-- GLB_NUM_OVF_CNT, file 08. -/
def GLB_NUM_OVF_CNT : Nat := 0x00000344
/-- GLB_NUM_NAN_CNT, file 08. -/
def GLB_NUM_NAN_CNT : Nat := 0x00000348
/-- GLB_SMG_REF_CNT, file 09. -/
def GLB_SMG_REF_CNT : Nat := 0x0000034C
/-- GLB_DET_CTL, file 10. -/
def GLB_DET_CTL : Nat := 0x00000380
/-- GLB_DET_BLOCK_CNT, file 10. -/
def GLB_DET_BLOCK_CNT : Nat := 0x00000384
/-- GLB_SHT_MIG, file 09. -/
def GLB_SHT_MIG : Nat := 0x00000400
/-- GLB_SHT_MIG_STATUS, file 09. -/
def GLB_SHT_MIG_STATUS : Nat := 0x00000404
/-- GLB_SHT_RW_CFG, file 09. -/
def GLB_SHT_RW_CFG : Nat := 0x00000408
/-- GLB_SHT_MAP, file 09. -/
def GLB_SHT_MAP (l : Nat) : Nat := 0x00004000 + l * 0x4
/-- GLB_RQ_MTX, file 09. -/
def GLB_RQ_MTX (n k : Nat) : Nat := 0x00040000 + n * 0x1000 + k * 0x4
/-- AON_LC, file 14. -/
def AON_LC : Nat := 0x00100000
/-- AON_LC_CTL, file 14. -/
def AON_LC_CTL : Nat := 0x00100004
/-- AON_LC_HASH, file 14. -/
def AON_LC_HASH (k : Nat) : Nat := 0x00100010 + k * 0x4
/-- DFT_STATUS, file 14. -/
def DFT_STATUS : Nat := 0x00400000
/-- DFT_SEQ, file 14. -/
def DFT_SEQ : Nat := 0x00400004
/-- DFT_LOAD, file 14. -/
def DFT_LOAD : Nat := 0x00400008
/-- DFT_BOOT, file 14. -/
def DFT_BOOT : Nat := 0x0040000C
/-- DFT_PORT_RST, file 14. -/
def DFT_PORT_RST : Nat := 0x00400010
/-- DFT_SHT_RST, file 14. -/
def DFT_SHT_RST : Nat := 0x00400014
/-- FLT_STATUS, file 13. -/
def FLT_STATUS : Nat := 0x00200000
/-- FLT_PIN_CTL, file 13. -/
def FLT_PIN_CTL : Nat := 0x00200004
/-- FLT_HANG_CFG, file 13. -/
def FLT_HANG_CFG : Nat := 0x00200008
/-- FLT_CAUSE_LO, file 13. -/
def FLT_CAUSE_LO : Nat := 0x00200010
/-- FLT_CAUSE_HI, file 13. -/
def FLT_CAUSE_HI : Nat := 0x00200014
/-- FLT_LIVE_LO, file 13. -/
def FLT_LIVE_LO : Nat := 0x00200018
/-- FLT_LIVE_HI, file 13. -/
def FLT_LIVE_HI : Nat := 0x0020001C
/-- FLT_PIN_EN_LO, file 13. -/
def FLT_PIN_EN_LO : Nat := 0x00200020
/-- FLT_PIN_EN_HI, file 13. -/
def FLT_PIN_EN_HI : Nat := 0x00200024
/-- FLT_INT_EN_LO, file 13. -/
def FLT_INT_EN_LO : Nat := 0x00200028
/-- FLT_INT_EN_HI, file 13. -/
def FLT_INT_EN_HI : Nat := 0x0020002C
/-- FLT_FFC0, file 13. -/
def FLT_FFC0 : Nat := 0x00200030
/-- FLT_FFC1, file 13. -/
def FLT_FFC1 : Nat := 0x00200034
/-- FLT_FFC2, file 13. -/
def FLT_FFC2 : Nat := 0x00200038
/-- FLT_FFC3, file 13. -/
def FLT_FFC3 : Nat := 0x0020003C
/-- FLT_FFC4, file 13. -/
def FLT_FFC4 : Nat := 0x00200040
/-- FLT_CTX_RST, file 13. -/
def FLT_CTX_RST : Nat := 0x00200080
/-- FLT_CTX_RST_STATUS, file 13. -/
def FLT_CTX_RST_STATUS : Nat := 0x00200084
/-- FLT_CAP_CTL, file 13. -/
def FLT_CAP_CTL : Nat := 0x00200088
/-- FLT_DIE_RST, file 13. -/
def FLT_DIE_RST : Nat := 0x00200090
/-- FLT_WARM_RST, file 13. -/
def FLT_WARM_RST : Nat := 0x00200094
/-- FLT_D2D_STAT, file 13. -/
def FLT_D2D_STAT (i : Nat) : Nat := 0x002000C0 + i * 0x4
/-- FLT_CNT, file 13. -/
def FLT_CNT (n : Nat) : Nat := 0x00200100 + n * 0x4
/-- PWR_CTL, file 12. -/
def PWR_CTL : Nat := 0x00300000
/-- PWR_STATUS, file 12. -/
def PWR_STATUS : Nat := 0x00300004
/-- PWR_PHASE_SEL, file 12. -/
def PWR_PHASE_SEL : Nat := 0x00300008
/-- PWR_LIMITS, file 12. -/
def PWR_LIMITS : Nat := 0x0030000C
/-- PWR_TEMP_CFG, file 12. -/
def PWR_TEMP_CFG : Nat := 0x00300010
/-- PWR_DROOP_CFG, file 12. -/
def PWR_DROOP_CFG : Nat := 0x00300014
/-- PWR_ALERT_EN, file 12. -/
def PWR_ALERT_EN : Nat := 0x00300018
/-- PWR_ALERT_STATUS, file 12. -/
def PWR_ALERT_STATUS : Nat := 0x0030001C
/-- PWR_VTRIM, file 12. -/
def PWR_VTRIM : Nat := 0x00300020
/-- PWR_DIE_CTL, file 12. -/
def PWR_DIE_CTL (d : Nat) : Nat := 0x00300030 + d * 0x4
/-- PWR_DIE_STATUS, file 12. -/
def PWR_DIE_STATUS (d : Nat) : Nat := 0x00300040 + d * 0x4
/-- PWR_RAIL_MV, file 12. -/
def PWR_RAIL_MV (i : Nat) : Nat := 0x00300050 + i * 0x4
/-- PWR_VCORE, file 12. -/
def PWR_VCORE : Nat := 0x0030006C
/-- PWR_PHASE, file 12. -/
def PWR_PHASE (i : Nat) : Nat := 0x00300080 + i * 0x4
/-- PWR_TEMP, file 12. -/
def PWR_TEMP (i : Nat) : Nat := 0x00300100 + i * 0x4
/-- PWR_THR_DUR_LO, file 12. -/
def PWR_THR_DUR_LO (r : Nat) : Nat := 0x00300200 + r * 0x10
/-- PWR_THR_DUR_HI, file 12. -/
def PWR_THR_DUR_HI (r : Nat) : Nat := 0x00300204 + r * 0x10
/-- PWR_THR_EPI, file 12. -/
def PWR_THR_EPI (r : Nat) : Nat := 0x00300208 + r * 0x10
/-- PWR_ENERGY_LO, file 12. -/
def PWR_ENERGY_LO : Nat := 0x00300300
/-- PWR_ENERGY_HI, file 12. -/
def PWR_ENERGY_HI : Nat := 0x00300304
/-- MIO_I2C_CFG, file 14. -/
def MIO_I2C_CFG (n : Nat) : Nat := 0x00500000 + n * 0x100
/-- MIO_I2C_XFER, file 14. -/
def MIO_I2C_XFER (n : Nat) : Nat := 0x00500004 + n * 0x100
/-- MIO_I2C_STATUS, file 14. -/
def MIO_I2C_STATUS (n : Nat) : Nat := 0x00500008 + n * 0x100
/-- MIO_I2C_DATA, file 14. -/
def MIO_I2C_DATA (n k : Nat) : Nat := 0x00500010 + n * 0x100 + k * 0x4
/-- MIO_I2CT_CFG, file 14. -/
def MIO_I2CT_CFG : Nat := 0x00500200
/-- MIO_I2CT_PEC_CNT, file 14. -/
def MIO_I2CT_PEC_CNT : Nat := 0x00500204
/-- MIO_SPI_CMD, file 14. -/
def MIO_SPI_CMD : Nat := 0x00500300
/-- MIO_SPI_ADDR, file 14. -/
def MIO_SPI_ADDR : Nat := 0x00500304
/-- MIO_SPI_STATUS, file 14. -/
def MIO_SPI_STATUS : Nat := 0x00500308
/-- MIO_SPI_BUF, file 14. -/
def MIO_SPI_BUF (k : Nat) : Nat := 0x00500400 + k * 0x4
/-- MIO_GPIO, file 14. -/
def MIO_GPIO : Nat := 0x00500800
/-- MIO_GPIO_INT, file 14. -/
def MIO_GPIO_INT : Nat := 0x00500804
/-- MIO_INT_STATUS, file 14. -/
def MIO_INT_STATUS : Nat := 0x00500900
/-- MIO_INT_EN, file 14. -/
def MIO_INT_EN : Nat := 0x00500904
/-- MSIX_ADDR_LO, file 14. -/
def MSIX_ADDR_LO (v : Nat) : Nat := 0x00700000 + v * 0x10
/-- MSIX_ADDR_HI, file 14. -/
def MSIX_ADDR_HI (v : Nat) : Nat := 0x00700004 + v * 0x10
/-- MSIX_DATA, file 14. -/
def MSIX_DATA (v : Nat) : Nat := 0x00700008 + v * 0x10
/-- MSIX_CTL, file 14. -/
def MSIX_CTL (v : Nat) : Nat := 0x0070000C + v * 0x10
/-- MSIX_PBA, file 14. -/
def MSIX_PBA (k : Nat) : Nat := 0x00700800 + k * 0x4
/-- PRT_CFG, file 11. -/
def PRT_CFG (p : Nat) : Nat := 0x00800000 + p * 0x1000
/-- PRT_LANE_STATUS, file 11. -/
def PRT_LANE_STATUS (p : Nat) : Nat := 0x00800004 + p * 0x1000
/-- PRT_WIDTH_CTL, file 11. -/
def PRT_WIDTH_CTL (p : Nat) : Nat := 0x00800008 + p * 0x1000
/-- PRT_WIDTH_STATUS, file 11. -/
def PRT_WIDTH_STATUS (p : Nat) : Nat := 0x0080000C + p * 0x1000
/-- PRT_EI_CFG, file 11. -/
def PRT_EI_CFG (p : Nat) : Nat := 0x00800010 + p * 0x1000
/-- PRT_WIDTH_CHG_CNT, file 11. -/
def PRT_WIDTH_CHG_CNT (p : Nat) : Nat := 0x00800020 + p * 0x1000
/-- PRT_TIE_LOST_CNT, file 11. -/
def PRT_TIE_LOST_CNT (p : Nat) : Nat := 0x00800024 + p * 0x1000
/-- PRT_EI_ENTRY_CNT, file 11. -/
def PRT_EI_ENTRY_CNT (p : Nat) : Nat := 0x00800028 + p * 0x1000
/-- PRT_EI_EXIT_FAIL_CNT, file 11. -/
def PRT_EI_EXIT_FAIL_CNT (p : Nat) : Nat := 0x0080002C + p * 0x1000
/-- PRT_LANE_PROTO_CNT, file 11. -/
def PRT_LANE_PROTO_CNT (p : Nat) : Nat := 0x00800030 + p * 0x1000
/-- PRT_LL_CFG, file 03. -/
def PRT_LL_CFG (p : Nat) : Nat := 0x00800100 + p * 0x1000
/-- PRT_LL_STATUS, file 03. -/
def PRT_LL_STATUS (p : Nat) : Nat := 0x00800104 + p * 0x1000
/-- PRT_BAD_CW_CNT, file 03. -/
def PRT_BAD_CW_CNT (p : Nat) : Nat := 0x00800120 + p * 0x1000
/-- PRT_REPLAY_CNT, file 03. -/
def PRT_REPLAY_CNT (p : Nat) : Nat := 0x00800124 + p * 0x1000
/-- PRT_CRC_ERR_CNT, file 03. -/
def PRT_CRC_ERR_CNT (p : Nat) : Nat := 0x00800128 + p * 0x1000
/-- PRT_STOMP_CNT, file 03. -/
def PRT_STOMP_CNT (p : Nat) : Nat := 0x0080012C + p * 0x1000
/-- PRT_LL_PROTO_CNT, file 03. -/
def PRT_LL_PROTO_CNT (p : Nat) : Nat := 0x00800130 + p * 0x1000
/-- PRT_PREEMPT_CNT, file 03. -/
def PRT_PREEMPT_CNT (p : Nat) : Nat := 0x00800134 + p * 0x1000
/-- PRT_LCU_ERR_CNT, file 03. -/
def PRT_LCU_ERR_CNT (p : Nat) : Nat := 0x00800138 + p * 0x1000
/-- PRT_DISC_STATUS, file 04. -/
def PRT_DISC_STATUS (p : Nat) : Nat := 0x00800140 + p * 0x1000
/-- PRT_PEER_SERIAL_LO, file 04. -/
def PRT_PEER_SERIAL_LO (p : Nat) : Nat := 0x00800144 + p * 0x1000
/-- PRT_PEER_SERIAL_HI, file 04. -/
def PRT_PEER_SERIAL_HI (p : Nat) : Nat := 0x00800148 + p * 0x1000
/-- PRT_DISC_ID, file 04. -/
def PRT_DISC_ID (p : Nat) : Nat := 0x0080014C + p * 0x1000
/-- PRT_TAG_CFG, file 02. -/
def PRT_TAG_CFG (p : Nat) : Nat := 0x00800150 + p * 0x1000
/-- PRT_IG_RES, file 05. -/
def PRT_IG_RES (p q : Nat) : Nat := 0x00800180 + p * 0x1000 + q * 0x4
/-- PRT_EQ_MAX, file 05. -/
def PRT_EQ_MAX (p q : Nat) : Nat := 0x008001A0 + p * 0x1000 + q * 0x4
/-- PRT_DSC_DROP_CNT, file 05. -/
def PRT_DSC_DROP_CNT (p : Nat) : Nat := 0x008001C0 + p * 0x1000
/-- PRT_FLUSH_CNT, file 05. -/
def PRT_FLUSH_CNT (p : Nat) : Nat := 0x008001C4 + p * 0x1000
/-- PRT_NACK_CNT, file 05. -/
def PRT_NACK_CNT (p : Nat) : Nat := 0x008001C8 + p * 0x1000
/-- PRT_MIR_DROP_CNT, file 05. -/
def PRT_MIR_DROP_CNT (p : Nat) : Nat := 0x008001CC + p * 0x1000
/-- PRT_ARB_PRIO, file 06. -/
def PRT_ARB_PRIO (p : Nat) : Nat := 0x00800200 + p * 0x1000
/-- PRT_Q_CFG, file 06. -/
def PRT_Q_CFG (p q : Nat) : Nat := 0x00800220 + p * 0x1000 + q * 0x4
/-- PRT_Q_POL, file 06. -/
def PRT_Q_POL (p q : Nat) : Nat := 0x00800240 + p * 0x1000 + q * 0x4
/-- PRT_SHP_RATE, file 06. -/
def PRT_SHP_RATE (p q : Nat) : Nat := 0x00800260 + p * 0x1000 + q * 0x4
/-- PRT_SHP_BURST, file 06. -/
def PRT_SHP_BURST (p q : Nat) : Nat := 0x00800280 + p * 0x1000 + q * 0x4
/-- PRT_SHP_IDLE, file 06. -/
def PRT_SHP_IDLE (p q : Nat) : Nat := 0x008002A0 + p * 0x1000 + q * 0x4
/-- PRT_TRD_CFG, file 06. -/
def PRT_TRD_CFG (p : Nat) : Nat := 0x008002C0 + p * 0x1000
/-- PRT_TRD_SHEDS, file 06. -/
def PRT_TRD_SHEDS (p : Nat) : Nat := 0x008002C4 + p * 0x1000
/-- PRT_SCH_LATE_CNT, file 06. -/
def PRT_SCH_LATE_CNT (p : Nat) : Nat := 0x008002C8 + p * 0x1000
/-- PRT_PROMO_CNT, file 06. -/
def PRT_PROMO_CNT (p q : Nat) : Nat := 0x008002D0 + p * 0x1000 + q * 0x4
/-- PRT_Q_PEAK, file 06. -/
def PRT_Q_PEAK (p q : Nat) : Nat := 0x008002F0 + p * 0x1000 + q * 0x4
/-- LNE_CTL, file 11. -/
def LNE_CTL (n : Nat) : Nat := 0x00A00000 + n * 0x400
/-- LNE_STATUS, file 11. -/
def LNE_STATUS (n : Nat) : Nat := 0x00A00004 + n * 0x400
/-- LNE_EQ, file 11. -/
def LNE_EQ (n : Nat) : Nat := 0x00A00008 + n * 0x400
/-- LNE_REM_CFG, file 11. -/
def LNE_REM_CFG (n : Nat) : Nat := 0x00A0000C + n * 0x400
/-- LNE_FEC_CORR_CNT, file 11. -/
def LNE_FEC_CORR_CNT (n : Nat) : Nat := 0x00A00010 + n * 0x400
/-- LNE_FEC_UNCORR_CNT, file 11. -/
def LNE_FEC_UNCORR_CNT (n : Nat) : Nat := 0x00A00014 + n * 0x400
/-- LNE_PRBS_ERR_CNT, file 11. -/
def LNE_PRBS_ERR_CNT (n : Nat) : Nat := 0x00A00018 + n * 0x400
/-- LNE_TRAIN_FAIL_CNT, file 11. -/
def LNE_TRAIN_FAIL_CNT (n : Nat) : Nat := 0x00A0001C + n * 0x400
/-- LNE_MARGIN_CTL, file 11. -/
def LNE_MARGIN_CTL (n : Nat) : Nat := 0x00A00020 + n * 0x400
/-- LNE_MARGIN_RES, file 11. -/
def LNE_MARGIN_RES (n : Nat) : Nat := 0x00A00024 + n * 0x400
/-- SHT_CTL, file 09. -/
def SHT_CTL (p : Nat) : Nat := 0x01000000 + p * 0x2000
/-- SHT_STATUS, file 09. -/
def SHT_STATUS (p : Nat) : Nat := 0x01000004 + p * 0x2000
/-- SHT_RATE, file 09. -/
def SHT_RATE (p : Nat) : Nat := 0x01000008 + p * 0x2000
/-- SHT_DQ_W, file 09. -/
def SHT_DQ_W (p k : Nat) : Nat := 0x01000010 + p * 0x2000 + k * 0x4
/-- SHT_DQ_PUSH, file 09. -/
def SHT_DQ_PUSH (p : Nat) : Nat := 0x01000020 + p * 0x2000
/-- SHT_DQ_STATUS, file 09. -/
def SHT_DQ_STATUS (p : Nat) : Nat := 0x01000024 + p * 0x2000
/-- SHT_WAKE_PARK_CNT, file 09. -/
def SHT_WAKE_PARK_CNT (p : Nat) : Nat := 0x01000040 + p * 0x2000
/-- SHT_WAKE_OFF_CNT, file 09. -/
def SHT_WAKE_OFF_CNT (p : Nat) : Nat := 0x01000044 + p * 0x2000
/-- SHT_CTXSW_CNT, file 09. -/
def SHT_CTXSW_CNT (p : Nat) : Nat := 0x01000048 + p * 0x2000
/-- SHT_ISO_CNT, file 09. -/
def SHT_ISO_CNT (p : Nat) : Nat := 0x0100004C + p * 0x2000
/-- SHT_ECC_CORR_CNT, file 09. -/
def SHT_ECC_CORR_CNT (p : Nat) : Nat := 0x01000050 + p * 0x2000
/-- GRP_ENTRY_CTL, file 07. -/
def GRP_ENTRY_CTL (g : Nat) : Nat := 0x02000000 + g * 0x40
/-- GRP_OP, file 07. -/
def GRP_OP (g : Nat) : Nat := 0x02000004 + g * 0x40
/-- GRP_NELEM_LO, file 07. -/
def GRP_NELEM_LO (g : Nat) : Nat := 0x02000008 + g * 0x40
/-- GRP_NELEM_HI, file 07. -/
def GRP_NELEM_HI (g : Nat) : Nat := 0x0200000C + g * 0x40
/-- GRP_BUF_OFF, file 07. -/
def GRP_BUF_OFF (g : Nat) : Nat := 0x02000010 + g * 0x40
/-- GRP_MBR, file 07. -/
def GRP_MBR (g : Nat) : Nat := 0x02000014 + g * 0x40
/-- GRP_ROW_MASK, file 07. -/
def GRP_ROW_MASK (g : Nat) : Nat := 0x02000018 + g * 0x40
/-- GRP_COL_MASK, file 07. -/
def GRP_COL_MASK (g : Nat) : Nat := 0x0200001C + g * 0x40
/-- GRP_LINE_ROW, file 07. -/
def GRP_LINE_ROW (g : Nat) : Nat := 0x02000020 + g * 0x40
/-- GRP_LINE_COL, file 07. -/
def GRP_LINE_COL (g : Nat) : Nat := 0x02000024 + g * 0x40
/-- GRP_PIV_A, file 07. -/
def GRP_PIV_A (g : Nat) : Nat := 0x02000028 + g * 0x40
/-- GRP_PIV_B, file 07. -/
def GRP_PIV_B (g : Nat) : Nat := 0x0200002C + g * 0x40
/-- GRP_ROT, file 07. -/
def GRP_ROT (g : Nat) : Nat := 0x02000030 + g * 0x40
/-- GRP_STRAG, file 07. -/
def GRP_STRAG (g : Nat) : Nat := 0x02000034 + g * 0x40
/-- GRP_SEED, file 07. -/
def GRP_SEED (g : Nat) : Nat := 0x02000038 + g * 0x40
/-- GRP_STATUS, file 07. -/
def GRP_STATUS (g : Nat) : Nat := 0x0200003C + g * 0x40
/-- MBR_SLOT_LO, file 07. -/
def MBR_SLOT_LO (s : Nat) : Nat := 0x02100000 + s * 0x8
/-- MBR_SLOT_HI, file 07. -/
def MBR_SLOT_HI (s : Nat) : Nat := 0x02100004 + s * 0x8
/-- CTX_MEM_CTL, file 02. -/
def CTX_MEM_CTL (c : Nat) : Nat := 0x02200040 + c * 0x100
/-- CTX_WIN_RANGE, file 02. -/
def CTX_WIN_RANGE (c : Nat) : Nat := 0x02200044 + c * 0x100
/-- CTX_TIMEOUT_CNT, file 02. -/
def CTX_TIMEOUT_CNT (c : Nat) : Nat := 0x02200048 + c * 0x100
/-- CTX_LATE_CPL, file 02. -/
def CTX_LATE_CPL (c : Nat) : Nat := 0x0220004C + c * 0x100
/-- CTX_GRP, file 07. -/
def CTX_GRP (c : Nat) : Nat := 0x02200050 + c * 0x100
/-- CTX_REAM, file 07. -/
def CTX_REAM (c : Nat) : Nat := 0x02200054 + c * 0x100
/-- CTX_REAM_FAIL_CNT, file 07. -/
def CTX_REAM_FAIL_CNT (c : Nat) : Nat := 0x02200058 + c * 0x100
/-- CTX_PICK_TMO_CNT, file 07. -/
def CTX_PICK_TMO_CNT (c : Nat) : Nat := 0x0220005C + c * 0x100
/-- CTX_EGR, file 09. -/
def CTX_EGR (c : Nat) : Nat := 0x02200060 + c * 0x100
/-- CTX_CMD_TMO, file 13. -/
def CTX_CMD_TMO (c : Nat) : Nat := 0x02200064 + c * 0x100
/-- CTX_CMD_TMO_CNT, file 13. -/
def CTX_CMD_TMO_CNT (c : Nat) : Nat := 0x02200068 + c * 0x100
/-- CTX_RST_DROP_CNT, file 13. -/
def CTX_RST_DROP_CNT (c : Nat) : Nat := 0x0220006C + c * 0x100
/-- CTX_PORT_EN, file 02. -/
def CTX_PORT_EN (c k : Nat) : Nat := 0x02200080 + c * 0x100 + k * 0x4
/-- RTE_CFG, file 04. -/
def RTE_CFG : Nat := 0x02400000
/-- RTE_COORD, file 04. -/
def RTE_COORD : Nat := 0x02400004
/-- RTE_DISC_CTL, file 04. -/
def RTE_DISC_CTL : Nat := 0x02400008
/-- RTE_DISC_STATUS, file 04. -/
def RTE_DISC_STATUS : Nat := 0x0240000C
/-- RTE_ROOT_SERIAL_LO, file 04. -/
def RTE_ROOT_SERIAL_LO : Nat := 0x02400010
/-- RTE_ROOT_SERIAL_HI, file 04. -/
def RTE_ROOT_SERIAL_HI : Nat := 0x02400014
/-- RTE_UPD_STATUS, file 04. -/
def RTE_UPD_STATUS : Nat := 0x02400018
/-- RTE_UNREACH_CNT, file 04. -/
def RTE_UNREACH_CNT : Nat := 0x02400020
/-- RTE_NM_CNT, file 04. -/
def RTE_NM_CNT : Nat := 0x02400024
/-- RTE_MC_DROP_CNT, file 04. -/
def RTE_MC_DROP_CNT : Nat := 0x02400028
/-- RTE_QUAR_DROP_CNT, file 04. -/
def RTE_QUAR_DROP_CNT : Nat := 0x0240002C
/-- RTE_ORD_HOLD_CNT, file 04. -/
def RTE_ORD_HOLD_CNT : Nat := 0x02400030
/-- RTE_HASH_SALT, file 04. -/
def RTE_HASH_SALT : Nat := 0x02400034
/-- RTE_LOCAL, file 04. -/
def RTE_LOCAL (k : Nat) : Nat := 0x02400100 + k * 0x4
/-- RTE_ROW_LO, file 04. -/
def RTE_ROW_LO (c : Nat) : Nat := 0x02400200 + c * 0x8
/-- RTE_ROW_HI, file 04. -/
def RTE_ROW_HI (c : Nat) : Nat := 0x02400204 + c * 0x8
/-- RTE_COL_LO, file 04. -/
def RTE_COL_LO (c : Nat) : Nat := 0x02400300 + c * 0x8
/-- RTE_COL_HI, file 04. -/
def RTE_COL_HI (c : Nat) : Nat := 0x02400304 + c * 0x8
/-- RTE_DEST, file 04. -/
def RTE_DEST (i : Nat) : Nat := 0x02401000 + i * 0x4
/-- CBF_STATUS, file 05. -/
def CBF_STATUS (d : Nat) : Nat := 0x02800000 + d * 0x10000
/-- CBF_RETIRED, file 05. -/
def CBF_RETIRED (d : Nat) : Nat := 0x02800004 + d * 0x10000
/-- CBF_SHARED, file 05. -/
def CBF_SHARED (d : Nat) : Nat := 0x02800008 + d * 0x10000
/-- CBF_SHARED_FREE, file 05. -/
def CBF_SHARED_FREE (d : Nat) : Nat := 0x0280000C + d * 0x10000
/-- CBF_EG_RES, file 05. -/
def CBF_EG_RES (d j : Nat) : Nat := 0x02800010 + d * 0x10000 + j * 0x4
/-- CBF_THRESH, file 05. -/
def CBF_THRESH (d : Nat) : Nat := 0x02800030 + d * 0x10000
/-- CBF_HOL, file 05. -/
def CBF_HOL (d : Nat) : Nat := 0x02800034 + d * 0x10000
/-- CBF_XB_CFG, file 05. -/
def CBF_XB_CFG (d : Nat) : Nat := 0x02800038 + d * 0x10000
/-- CBF_ALLOC_FAIL_CNT, file 05. -/
def CBF_ALLOC_FAIL_CNT (d : Nat) : Nat := 0x02800040 + d * 0x10000
/-- CBF_ECC_CORR_CNT, file 05. -/
def CBF_ECC_CORR_CNT (d : Nat) : Nat := 0x02800044 + d * 0x10000
/-- CBF_ECC_UNCORR_CNT, file 05. -/
def CBF_ECC_UNCORR_CNT (d : Nat) : Nat := 0x02800048 + d * 0x10000
/-- CBF_MIR_SRC, file 05. -/
def CBF_MIR_SRC (s : Nat) : Nat := 0x02840000 + s * 0x10
/-- CBF_MIR_FLOW, file 05. -/
def CBF_MIR_FLOW (s : Nat) : Nat := 0x02840004 + s * 0x10
/-- CBF_MIR_EP, file 05. -/
def CBF_MIR_EP (s : Nat) : Nat := 0x02840008 + s * 0x10
/-- CBF_MIR_DST, file 05. -/
def CBF_MIR_DST (s : Nat) : Nat := 0x0284000C + s * 0x10
/-- SHP_CTX_RATE, file 06. -/
def SHP_CTX_RATE (c : Nat) : Nat := 0x02880000 + c * 0x10
/-- SHP_CTX_BURST, file 06. -/
def SHP_CTX_BURST (c : Nat) : Nat := 0x02880004 + c * 0x10
/-- SHP_CTX_WAIT_CNT, file 06. -/
def SHP_CTX_WAIT_CNT (c : Nat) : Nat := 0x02880008 + c * 0x10
/-- SCH_TIME_CFG, file 06. -/
def SCH_TIME_CFG : Nat := 0x02890000
/-- SCH_TIME_STATUS, file 06. -/
def SCH_TIME_STATUS : Nat := 0x02890004
/-- SCH_FTIME_LO, file 06. -/
def SCH_FTIME_LO : Nat := 0x02890008
/-- SCH_FTIME_HI, file 06. -/
def SCH_FTIME_HI : Nat := 0x0289000C
/-- SCH_TIME_UNLOCK_CNT, file 06. -/
def SCH_TIME_UNLOCK_CNT : Nat := 0x02890010
/-- SCH_TIME_ERR_CNT, file 06. -/
def SCH_TIME_ERR_CNT : Nat := 0x02890014
/-- SCH_SAMP_CFG, file 06. -/
def SCH_SAMP_CFG : Nat := 0x02890100
/-- SHP_POL_CFG, file 06. -/
def SHP_POL_CFG (i : Nat) : Nat := 0x028C0000 + i * 0x20
/-- SHP_POL_CIR, file 06. -/
def SHP_POL_CIR (i : Nat) : Nat := 0x028C0004 + i * 0x20
/-- SHP_POL_PIR, file 06. -/
def SHP_POL_PIR (i : Nat) : Nat := 0x028C0008 + i * 0x20
/-- SHP_POL_CBS, file 06. -/
def SHP_POL_CBS (i : Nat) : Nat := 0x028C000C + i * 0x20
/-- SHP_POL_PBS, file 06. -/
def SHP_POL_PBS (i : Nat) : Nat := 0x028C0010 + i * 0x20
/-- SHP_POL_GREEN_CNT, file 06. -/
def SHP_POL_GREEN_CNT (i : Nat) : Nat := 0x028C0014 + i * 0x20
/-- SHP_POL_YELLOW_CNT, file 06. -/
def SHP_POL_YELLOW_CNT (i : Nat) : Nat := 0x028C0018 + i * 0x20
/-- SHP_POL_RED_CNT, file 06. -/
def SHP_POL_RED_CNT (i : Nat) : Nat := 0x028C001C + i * 0x20
/-- SCH_SHED_LO, file 06. -/
def SCH_SHED_LO (d i : Nat) : Nat := 0x02900000 + d * 0x100000 + i * 0x8
/-- SCH_SHED_HI, file 06. -/
def SCH_SHED_HI (d i : Nat) : Nat := 0x02900004 + d * 0x100000 + i * 0x8
/-- SCH_HIST_DEPTH, file 06. -/
def SCH_HIST_DEPTH (qi b : Nat) : Nat := 0x02D00000 + qi * 0x80 + b * 0x4
/-- SCH_HIST_DELAY, file 06. -/
def SCH_HIST_DELAY (qi b : Nat) : Nat := 0x02D00040 + qi * 0x80 + b * 0x4
/-- SEL_CTL, file 13. -/
def SEL_CTL : Nat := 0x03020000
/-- SEL_STATUS, file 13. -/
def SEL_STATUS : Nat := 0x03020004
/-- WMK_SUM_LO, file 10. -/
def WMK_SUM_LO (g : Nat) : Nat := 0x03600000 + g * 0x20
/-- WMK_SUM_HI, file 10. -/
def WMK_SUM_HI (g : Nat) : Nat := 0x03600004 + g * 0x20
/-- WMK_CNT, file 10. -/
def WMK_CNT (g : Nat) : Nat := 0x03600008 + g * 0x20
/-- WMK_CTL, file 10. -/
def WMK_CTL (g : Nat) : Nat := 0x0360000C + g * 0x20
/-- WMK_SNAP_LO, file 10. -/
def WMK_SNAP_LO (g : Nat) : Nat := 0x03600010 + g * 0x20
/-- WMK_SNAP_HI, file 10. -/
def WMK_SNAP_HI (g : Nat) : Nat := 0x03600014 + g * 0x20
/-- WMK_SNAP_CNT, file 10. -/
def WMK_SNAP_CNT (g : Nat) : Nat := 0x03600018 + g * 0x20
/-- WMK_SNAP_SEQ, file 10. -/
def WMK_SNAP_SEQ (g : Nat) : Nat := 0x0360001C + g * 0x20
/-- WMK_TRC_CFG, file 10. -/
def WMK_TRC_CFG : Nat := 0x03680000
/-- WMK_TRC_STATUS, file 10. -/
def WMK_TRC_STATUS : Nat := 0x03680004
/-- WMK_TRC_REC0, file 10. -/
def WMK_TRC_REC0 (i : Nat) : Nat := 0x03681000 + i * 0x10
/-- WMK_TRC_REC1, file 10. -/
def WMK_TRC_REC1 (i : Nat) : Nat := 0x03681004 + i * 0x10
/-- WMK_TRC_REC2, file 10. -/
def WMK_TRC_REC2 (i : Nat) : Nat := 0x03681008 + i * 0x10
/-- WMK_TRC_REC3, file 10. -/
def WMK_TRC_REC3 (i : Nat) : Nat := 0x0368100C + i * 0x10
/-- BCW_PRT_SEL, file 14. -/
def BCW_PRT_SEL : Nat := 0x00B02000
/-- BCW_PRT_STATUS, file 14. -/
def BCW_PRT_STATUS : Nat := 0x00B02004
/-- BCW_LNE_SEL, file 14. -/
def BCW_LNE_SEL : Nat := 0x00B02008
/-- BCW_LNE_STATUS, file 14. -/
def BCW_LNE_STATUS : Nat := 0x00B0200C
/-- BCW_PRT_GRP, file 14. -/
def BCW_PRT_GRP (g k : Nat) : Nat := 0x00B04000 + g * 0x40 + k * 0x4
/-- BCW_LNE_GRP, file 14. -/
def BCW_LNE_GRP (g k : Nat) : Nat := 0x00B04800 + g * 0x40 + k * 0x4
/-- BCW_SHT_SEL, file 14. -/
def BCW_SHT_SEL : Nat := 0x01802000
/-- BCW_SHT_STATUS, file 14. -/
def BCW_SHT_STATUS : Nat := 0x01802004
/-- BCW_SHT_GRP, file 14. -/
def BCW_SHT_GRP (g k : Nat) : Nat := 0x01804000 + g * 0x80 + k * 0x4

end R

namespace F

def GLB_ID_device_id : FieldRef := ⟨R.GLB_ID, 16, 16⟩
def GLB_ID_vendor_id : FieldRef := ⟨R.GLB_ID, 0, 16⟩
def GLB_REV_stepping : FieldRef := ⟨R.GLB_REV, 8, 8⟩
def GLB_REV_rev_id : FieldRef := ⟨R.GLB_REV, 0, 8⟩
def GLB_SERIAL_LO_serial : FieldRef := ⟨R.GLB_SERIAL_LO, 0, 32⟩
def GLB_SERIAL_HI_serial : FieldRef := ⟨R.GLB_SERIAL_HI, 0, 32⟩
def GLB_CAPS_n_weave : FieldRef := ⟨R.GLB_CAPS, 28, 4⟩
def GLB_CAPS_n_reed : FieldRef := ⟨R.GLB_CAPS, 24, 4⟩
def GLB_CAPS_sht_per_die : FieldRef := ⟨R.GLB_CAPS, 16, 8⟩
def GLB_CAPS_lanes : FieldRef := ⟨R.GLB_CAPS, 0, 10⟩
def GLB_TBASE_LO_time : FieldRef := ⟨R.GLB_TBASE_LO, 0, 32⟩
def GLB_TBASE_HI_time : FieldRef := ⟨R.GLB_TBASE_HI, 0, 32⟩
def GLB_SCRATCH_value (k : Nat) : FieldRef := ⟨R.GLB_SCRATCH k, 0, 32⟩
def GLB_PON_TIME_seconds : FieldRef := ⟨R.GLB_PON_TIME, 0, 32⟩
def GLB_WIN_CFG_coh_size : FieldRef := ⟨R.GLB_WIN_CFG, 16, 7⟩
def GLB_WIN_CFG_win_size : FieldRef := ⟨R.GLB_WIN_CFG, 0, 6⟩
def GLB_COH_PROTO_CNT_count : FieldRef := ⟨R.GLB_COH_PROTO_CNT, 0, 32⟩
def GLB_COH_STRAY_CNT_count : FieldRef := ⟨R.GLB_COH_STRAY_CNT, 0, 32⟩
def GLB_COH_TMO_CNT_count : FieldRef := ⟨R.GLB_COH_TMO_CNT, 0, 32⟩
def GLB_COH_POISON_CNT_count : FieldRef := ⟨R.GLB_COH_POISON_CNT, 0, 32⟩
def GLB_GRP_ABORT_SEL_ctx : FieldRef := ⟨R.GLB_GRP_ABORT_SEL, 14, 12⟩
def GLB_GRP_ABORT_SEL_group : FieldRef := ⟨R.GLB_GRP_ABORT_SEL, 0, 14⟩
def GLB_GRP_ABORT_go : FieldRef := ⟨R.GLB_GRP_ABORT, 31, 1⟩
def GLB_GRP_ABORT_all : FieldRef := ⟨R.GLB_GRP_ABORT, 30, 1⟩
def GLB_GRP_ABORT_pick : FieldRef := ⟨R.GLB_GRP_ABORT, 0, 23⟩
def GLB_GRP_ABORT_STATUS_busy : FieldRef := ⟨R.GLB_GRP_ABORT_STATUS, 31, 1⟩
def GLB_GRP_ABORT_STATUS_result : FieldRef := ⟨R.GLB_GRP_ABORT_STATUS, 29, 2⟩
def GLB_GRP_ABORT_STATUS_count : FieldRef := ⟨R.GLB_GRP_ABORT_STATUS, 0, 15⟩
def GLB_GRP_HOME_salt : FieldRef := ⟨R.GLB_GRP_HOME, 0, 12⟩
def GLB_GRP_UPD_STATUS_settled : FieldRef := ⟨R.GLB_GRP_UPD_STATUS, 0, 1⟩
def GLB_GRP_STRAY_CNT_count : FieldRef := ⟨R.GLB_GRP_STRAY_CNT, 0, 32⟩
def GLB_GRP_OVER_CNT_count : FieldRef := ⟨R.GLB_GRP_OVER_CNT, 0, 32⟩
def GLB_GRP_RES_ERR_CNT_count : FieldRef := ⟨R.GLB_GRP_RES_ERR_CNT, 0, 32⟩
def GLB_GRP_RES_DROP_CNT_count : FieldRef := ⟨R.GLB_GRP_RES_DROP_CNT, 0, 32⟩
def GLB_GRP_STRAG_LOG0_valid : FieldRef := ⟨R.GLB_GRP_STRAG_LOG0, 31, 1⟩
def GLB_GRP_STRAG_LOG0_ctx : FieldRef := ⟨R.GLB_GRP_STRAG_LOG0, 14, 12⟩
def GLB_GRP_STRAG_LOG0_group : FieldRef := ⟨R.GLB_GRP_STRAG_LOG0, 0, 14⟩
def GLB_GRP_STRAG_LOG1_endpoint : FieldRef := ⟨R.GLB_GRP_STRAG_LOG1, 17, 15⟩
def GLB_GRP_STRAG_LOG1_slot : FieldRef := ⟨R.GLB_GRP_STRAG_LOG1, 0, 17⟩
def GLB_ORP_BAD_CNT_count : FieldRef := ⟨R.GLB_ORP_BAD_CNT, 0, 32⟩
def GLB_NUM_OVF_CNT_count : FieldRef := ⟨R.GLB_NUM_OVF_CNT, 0, 32⟩
def GLB_NUM_NAN_CNT_count : FieldRef := ⟨R.GLB_NUM_NAN_CNT, 0, 32⟩
def GLB_SMG_REF_CNT_count : FieldRef := ⟨R.GLB_SMG_REF_CNT, 0, 32⟩
def GLB_DET_CTL_strict : FieldRef := ⟨R.GLB_DET_CTL, 0, 1⟩
def GLB_DET_BLOCK_CNT_count : FieldRef := ⟨R.GLB_DET_BLOCK_CNT, 0, 32⟩
def GLB_SHT_MIG_go : FieldRef := ⟨R.GLB_SHT_MIG, 31, 1⟩
def GLB_SHT_MIG_force : FieldRef := ⟨R.GLB_SHT_MIG, 30, 1⟩
def GLB_SHT_MIG_target : FieldRef := ⟨R.GLB_SHT_MIG, 9, 8⟩
def GLB_SHT_MIG_logical : FieldRef := ⟨R.GLB_SHT_MIG, 0, 9⟩
def GLB_SHT_MIG_STATUS_busy : FieldRef := ⟨R.GLB_SHT_MIG_STATUS, 31, 1⟩
def GLB_SHT_MIG_STATUS_result : FieldRef := ⟨R.GLB_SHT_MIG_STATUS, 28, 3⟩
def GLB_SHT_MIG_STATUS_redirects : FieldRef := ⟨R.GLB_SHT_MIG_STATUS, 0, 6⟩
def GLB_SHT_RW_CFG_rw_int : FieldRef := ⟨R.GLB_SHT_RW_CFG, 0, 16⟩
def GLB_SHT_MAP_valid (l : Nat) : FieldRef := ⟨R.GLB_SHT_MAP l, 31, 1⟩
def GLB_SHT_MAP_w (l : Nat) : FieldRef := ⟨R.GLB_SHT_MAP l, 20, 4⟩
def GLB_SHT_MAP_wmax (l : Nat) : FieldRef := ⟨R.GLB_SHT_MAP l, 16, 4⟩
def GLB_SHT_MAP_auto (l : Nat) : FieldRef := ⟨R.GLB_SHT_MAP l, 15, 1⟩
def GLB_SHT_MAP_phys (l : Nat) : FieldRef := ⟨R.GLB_SHT_MAP l, 0, 8⟩
def GLB_RQ_MTX_h (n k : Nat) : FieldRef := ⟨R.GLB_RQ_MTX n k, 0, 32⟩
def AON_LC_busy : FieldRef := ⟨R.AON_LC, 31, 1⟩
def AON_LC_refused : FieldRef := ⟨R.AON_LC, 30, 1⟩
def AON_LC_state : FieldRef := ⟨R.AON_LC, 0, 2⟩
def AON_LC_CTL_key : FieldRef := ⟨R.AON_LC_CTL, 8, 8⟩
def AON_LC_CTL_target : FieldRef := ⟨R.AON_LC_CTL, 0, 2⟩
def AON_LC_HASH_hash (k : Nat) : FieldRef := ⟨R.AON_LC_HASH k, 0, 32⟩
def DFT_STATUS_busy : FieldRef := ⟨R.DFT_STATUS, 31, 1⟩
def DFT_STATUS_valid : FieldRef := ⟨R.DFT_STATUS, 30, 1⟩
def DFT_STATUS_active : FieldRef := ⟨R.DFT_STATUS, 29, 1⟩
def DFT_STATUS_mixed : FieldRef := ⟨R.DFT_STATUS, 28, 1⟩
def DFT_STATUS_result : FieldRef := ⟨R.DFT_STATUS, 24, 4⟩
def DFT_STATUS_reason : FieldRef := ⟨R.DFT_STATUS, 16, 8⟩
def DFT_STATUS_panel : FieldRef := ⟨R.DFT_STATUS, 0, 16⟩
def DFT_SEQ_seq : FieldRef := ⟨R.DFT_SEQ, 0, 32⟩
def DFT_LOAD_go : FieldRef := ⟨R.DFT_LOAD, 31, 1⟩
def DFT_LOAD_slot : FieldRef := ⟨R.DFT_LOAD, 0, 1⟩
def DFT_BOOT_pin : FieldRef := ⟨R.DFT_BOOT, 31, 1⟩
def DFT_BOOT_pin_slot : FieldRef := ⟨R.DFT_BOOT, 0, 1⟩
def DFT_PORT_RST_go : FieldRef := ⟨R.DFT_PORT_RST, 31, 1⟩
def DFT_PORT_RST_unit : FieldRef := ⟨R.DFT_PORT_RST, 0, 10⟩
def DFT_SHT_RST_go : FieldRef := ⟨R.DFT_SHT_RST, 31, 1⟩
def DFT_SHT_RST_unit : FieldRef := ⟨R.DFT_SHT_RST, 0, 10⟩
def FLT_STATUS_fatal : FieldRef := ⟨R.FLT_STATUS, 31, 1⟩
def FLT_STATUS_pin : FieldRef := ⟨R.FLT_STATUS, 30, 1⟩
def FLT_STATUS_die_rst : FieldRef := ⟨R.FLT_STATUS, 26, 4⟩
def FLT_STATUS_ready : FieldRef := ⟨R.FLT_STATUS, 25, 1⟩
def FLT_PIN_CTL_release : FieldRef := ⟨R.FLT_PIN_CTL, 31, 1⟩
def FLT_PIN_CTL_auto_rel : FieldRef := ⟨R.FLT_PIN_CTL, 30, 1⟩
def FLT_HANG_CFG_auto_mig : FieldRef := ⟨R.FLT_HANG_CFG, 31, 1⟩
def FLT_CAUSE_LO_cause : FieldRef := ⟨R.FLT_CAUSE_LO, 8, 24⟩
def FLT_CAUSE_LO_fatal_cause : FieldRef := ⟨R.FLT_CAUSE_LO, 0, 7⟩
def FLT_CAUSE_HI_cause : FieldRef := ⟨R.FLT_CAUSE_HI, 0, 16⟩
def FLT_LIVE_LO_live : FieldRef := ⟨R.FLT_LIVE_LO, 8, 24⟩
def FLT_LIVE_LO_fatal_live : FieldRef := ⟨R.FLT_LIVE_LO, 0, 7⟩
def FLT_LIVE_HI_live : FieldRef := ⟨R.FLT_LIVE_HI, 0, 16⟩
def FLT_PIN_EN_LO_pin_en : FieldRef := ⟨R.FLT_PIN_EN_LO, 8, 24⟩
def FLT_PIN_EN_LO_fatal_pin : FieldRef := ⟨R.FLT_PIN_EN_LO, 0, 7⟩
def FLT_PIN_EN_HI_pin_en : FieldRef := ⟨R.FLT_PIN_EN_HI, 0, 10⟩
def FLT_INT_EN_LO_int_en : FieldRef := ⟨R.FLT_INT_EN_LO, 8, 24⟩
def FLT_INT_EN_LO_fatal_int : FieldRef := ⟨R.FLT_INT_EN_LO, 0, 7⟩
def FLT_INT_EN_HI_int_en : FieldRef := ⟨R.FLT_INT_EN_HI, 0, 16⟩
def FLT_FFC0_valid : FieldRef := ⟨R.FLT_FFC0, 31, 1⟩
def FLT_FFC0_class : FieldRef := ⟨R.FLT_FFC0, 29, 2⟩
def FLT_FFC0_more : FieldRef := ⟨R.FLT_FFC0, 28, 1⟩
def FLT_FFC0_ctx_vld : FieldRef := ⟨R.FLT_FFC0, 27, 1⟩
def FLT_FFC0_cause : FieldRef := ⟨R.FLT_FFC0, 12, 6⟩
def FLT_FFC0_ctx : FieldRef := ⟨R.FLT_FFC0, 0, 12⟩
def FLT_FFC1_value : FieldRef := ⟨R.FLT_FFC1, 0, 32⟩
def FLT_FFC2_value : FieldRef := ⟨R.FLT_FFC2, 0, 32⟩
def FLT_FFC3_value : FieldRef := ⟨R.FLT_FFC3, 0, 32⟩
def FLT_FFC4_value : FieldRef := ⟨R.FLT_FFC4, 0, 32⟩
def FLT_CTX_RST_go : FieldRef := ⟨R.FLT_CTX_RST, 31, 1⟩
def FLT_CTX_RST_sample : FieldRef := ⟨R.FLT_CTX_RST, 30, 1⟩
def FLT_CTX_RST_ctx : FieldRef := ⟨R.FLT_CTX_RST, 0, 12⟩
def FLT_CTX_RST_STATUS_busy : FieldRef := ⟨R.FLT_CTX_RST_STATUS, 31, 1⟩
def FLT_CTX_RST_STATUS_result : FieldRef := ⟨R.FLT_CTX_RST_STATUS, 28, 3⟩
def FLT_CTX_RST_STATUS_sampled : FieldRef := ⟨R.FLT_CTX_RST_STATUS, 27, 1⟩
def FLT_CTX_RST_STATUS_skipped : FieldRef := ⟨R.FLT_CTX_RST_STATUS, 26, 1⟩
def FLT_CTX_RST_STATUS_trunc : FieldRef := ⟨R.FLT_CTX_RST_STATUS, 25, 1⟩
def FLT_CTX_RST_STATUS_elapsed : FieldRef := ⟨R.FLT_CTX_RST_STATUS, 0, 16⟩
def FLT_CAP_CTL_release : FieldRef := ⟨R.FLT_CAP_CTL, 31, 1⟩
def FLT_CAP_CTL_held : FieldRef := ⟨R.FLT_CAP_CTL, 30, 1⟩
def FLT_CAP_CTL_seq : FieldRef := ⟨R.FLT_CAP_CTL, 0, 16⟩
def FLT_DIE_RST_go : FieldRef := ⟨R.FLT_DIE_RST, 31, 1⟩
def FLT_DIE_RST_die : FieldRef := ⟨R.FLT_DIE_RST, 0, 2⟩
def FLT_WARM_RST_key : FieldRef := ⟨R.FLT_WARM_RST, 0, 8⟩
def FLT_D2D_STAT_failed (i : Nat) : FieldRef := ⟨R.FLT_D2D_STAT i, 26, 6⟩
def FLT_D2D_STAT_spares (i : Nat) : FieldRef := ⟨R.FLT_D2D_STAT i, 24, 2⟩
def FLT_D2D_STAT_resends (i : Nat) : FieldRef := ⟨R.FLT_D2D_STAT i, 0, 16⟩
def FLT_CNT_count (n : Nat) : FieldRef := ⟨R.FLT_CNT n, 0, 32⟩
def PWR_CTL_off : FieldRef := ⟨R.PWR_CTL, 31, 1⟩
def PWR_CTL_wipe_on_off : FieldRef := ⟨R.PWR_CTL, 30, 1⟩
def PWR_STATUS_seq : FieldRef := ⟨R.PWR_STATUS, 28, 4⟩
def PWR_STATUS_pwr_good : FieldRef := ⟨R.PWR_STATUS, 27, 1⟩
def PWR_STATUS_seq_err : FieldRef := ⟨R.PWR_STATUS, 26, 1⟩
def PWR_STATUS_err_rail : FieldRef := ⟨R.PWR_STATUS, 23, 3⟩
def PWR_STATUS_err_step : FieldRef := ⟨R.PWR_STATUS, 19, 4⟩
def PWR_STATUS_rail_good : FieldRef := ⟨R.PWR_STATUS, 0, 7⟩
def PWR_PHASE_SEL_phase : FieldRef := ⟨R.PWR_PHASE_SEL, 0, 4⟩
def PWR_LIMITS_icap : FieldRef := ⟨R.PWR_LIMITS, 22, 10⟩
def PWR_LIMITS_pcap_win : FieldRef := ⟨R.PWR_LIMITS, 16, 6⟩
def PWR_LIMITS_ext_lvl : FieldRef := ⟨R.PWR_LIMITS, 13, 3⟩
def PWR_TEMP_CFG_warn : FieldRef := ⟨R.PWR_TEMP_CFG, 0, 8⟩
def PWR_DROOP_CFG_droop_mv : FieldRef := ⟨R.PWR_DROOP_CFG, 8, 8⟩
def PWR_DROOP_CFG_hold : FieldRef := ⟨R.PWR_DROOP_CFG, 0, 8⟩
def PWR_ALERT_EN_seq : FieldRef := ⟨R.PWR_ALERT_EN, 8, 1⟩
def PWR_ALERT_EN_excursion : FieldRef := ⟨R.PWR_ALERT_EN, 7, 1⟩
def PWR_ALERT_EN_warn : FieldRef := ⟨R.PWR_ALERT_EN, 6, 1⟩
def PWR_ALERT_EN_thr : FieldRef := ⟨R.PWR_ALERT_EN, 0, 6⟩
def PWR_ALERT_STATUS_seq : FieldRef := ⟨R.PWR_ALERT_STATUS, 8, 1⟩
def PWR_ALERT_STATUS_excursion : FieldRef := ⟨R.PWR_ALERT_STATUS, 7, 1⟩
def PWR_ALERT_STATUS_warn : FieldRef := ⟨R.PWR_ALERT_STATUS, 6, 1⟩
def PWR_ALERT_STATUS_thr : FieldRef := ⟨R.PWR_ALERT_STATUS, 0, 6⟩
def PWR_VTRIM_trim4 : FieldRef := ⟨R.PWR_VTRIM, 20, 5⟩
def PWR_VTRIM_trim3 : FieldRef := ⟨R.PWR_VTRIM, 15, 5⟩
def PWR_VTRIM_trim2 : FieldRef := ⟨R.PWR_VTRIM, 10, 5⟩
def PWR_VTRIM_trim1 : FieldRef := ⟨R.PWR_VTRIM, 5, 5⟩
def PWR_VTRIM_trim0 : FieldRef := ⟨R.PWR_VTRIM, 0, 5⟩
def PWR_DIE_CTL_standby (d : Nat) : FieldRef := ⟨R.PWR_DIE_CTL d, 31, 1⟩
def PWR_DIE_CTL_mgmt_lvl (d : Nat) : FieldRef := ⟨R.PWR_DIE_CTL d, 0, 3⟩
def PWR_DIE_STATUS_eff_lvl (d : Nat) : FieldRef := ⟨R.PWR_DIE_STATUS d, 29, 3⟩
def PWR_DIE_STATUS_req_lvl (d : Nat) : FieldRef := ⟨R.PWR_DIE_STATUS d, 26, 3⟩
def PWR_DIE_STATUS_lim_lvl (d : Nat) : FieldRef := ⟨R.PWR_DIE_STATUS d, 23, 3⟩
def PWR_DIE_STATUS_standby (d : Nat) : FieldRef := ⟨R.PWR_DIE_STATUS d, 22, 1⟩
def PWR_DIE_STATUS_sb_refused (d : Nat) : FieldRef := ⟨R.PWR_DIE_STATUS d, 21, 1⟩
def PWR_DIE_STATUS_stretch (d : Nat) : FieldRef := ⟨R.PWR_DIE_STATUS d, 20, 1⟩
def PWR_DIE_STATUS_active (d : Nat) : FieldRef := ⟨R.PWR_DIE_STATUS d, 14, 6⟩
def PWR_RAIL_MV_state (i : Nat) : FieldRef := ⟨R.PWR_RAIL_MV i, 28, 4⟩
def PWR_RAIL_MV_mv (i : Nat) : FieldRef := ⟨R.PWR_RAIL_MV i, 0, 16⟩
def PWR_VCORE_amps : FieldRef := ⟨R.PWR_VCORE, 10, 11⟩
def PWR_VCORE_req_mv : FieldRef := ⟨R.PWR_VCORE, 0, 10⟩
def PWR_PHASE_pcap (i : Nat) : FieldRef := ⟨R.PWR_PHASE i, 21, 11⟩
def PWR_PHASE_op3 (i : Nat) : FieldRef := ⟨R.PWR_PHASE i, 9, 3⟩
def PWR_PHASE_op2 (i : Nat) : FieldRef := ⟨R.PWR_PHASE i, 6, 3⟩
def PWR_PHASE_op1 (i : Nat) : FieldRef := ⟨R.PWR_PHASE i, 3, 3⟩
def PWR_PHASE_op0 (i : Nat) : FieldRef := ⟨R.PWR_PHASE i, 0, 3⟩
def PWR_TEMP_max (i : Nat) : FieldRef := ⟨R.PWR_TEMP i, 16, 16⟩
def PWR_TEMP_temp (i : Nat) : FieldRef := ⟨R.PWR_TEMP i, 0, 16⟩
def PWR_THR_DUR_LO_dur (r : Nat) : FieldRef := ⟨R.PWR_THR_DUR_LO r, 0, 32⟩
def PWR_THR_DUR_HI_dur (r : Nat) : FieldRef := ⟨R.PWR_THR_DUR_HI r, 0, 16⟩
def PWR_THR_EPI_count (r : Nat) : FieldRef := ⟨R.PWR_THR_EPI r, 0, 32⟩
def PWR_ENERGY_LO_energy : FieldRef := ⟨R.PWR_ENERGY_LO, 0, 32⟩
def PWR_ENERGY_HI_energy : FieldRef := ⟨R.PWR_ENERGY_HI, 0, 32⟩
def MIO_I2C_CFG_en (n : Nat) : FieldRef := ⟨R.MIO_I2C_CFG n, 31, 1⟩
def MIO_I2C_CFG_recover (n : Nat) : FieldRef := ⟨R.MIO_I2C_CFG n, 30, 1⟩
def MIO_I2C_CFG_rate (n : Nat) : FieldRef := ⟨R.MIO_I2C_CFG n, 0, 2⟩
def MIO_I2C_XFER_go (n : Nat) : FieldRef := ⟨R.MIO_I2C_XFER n, 31, 1⟩
def MIO_I2C_XFER_addr (n : Nat) : FieldRef := ⟨R.MIO_I2C_XFER n, 16, 7⟩
def MIO_I2C_XFER_wlen (n : Nat) : FieldRef := ⟨R.MIO_I2C_XFER n, 8, 6⟩
def MIO_I2C_XFER_rlen (n : Nat) : FieldRef := ⟨R.MIO_I2C_XFER n, 0, 6⟩
def MIO_I2C_STATUS_busy (n : Nat) : FieldRef := ⟨R.MIO_I2C_STATUS n, 31, 1⟩
def MIO_I2C_STATUS_result (n : Nat) : FieldRef := ⟨R.MIO_I2C_STATUS n, 28, 3⟩
def MIO_I2C_STATUS_stuck (n : Nat) : FieldRef := ⟨R.MIO_I2C_STATUS n, 27, 1⟩
def MIO_I2C_STATUS_rec_cnt (n : Nat) : FieldRef := ⟨R.MIO_I2C_STATUS n, 0, 16⟩
def MIO_I2C_DATA_data (n k : Nat) : FieldRef := ⟨R.MIO_I2C_DATA n k, 0, 32⟩
def MIO_I2CT_CFG_en : FieldRef := ⟨R.MIO_I2CT_CFG, 31, 1⟩
def MIO_I2CT_CFG_pec_en : FieldRef := ⟨R.MIO_I2CT_CFG, 30, 1⟩
def MIO_I2CT_CFG_addr : FieldRef := ⟨R.MIO_I2CT_CFG, 0, 7⟩
def MIO_I2CT_PEC_CNT_count : FieldRef := ⟨R.MIO_I2CT_PEC_CNT, 0, 32⟩
def MIO_SPI_CMD_go : FieldRef := ⟨R.MIO_SPI_CMD, 31, 1⟩
def MIO_SPI_CMD_op : FieldRef := ⟨R.MIO_SPI_CMD, 28, 3⟩
def MIO_SPI_CMD_len_m1 : FieldRef := ⟨R.MIO_SPI_CMD, 0, 8⟩
def MIO_SPI_ADDR_addr : FieldRef := ⟨R.MIO_SPI_ADDR, 0, 32⟩
def MIO_SPI_STATUS_busy : FieldRef := ⟨R.MIO_SPI_STATUS, 31, 1⟩
def MIO_SPI_STATUS_result : FieldRef := ⟨R.MIO_SPI_STATUS, 28, 3⟩
def MIO_SPI_STATUS_size_log : FieldRef := ⟨R.MIO_SPI_STATUS, 0, 8⟩
def MIO_SPI_BUF_data (k : Nat) : FieldRef := ⟨R.MIO_SPI_BUF k, 0, 32⟩
def MIO_GPIO_in : FieldRef := ⟨R.MIO_GPIO, 24, 8⟩
def MIO_GPIO_own : FieldRef := ⟨R.MIO_GPIO, 16, 8⟩
def MIO_GPIO_dir : FieldRef := ⟨R.MIO_GPIO, 8, 8⟩
def MIO_GPIO_out : FieldRef := ⟨R.MIO_GPIO, 0, 8⟩
def MIO_GPIO_INT_ien : FieldRef := ⟨R.MIO_GPIO_INT, 8, 8⟩
def MIO_GPIO_INT_chg : FieldRef := ⟨R.MIO_GPIO_INT, 0, 8⟩
def MIO_INT_STATUS_vec : FieldRef := ⟨R.MIO_INT_STATUS, 0, 14⟩
def MIO_INT_EN_vec : FieldRef := ⟨R.MIO_INT_EN, 0, 14⟩
def MSIX_ADDR_LO_addr (v : Nat) : FieldRef := ⟨R.MSIX_ADDR_LO v, 2, 30⟩
def MSIX_ADDR_HI_addr (v : Nat) : FieldRef := ⟨R.MSIX_ADDR_HI v, 0, 32⟩
def MSIX_DATA_data (v : Nat) : FieldRef := ⟨R.MSIX_DATA v, 0, 32⟩
def MSIX_CTL_mask (v : Nat) : FieldRef := ⟨R.MSIX_CTL v, 0, 1⟩
def MSIX_PBA_pending (k : Nat) : FieldRef := ⟨R.MSIX_PBA k, 0, 32⟩
def PRT_CFG_en (p : Nat) : FieldRef := ⟨R.PRT_CFG p, 31, 1⟩
def PRT_CFG_role (p : Nat) : FieldRef := ⟨R.PRT_CFG p, 29, 2⟩
def PRT_CFG_width_log (p : Nat) : FieldRef := ⟨R.PRT_CFG p, 27, 2⟩
def PRT_LANE_STATUS_active (p : Nat) : FieldRef := ⟨R.PRT_LANE_STATUS p, 24, 8⟩
def PRT_LANE_STATUS_trained (p : Nat) : FieldRef := ⟨R.PRT_LANE_STATUS p, 16, 8⟩
def PRT_LANE_STATUS_unusable (p : Nat) : FieldRef := ⟨R.PRT_LANE_STATUS p, 8, 8⟩
def PRT_LANE_STATUS_skew (p : Nat) : FieldRef := ⟨R.PRT_LANE_STATUS p, 0, 8⟩
def PRT_WIDTH_CTL_go (p : Nat) : FieldRef := ⟨R.PRT_WIDTH_CTL p, 31, 1⟩
def PRT_WIDTH_CTL_kind (p : Nat) : FieldRef := ⟨R.PRT_WIDTH_CTL p, 30, 1⟩
def PRT_WIDTH_CTL_auto_readd (p : Nat) : FieldRef := ⟨R.PRT_WIDTH_CTL p, 29, 1⟩
def PRT_WIDTH_CTL_rem_en (p : Nat) : FieldRef := ⟨R.PRT_WIDTH_CTL p, 28, 1⟩
def PRT_WIDTH_CTL_min_w_log (p : Nat) : FieldRef := ⟨R.PRT_WIDTH_CTL p, 26, 2⟩
def PRT_WIDTH_CTL_readd_soak (p : Nat) : FieldRef := ⟨R.PRT_WIDTH_CTL p, 16, 10⟩
def PRT_WIDTH_CTL_mask (p : Nat) : FieldRef := ⟨R.PRT_WIDTH_CTL p, 0, 8⟩
def PRT_WIDTH_STATUS_busy (p : Nat) : FieldRef := ⟨R.PRT_WIDTH_STATUS p, 31, 1⟩
def PRT_WIDTH_STATUS_result (p : Nat) : FieldRef := ⟨R.PRT_WIDTH_STATUS p, 28, 3⟩
def PRT_WIDTH_STATUS_seq (p : Nat) : FieldRef := ⟨R.PRT_WIDTH_STATUS p, 16, 8⟩
def PRT_WIDTH_STATUS_mask (p : Nat) : FieldRef := ⟨R.PRT_WIDTH_STATUS p, 0, 8⟩
def PRT_EI_CFG_ei_en (p : Nat) : FieldRef := ⟨R.PRT_EI_CFG p, 31, 1⟩
def PRT_EI_CFG_tx_ei (p : Nat) : FieldRef := ⟨R.PRT_EI_CFG p, 17, 1⟩
def PRT_EI_CFG_rx_armed (p : Nat) : FieldRef := ⟨R.PRT_EI_CFG p, 16, 1⟩
def PRT_EI_CFG_ei_ent (p : Nat) : FieldRef := ⟨R.PRT_EI_CFG p, 0, 16⟩
def PRT_WIDTH_CHG_CNT_count (p : Nat) : FieldRef := ⟨R.PRT_WIDTH_CHG_CNT p, 0, 32⟩
def PRT_TIE_LOST_CNT_count (p : Nat) : FieldRef := ⟨R.PRT_TIE_LOST_CNT p, 0, 32⟩
def PRT_EI_ENTRY_CNT_count (p : Nat) : FieldRef := ⟨R.PRT_EI_ENTRY_CNT p, 0, 32⟩
def PRT_EI_EXIT_FAIL_CNT_count (p : Nat) : FieldRef := ⟨R.PRT_EI_EXIT_FAIL_CNT p, 0, 32⟩
def PRT_LANE_PROTO_CNT_count (p : Nat) : FieldRef := ⟨R.PRT_LANE_PROTO_CNT p, 0, 32⟩
def PRT_LL_CFG_rtmo (p : Nat) : FieldRef := ⟨R.PRT_LL_CFG p, 16, 8⟩
def PRT_LL_CFG_rlim (p : Nat) : FieldRef := ⟨R.PRT_LL_CFG p, 12, 4⟩
def PRT_LL_CFG_xp_max (p : Nat) : FieldRef := ⟨R.PRT_LL_CFG p, 8, 4⟩
def PRT_LL_CFG_lcu_int (p : Nat) : FieldRef := ⟨R.PRT_LL_CFG p, 4, 4⟩
def PRT_LL_CFG_preempt_en (p : Nat) : FieldRef := ⟨R.PRT_LL_CFG p, 0, 1⟩
def PRT_LL_STATUS_state (p : Nat) : FieldRef := ⟨R.PRT_LL_STATUS p, 16, 2⟩
def PRT_LL_STATUS_suspended (p : Nat) : FieldRef := ⟨R.PRT_LL_STATUS p, 12, 1⟩
def PRT_LL_STATUS_unacked (p : Nat) : FieldRef := ⟨R.PRT_LL_STATUS p, 0, 12⟩
def PRT_BAD_CW_CNT_count (p : Nat) : FieldRef := ⟨R.PRT_BAD_CW_CNT p, 0, 32⟩
def PRT_REPLAY_CNT_count (p : Nat) : FieldRef := ⟨R.PRT_REPLAY_CNT p, 0, 32⟩
def PRT_CRC_ERR_CNT_count (p : Nat) : FieldRef := ⟨R.PRT_CRC_ERR_CNT p, 0, 32⟩
def PRT_STOMP_CNT_count (p : Nat) : FieldRef := ⟨R.PRT_STOMP_CNT p, 0, 32⟩
def PRT_LL_PROTO_CNT_count (p : Nat) : FieldRef := ⟨R.PRT_LL_PROTO_CNT p, 0, 32⟩
def PRT_PREEMPT_CNT_count (p : Nat) : FieldRef := ⟨R.PRT_PREEMPT_CNT p, 0, 32⟩
def PRT_LCU_ERR_CNT_count (p : Nat) : FieldRef := ⟨R.PRT_LCU_ERR_CNT p, 0, 32⟩
def PRT_DISC_STATUS_state (p : Nat) : FieldRef := ⟨R.PRT_DISC_STATUS p, 28, 4⟩
def PRT_DISC_STATUS_dup (p : Nat) : FieldRef := ⟨R.PRT_DISC_STATUS p, 27, 1⟩
def PRT_DISC_STATUS_role (p : Nat) : FieldRef := ⟨R.PRT_DISC_STATUS p, 26, 1⟩
def PRT_DISC_STATUS_loop (p : Nat) : FieldRef := ⟨R.PRT_DISC_STATUS p, 25, 1⟩
def PRT_DISC_STATUS_excess (p : Nat) : FieldRef := ⟨R.PRT_DISC_STATUS p, 24, 1⟩
def PRT_DISC_STATUS_miswire (p : Nat) : FieldRef := ⟨R.PRT_DISC_STATUS p, 23, 1⟩
def PRT_DISC_STATUS_other_port (p : Nat) : FieldRef := ⟨R.PRT_DISC_STATUS p, 0, 9⟩
def PRT_PEER_SERIAL_LO_serial (p : Nat) : FieldRef := ⟨R.PRT_PEER_SERIAL_LO p, 0, 32⟩
def PRT_PEER_SERIAL_HI_serial (p : Nat) : FieldRef := ⟨R.PRT_PEER_SERIAL_HI p, 0, 32⟩
def PRT_DISC_ID_id (p : Nat) : FieldRef := ⟨R.PRT_DISC_ID p, 0, 15⟩
def PRT_TAG_CFG_ort_base (p : Nat) : FieldRef := ⟨R.PRT_TAG_CFG p, 12, 17⟩
def PRT_TAG_CFG_tags_m1 (p : Nat) : FieldRef := ⟨R.PRT_TAG_CFG p, 0, 12⟩
def PRT_IG_RES_res (p q : Nat) : FieldRef := ⟨R.PRT_IG_RES p q, 0, 15⟩
def PRT_EQ_MAX_qmax (p q : Nat) : FieldRef := ⟨R.PRT_EQ_MAX p q, 0, 18⟩
def PRT_DSC_DROP_CNT_count (p : Nat) : FieldRef := ⟨R.PRT_DSC_DROP_CNT p, 0, 32⟩
def PRT_FLUSH_CNT_count (p : Nat) : FieldRef := ⟨R.PRT_FLUSH_CNT p, 0, 32⟩
def PRT_NACK_CNT_count (p : Nat) : FieldRef := ⟨R.PRT_NACK_CNT p, 0, 32⟩
def PRT_MIR_DROP_CNT_count (p : Nat) : FieldRef := ⟨R.PRT_MIR_DROP_CNT p, 0, 32⟩
def PRT_ARB_PRIO_prio6 (p : Nat) : FieldRef := ⟨R.PRT_ARB_PRIO p, 12, 3⟩
def PRT_ARB_PRIO_prio5 (p : Nat) : FieldRef := ⟨R.PRT_ARB_PRIO p, 9, 3⟩
def PRT_ARB_PRIO_prio4 (p : Nat) : FieldRef := ⟨R.PRT_ARB_PRIO p, 6, 3⟩
def PRT_ARB_PRIO_prio3 (p : Nat) : FieldRef := ⟨R.PRT_ARB_PRIO p, 3, 3⟩
def PRT_ARB_PRIO_prio2 (p : Nat) : FieldRef := ⟨R.PRT_ARB_PRIO p, 0, 3⟩
def PRT_Q_CFG_starve_lim (p q : Nat) : FieldRef := ⟨R.PRT_Q_CFG p q, 16, 16⟩
def PRT_Q_CFG_shp_en (p q : Nat) : FieldRef := ⟨R.PRT_Q_CFG p q, 0, 1⟩
def PRT_Q_POL_pol2_en (p q : Nat) : FieldRef := ⟨R.PRT_Q_POL p q, 31, 1⟩
def PRT_Q_POL_pol2 (p q : Nat) : FieldRef := ⟨R.PRT_Q_POL p q, 16, 11⟩
def PRT_Q_POL_pol1_en (p q : Nat) : FieldRef := ⟨R.PRT_Q_POL p q, 15, 1⟩
def PRT_Q_POL_pol1 (p q : Nat) : FieldRef := ⟨R.PRT_Q_POL p q, 0, 11⟩
def PRT_SHP_RATE_rate (p q : Nat) : FieldRef := ⟨R.PRT_SHP_RATE p q, 0, 18⟩
def PRT_SHP_BURST_len_mode (p q : Nat) : FieldRef := ⟨R.PRT_SHP_BURST p q, 31, 1⟩
def PRT_SHP_BURST_ovh (p q : Nat) : FieldRef := ⟨R.PRT_SHP_BURST p q, 16, 9⟩
def PRT_SHP_BURST_burst (p q : Nat) : FieldRef := ⟨R.PRT_SHP_BURST p q, 0, 16⟩
def PRT_SHP_IDLE_idle_cap (p q : Nat) : FieldRef := ⟨R.PRT_SHP_IDLE p q, 0, 16⟩
def PRT_TRD_CFG_trd_en (p : Nat) : FieldRef := ⟨R.PRT_TRD_CFG p, 31, 1⟩
def PRT_TRD_CFG_unlock_act (p : Nat) : FieldRef := ⟨R.PRT_TRD_CFG p, 30, 1⟩
def PRT_TRD_CFG_period (p : Nat) : FieldRef := ⟨R.PRT_TRD_CFG p, 0, 15⟩
def PRT_TRD_SHEDS_count (p : Nat) : FieldRef := ⟨R.PRT_TRD_SHEDS p, 17, 14⟩
def PRT_TRD_SHEDS_base (p : Nat) : FieldRef := ⟨R.PRT_TRD_SHEDS p, 0, 17⟩
def PRT_SCH_LATE_CNT_count (p : Nat) : FieldRef := ⟨R.PRT_SCH_LATE_CNT p, 0, 32⟩
def PRT_PROMO_CNT_count (p q : Nat) : FieldRef := ⟨R.PRT_PROMO_CNT p q, 0, 32⟩
def PRT_Q_PEAK_count (p q : Nat) : FieldRef := ⟨R.PRT_Q_PEAK p q, 0, 32⟩
def LNE_CTL_retrain (n : Nat) : FieldRef := ⟨R.LNE_CTL n, 31, 1⟩
def LNE_STATUS_state (n : Nat) : FieldRef := ⟨R.LNE_STATUS n, 29, 3⟩
def LNE_STATUS_failed (n : Nat) : FieldRef := ⟨R.LNE_STATUS n, 28, 1⟩
def LNE_STATUS_cdr_lock (n : Nat) : FieldRef := ⟨R.LNE_STATUS n, 27, 1⟩
def LNE_STATUS_cw_lock (n : Nat) : FieldRef := ⟨R.LNE_STATUS n, 26, 1⟩
def LNE_STATUS_class (n : Nat) : FieldRef := ⟨R.LNE_STATUS n, 25, 1⟩
def LNE_STATUS_eq_clamp (n : Nat) : FieldRef := ⟨R.LNE_STATUS n, 24, 1⟩
def LNE_STATUS_far_ready (n : Nat) : FieldRef := ⟨R.LNE_STATUS n, 23, 1⟩
def LNE_STATUS_ppm (n : Nat) : FieldRef := ⟨R.LNE_STATUS n, 0, 16⟩
def LNE_EQ_ovr (n : Nat) : FieldRef := ⟨R.LNE_EQ n, 31, 1⟩
def LNE_EQ_precode (n : Nat) : FieldRef := ⟨R.LNE_EQ n, 30, 1⟩
def LNE_EQ_lock_ctle (n : Nat) : FieldRef := ⟨R.LNE_EQ n, 29, 1⟩
def LNE_EQ_ctle (n : Nat) : FieldRef := ⟨R.LNE_EQ n, 24, 5⟩
def LNE_EQ_pre2 (n : Nat) : FieldRef := ⟨R.LNE_EQ n, 16, 8⟩
def LNE_EQ_pre1 (n : Nat) : FieldRef := ⟨R.LNE_EQ n, 8, 8⟩
def LNE_EQ_post1 (n : Nat) : FieldRef := ⟨R.LNE_EQ n, 0, 8⟩
def LNE_REM_CFG_rem_cnt (n : Nat) : FieldRef := ⟨R.LNE_REM_CFG n, 28, 4⟩
def LNE_REM_CFG_rem_thresh (n : Nat) : FieldRef := ⟨R.LNE_REM_CFG n, 8, 20⟩
def LNE_REM_CFG_readd_thresh (n : Nat) : FieldRef := ⟨R.LNE_REM_CFG n, 0, 8⟩
def LNE_FEC_CORR_CNT_count (n : Nat) : FieldRef := ⟨R.LNE_FEC_CORR_CNT n, 0, 32⟩
def LNE_FEC_UNCORR_CNT_count (n : Nat) : FieldRef := ⟨R.LNE_FEC_UNCORR_CNT n, 0, 32⟩
def LNE_PRBS_ERR_CNT_count (n : Nat) : FieldRef := ⟨R.LNE_PRBS_ERR_CNT n, 0, 32⟩
def LNE_TRAIN_FAIL_CNT_count (n : Nat) : FieldRef := ⟨R.LNE_TRAIN_FAIL_CNT n, 0, 32⟩
def LNE_MARGIN_CTL_go (n : Nat) : FieldRef := ⟨R.LNE_MARGIN_CTL n, 31, 1⟩
def LNE_MARGIN_CTL_busy (n : Nat) : FieldRef := ⟨R.LNE_MARGIN_CTL n, 30, 1⟩
def LNE_MARGIN_CTL_eye (n : Nat) : FieldRef := ⟨R.LNE_MARGIN_CTL n, 28, 2⟩
def LNE_MARGIN_CTL_axis (n : Nat) : FieldRef := ⟨R.LNE_MARGIN_CTL n, 27, 1⟩
def LNE_MARGIN_CTL_dwell_exp (n : Nat) : FieldRef := ⟨R.LNE_MARGIN_CTL n, 16, 5⟩
def LNE_MARGIN_CTL_err_lim (n : Nat) : FieldRef := ⟨R.LNE_MARGIN_CTL n, 0, 16⟩
def LNE_MARGIN_RES_status (n : Nat) : FieldRef := ⟨R.LNE_MARGIN_RES n, 30, 2⟩
def LNE_MARGIN_RES_neg (n : Nat) : FieldRef := ⟨R.LNE_MARGIN_RES n, 8, 8⟩
def LNE_MARGIN_RES_pos (n : Nat) : FieldRef := ⟨R.LNE_MARGIN_RES n, 0, 8⟩
def SHT_CTL_park_en (p : Nat) : FieldRef := ⟨R.SHT_CTL p, 31, 1⟩
def SHT_CTL_off_en (p : Nat) : FieldRef := ⟨R.SHT_CTL p, 30, 1⟩
def SHT_CTL_unload (p : Nat) : FieldRef := ⟨R.SHT_CTL p, 29, 1⟩
def SHT_CTL_wake (p : Nat) : FieldRef := ⟨R.SHT_CTL p, 28, 1⟩
def SHT_CTL_off_idle (p : Nat) : FieldRef := ⟨R.SHT_CTL p, 16, 12⟩
def SHT_CTL_park_idle (p : Nat) : FieldRef := ⟨R.SHT_CTL p, 0, 8⟩
def SHT_STATUS_pstate (p : Nat) : FieldRef := ⟨R.SHT_STATUS p, 29, 3⟩
def SHT_STATUS_role (p : Nat) : FieldRef := ⟨R.SHT_STATUS p, 26, 3⟩
def SHT_STATUS_ctx_vld (p : Nat) : FieldRef := ⟨R.SHT_STATUS p, 25, 1⟩
def SHT_STATUS_ctx (p : Nat) : FieldRef := ⟨R.SHT_STATUS p, 13, 12⟩
def SHT_STATUS_logical (p : Nat) : FieldRef := ⟨R.SHT_STATUS p, 0, 9⟩
def SHT_RATE_rate (p : Nat) : FieldRef := ⟨R.SHT_RATE p, 0, 16⟩
def SHT_DQ_W_word (p k : Nat) : FieldRef := ⟨R.SHT_DQ_W p k, 0, 32⟩
def SHT_DQ_PUSH_push (p : Nat) : FieldRef := ⟨R.SHT_DQ_PUSH p, 0, 1⟩
def SHT_DQ_STATUS_last_status (p : Nat) : FieldRef := ⟨R.SHT_DQ_STATUS p, 29, 3⟩
def SHT_DQ_STATUS_done (p : Nat) : FieldRef := ⟨R.SHT_DQ_STATUS p, 8, 16⟩
def SHT_DQ_STATUS_free (p : Nat) : FieldRef := ⟨R.SHT_DQ_STATUS p, 0, 4⟩
def SHT_WAKE_PARK_CNT_count (p : Nat) : FieldRef := ⟨R.SHT_WAKE_PARK_CNT p, 0, 32⟩
def SHT_WAKE_OFF_CNT_count (p : Nat) : FieldRef := ⟨R.SHT_WAKE_OFF_CNT p, 0, 32⟩
def SHT_CTXSW_CNT_count (p : Nat) : FieldRef := ⟨R.SHT_CTXSW_CNT p, 0, 32⟩
def SHT_ISO_CNT_count (p : Nat) : FieldRef := ⟨R.SHT_ISO_CNT p, 0, 32⟩
def SHT_ECC_CORR_CNT_count (p : Nat) : FieldRef := ⟨R.SHT_ECC_CORR_CNT p, 0, 32⟩
def GRP_ENTRY_CTL_valid (g : Nat) : FieldRef := ⟨R.GRP_ENTRY_CTL g, 31, 1⟩
def GRP_ENTRY_CTL_mode (g : Nat) : FieldRef := ⟨R.GRP_ENTRY_CTL g, 30, 1⟩
def GRP_ENTRY_CTL_short (g : Nat) : FieldRef := ⟨R.GRP_ENTRY_CTL g, 29, 1⟩
def GRP_ENTRY_CTL_trees (g : Nat) : FieldRef := ⟨R.GRP_ENTRY_CTL g, 27, 2⟩
def GRP_ENTRY_CTL_res_q (g : Nat) : FieldRef := ⟨R.GRP_ENTRY_CTL g, 26, 1⟩
def GRP_ENTRY_CTL_part_q (g : Nat) : FieldRef := ⟨R.GRP_ENTRY_CTL g, 23, 3⟩
def GRP_ENTRY_CTL_commit (g : Nat) : FieldRef := ⟨R.GRP_ENTRY_CTL g, 16, 1⟩
def GRP_ENTRY_CTL_epoch (g : Nat) : FieldRef := ⟨R.GRP_ENTRY_CTL g, 0, 16⟩
def GRP_OP_operator (g : Nat) : FieldRef := ⟨R.GRP_OP g, 28, 4⟩
def GRP_OP_in_fmt (g : Nat) : FieldRef := ⟨R.GRP_OP g, 24, 4⟩
def GRP_OP_out_fmt (g : Nat) : FieldRef := ⟨R.GRP_OP g, 20, 4⟩
def GRP_OP_pick_exp (g : Nat) : FieldRef := ⟨R.GRP_OP g, 16, 4⟩
def GRP_OP_round (g : Nat) : FieldRef := ⟨R.GRP_OP g, 15, 1⟩
def GRP_OP_rq_en (g : Nat) : FieldRef := ⟨R.GRP_OP g, 14, 1⟩
def GRP_OP_norm_en (g : Nat) : FieldRef := ⟨R.GRP_OP g, 13, 1⟩
def GRP_OP_tmo_exp (g : Nat) : FieldRef := ⟨R.GRP_OP g, 0, 5⟩
def GRP_NELEM_LO_n_elem_m1 (g : Nat) : FieldRef := ⟨R.GRP_NELEM_LO g, 0, 32⟩
def GRP_NELEM_HI_n_elem_m1 (g : Nat) : FieldRef := ⟨R.GRP_NELEM_HI g, 0, 5⟩
def GRP_BUF_OFF_buf_off (g : Nat) : FieldRef := ⟨R.GRP_BUF_OFF g, 0, 25⟩
def GRP_MBR_mbr_cnt (g : Nat) : FieldRef := ⟨R.GRP_MBR g, 17, 6⟩
def GRP_MBR_mbr_base (g : Nat) : FieldRef := ⟨R.GRP_MBR g, 0, 17⟩
def GRP_ROW_MASK_mask (g : Nat) : FieldRef := ⟨R.GRP_ROW_MASK g, 0, 32⟩
def GRP_COL_MASK_mask (g : Nat) : FieldRef := ⟨R.GRP_COL_MASK g, 0, 32⟩
def GRP_LINE_ROW_mask (g : Nat) : FieldRef := ⟨R.GRP_LINE_ROW g, 0, 32⟩
def GRP_LINE_COL_mask (g : Nat) : FieldRef := ⟨R.GRP_LINE_COL g, 0, 32⟩
def GRP_PIV_A_mask (g : Nat) : FieldRef := ⟨R.GRP_PIV_A g, 0, 32⟩
def GRP_PIV_B_mask (g : Nat) : FieldRef := ⟨R.GRP_PIV_B g, 0, 32⟩
def GRP_ROT_rot_bc (g : Nat) : FieldRef := ⟨R.GRP_ROT g, 15, 5⟩
def GRP_ROT_rot_br (g : Nat) : FieldRef := ⟨R.GRP_ROT g, 10, 5⟩
def GRP_ROT_rot_ar (g : Nat) : FieldRef := ⟨R.GRP_ROT g, 5, 5⟩
def GRP_ROT_rot_ac (g : Nat) : FieldRef := ⟨R.GRP_ROT g, 0, 5⟩
def GRP_STRAG_strag_time (g : Nat) : FieldRef := ⟨R.GRP_STRAG g, 16, 16⟩
def GRP_STRAG_strag_picks (g : Nat) : FieldRef := ⟨R.GRP_STRAG g, 0, 16⟩
def GRP_SEED_seed (g : Nat) : FieldRef := ⟨R.GRP_SEED g, 0, 32⟩
def GRP_STATUS_settled (g : Nat) : FieldRef := ⟨R.GRP_STATUS g, 31, 1⟩
def GRP_STATUS_pending (g : Nat) : FieldRef := ⟨R.GRP_STATUS g, 30, 1⟩
def GRP_STATUS_cfg_err (g : Nat) : FieldRef := ⟨R.GRP_STATUS g, 29, 1⟩
def GRP_STATUS_open (g : Nat) : FieldRef := ⟨R.GRP_STATUS g, 16, 13⟩
def GRP_STATUS_act_epoch (g : Nat) : FieldRef := ⟨R.GRP_STATUS g, 0, 16⟩
def MBR_SLOT_LO_res_base (s : Nat) : FieldRef := ⟨R.MBR_SLOT_LO s, 12, 20⟩
def MBR_SLOT_HI_active (s : Nat) : FieldRef := ⟨R.MBR_SLOT_HI s, 31, 1⟩
def MBR_SLOT_HI_local (s : Nat) : FieldRef := ⟨R.MBR_SLOT_HI s, 16, 5⟩
def MBR_SLOT_HI_res_base (s : Nat) : FieldRef := ⟨R.MBR_SLOT_HI s, 0, 16⟩
def CTX_MEM_CTL_coh_en (c : Nat) : FieldRef := ⟨R.CTX_MEM_CTL c, 6, 1⟩
def CTX_MEM_CTL_win_en (c : Nat) : FieldRef := ⟨R.CTX_MEM_CTL c, 5, 1⟩
def CTX_MEM_CTL_tmo_exp (c : Nat) : FieldRef := ⟨R.CTX_MEM_CTL c, 0, 5⟩
def CTX_WIN_RANGE_limit (c : Nat) : FieldRef := ⟨R.CTX_WIN_RANGE c, 16, 11⟩
def CTX_WIN_RANGE_base (c : Nat) : FieldRef := ⟨R.CTX_WIN_RANGE c, 0, 10⟩
def CTX_TIMEOUT_CNT_count (c : Nat) : FieldRef := ⟨R.CTX_TIMEOUT_CNT c, 0, 32⟩
def CTX_LATE_CPL_count (c : Nat) : FieldRef := ⟨R.CTX_LATE_CPL c, 0, 32⟩
def CTX_GRP_grp_cnt (c : Nat) : FieldRef := ⟨R.CTX_GRP c, 16, 15⟩
def CTX_GRP_grp_base (c : Nat) : FieldRef := ⟨R.CTX_GRP c, 0, 14⟩
def CTX_REAM_ream_sh (c : Nat) : FieldRef := ⟨R.CTX_REAM c, 0, 9⟩
def CTX_REAM_FAIL_CNT_count (c : Nat) : FieldRef := ⟨R.CTX_REAM_FAIL_CNT c, 0, 32⟩
def CTX_PICK_TMO_CNT_count (c : Nat) : FieldRef := ⟨R.CTX_PICK_TMO_CNT c, 0, 32⟩
def CTX_EGR_rs_en (c : Nat) : FieldRef := ⟨R.CTX_EGR c, 31, 1⟩
def CTX_EGR_scale (c : Nat) : FieldRef := ⟨R.CTX_EGR c, 24, 7⟩
def CTX_EGR_mtx (c : Nat) : FieldRef := ⟨R.CTX_EGR c, 8, 6⟩
def CTX_EGR_smg_dexp (c : Nat) : FieldRef := ⟨R.CTX_EGR c, 0, 4⟩
def CTX_CMD_TMO_cmd_exp (c : Nat) : FieldRef := ⟨R.CTX_CMD_TMO c, 0, 5⟩
def CTX_CMD_TMO_CNT_count (c : Nat) : FieldRef := ⟨R.CTX_CMD_TMO_CNT c, 0, 32⟩
def CTX_RST_DROP_CNT_count (c : Nat) : FieldRef := ⟨R.CTX_RST_DROP_CNT c, 0, 32⟩
def CTX_PORT_EN_port_en (c k : Nat) : FieldRef := ⟨R.CTX_PORT_EN c k, 0, 32⟩
def RTE_CFG_ord_settle : FieldRef := ⟨R.RTE_CFG, 24, 8⟩
def RTE_CFG_nm_thresh : FieldRef := ⟨R.RTE_CFG, 16, 8⟩
def RTE_CFG_nm_bias : FieldRef := ⟨R.RTE_CFG, 10, 6⟩
def RTE_CFG_nm_en : FieldRef := ⟨R.RTE_CFG, 0, 1⟩
def RTE_COORD_coord_mode : FieldRef := ⟨R.RTE_COORD, 31, 1⟩
def RTE_COORD_pin_row : FieldRef := ⟨R.RTE_COORD, 20, 5⟩
def RTE_COORD_pin_col : FieldRef := ⟨R.RTE_COORD, 15, 5⟩
def RTE_COORD_pin_rows_m1 : FieldRef := ⟨R.RTE_COORD, 10, 5⟩
def RTE_COORD_pin_cols_m1 : FieldRef := ⟨R.RTE_COORD, 5, 5⟩
def RTE_DISC_CTL_t_assign : FieldRef := ⟨R.RTE_DISC_CTL, 8, 8⟩
def RTE_DISC_CTL_quiet_exp : FieldRef := ⟨R.RTE_DISC_CTL, 4, 4⟩
def RTE_DISC_CTL_restart : FieldRef := ⟨R.RTE_DISC_CTL, 1, 1⟩
def RTE_DISC_CTL_start : FieldRef := ⟨R.RTE_DISC_CTL, 0, 1⟩
def RTE_DISC_STATUS_state : FieldRef := ⟨R.RTE_DISC_STATUS, 29, 3⟩
def RTE_DISC_STATUS_is_root : FieldRef := ⟨R.RTE_DISC_STATUS, 28, 1⟩
def RTE_DISC_STATUS_placed : FieldRef := ⟨R.RTE_DISC_STATUS, 27, 1⟩
def RTE_DISC_STATUS_row : FieldRef := ⟨R.RTE_DISC_STATUS, 22, 5⟩
def RTE_DISC_STATUS_col : FieldRef := ⟨R.RTE_DISC_STATUS, 17, 5⟩
def RTE_DISC_STATUS_rows_m1 : FieldRef := ⟨R.RTE_DISC_STATUS, 12, 5⟩
def RTE_DISC_STATUS_cols_m1 : FieldRef := ⟨R.RTE_DISC_STATUS, 7, 5⟩
def RTE_DISC_STATUS_nbr_cnt : FieldRef := ⟨R.RTE_DISC_STATUS, 0, 7⟩
def RTE_ROOT_SERIAL_LO_serial : FieldRef := ⟨R.RTE_ROOT_SERIAL_LO, 0, 32⟩
def RTE_ROOT_SERIAL_HI_serial : FieldRef := ⟨R.RTE_ROOT_SERIAL_HI, 0, 32⟩
def RTE_UPD_STATUS_dest_settled : FieldRef := ⟨R.RTE_UPD_STATUS, 3, 1⟩
def RTE_UPD_STATUS_col_settled : FieldRef := ⟨R.RTE_UPD_STATUS, 2, 1⟩
def RTE_UPD_STATUS_row_settled : FieldRef := ⟨R.RTE_UPD_STATUS, 1, 1⟩
def RTE_UPD_STATUS_local_settled : FieldRef := ⟨R.RTE_UPD_STATUS, 0, 1⟩
def RTE_UNREACH_CNT_count : FieldRef := ⟨R.RTE_UNREACH_CNT, 0, 32⟩
def RTE_NM_CNT_count : FieldRef := ⟨R.RTE_NM_CNT, 0, 32⟩
def RTE_MC_DROP_CNT_count : FieldRef := ⟨R.RTE_MC_DROP_CNT, 0, 32⟩
def RTE_QUAR_DROP_CNT_count : FieldRef := ⟨R.RTE_QUAR_DROP_CNT, 0, 32⟩
def RTE_ORD_HOLD_CNT_count : FieldRef := ⟨R.RTE_ORD_HOLD_CNT, 0, 32⟩
def RTE_HASH_SALT_salt : FieldRef := ⟨R.RTE_HASH_SALT, 0, 16⟩
def RTE_LOCAL_epoch (k : Nat) : FieldRef := ⟨R.RTE_LOCAL k, 24, 8⟩
def RTE_LOCAL_valid (k : Nat) : FieldRef := ⟨R.RTE_LOCAL k, 9, 1⟩
def RTE_LOCAL_port (k : Nat) : FieldRef := ⟨R.RTE_LOCAL k, 0, 9⟩
def RTE_ROW_LO_port2 (c : Nat) : FieldRef := ⟨R.RTE_ROW_LO c, 18, 9⟩
def RTE_ROW_LO_port1 (c : Nat) : FieldRef := ⟨R.RTE_ROW_LO c, 9, 9⟩
def RTE_ROW_LO_port0 (c : Nat) : FieldRef := ⟨R.RTE_ROW_LO c, 0, 9⟩
def RTE_ROW_HI_epoch (c : Nat) : FieldRef := ⟨R.RTE_ROW_HI c, 24, 8⟩
def RTE_ROW_HI_sw_lock (c : Nat) : FieldRef := ⟨R.RTE_ROW_HI c, 17, 1⟩
def RTE_ROW_HI_valid (c : Nat) : FieldRef := ⟨R.RTE_ROW_HI c, 16, 1⟩
def RTE_ROW_HI_port3 (c : Nat) : FieldRef := ⟨R.RTE_ROW_HI c, 0, 9⟩
def RTE_COL_LO_port2 (c : Nat) : FieldRef := ⟨R.RTE_COL_LO c, 18, 9⟩
def RTE_COL_LO_port1 (c : Nat) : FieldRef := ⟨R.RTE_COL_LO c, 9, 9⟩
def RTE_COL_LO_port0 (c : Nat) : FieldRef := ⟨R.RTE_COL_LO c, 0, 9⟩
def RTE_COL_HI_epoch (c : Nat) : FieldRef := ⟨R.RTE_COL_HI c, 24, 8⟩
def RTE_COL_HI_sw_lock (c : Nat) : FieldRef := ⟨R.RTE_COL_HI c, 17, 1⟩
def RTE_COL_HI_valid (c : Nat) : FieldRef := ⟨R.RTE_COL_HI c, 16, 1⟩
def RTE_COL_HI_port3 (c : Nat) : FieldRef := ⟨R.RTE_COL_HI c, 0, 9⟩
def RTE_DEST_epoch (i : Nat) : FieldRef := ⟨R.RTE_DEST i, 24, 8⟩
def RTE_DEST_nm_en (i : Nat) : FieldRef := ⟨R.RTE_DEST i, 3, 1⟩
def RTE_DEST_cf_en (i : Nat) : FieldRef := ⟨R.RTE_DEST i, 2, 1⟩
def RTE_DEST_rf_en (i : Nat) : FieldRef := ⟨R.RTE_DEST i, 1, 1⟩
def RTE_DEST_present (i : Nat) : FieldRef := ⟨R.RTE_DEST i, 0, 1⟩
def CBF_STATUS_cells (d : Nat) : FieldRef := ⟨R.CBF_STATUS d, 0, 18⟩
def CBF_RETIRED_cells (d : Nat) : FieldRef := ⟨R.CBF_RETIRED d, 0, 18⟩
def CBF_SHARED_cells (d : Nat) : FieldRef := ⟨R.CBF_SHARED d, 0, 18⟩
def CBF_SHARED_FREE_cells (d : Nat) : FieldRef := ⟨R.CBF_SHARED_FREE d, 0, 18⟩
def CBF_EG_RES_res (d j : Nat) : FieldRef := ⟨R.CBF_EG_RES d j, 0, 18⟩
def CBF_THRESH_mir_thresh (d : Nat) : FieldRef := ⟨R.CBF_THRESH d, 20, 10⟩
def CBF_THRESH_dsc_thresh (d : Nat) : FieldRef := ⟨R.CBF_THRESH d, 10, 10⟩
def CBF_THRESH_blk_guard (d : Nat) : FieldRef := ⟨R.CBF_THRESH d, 0, 10⟩
def CBF_HOL_hol_exp (d : Nat) : FieldRef := ⟨R.CBF_HOL d, 0, 5⟩
def CBF_XB_CFG_max_exp (d : Nat) : FieldRef := ⟨R.CBF_XB_CFG d, 8, 4⟩
def CBF_XB_CFG_max_acc (d : Nat) : FieldRef := ⟨R.CBF_XB_CFG d, 4, 4⟩
def CBF_XB_CFG_max_xfer (d : Nat) : FieldRef := ⟨R.CBF_XB_CFG d, 0, 4⟩
def CBF_ALLOC_FAIL_CNT_count (d : Nat) : FieldRef := ⟨R.CBF_ALLOC_FAIL_CNT d, 0, 32⟩
def CBF_ECC_CORR_CNT_count (d : Nat) : FieldRef := ⟨R.CBF_ECC_CORR_CNT d, 0, 32⟩
def CBF_ECC_UNCORR_CNT_count (d : Nat) : FieldRef := ⟨R.CBF_ECC_UNCORR_CNT d, 0, 32⟩
def CBF_MIR_SRC_en (s : Nat) : FieldRef := ⟨R.CBF_MIR_SRC s, 31, 1⟩
def CBF_MIR_SRC_kind (s : Nat) : FieldRef := ⟨R.CBF_MIR_SRC s, 29, 2⟩
def CBF_MIR_SRC_sample_exp (s : Nat) : FieldRef := ⟨R.CBF_MIR_SRC s, 25, 4⟩
def CBF_MIR_SRC_port (s : Nat) : FieldRef := ⟨R.CBF_MIR_SRC s, 0, 9⟩
def CBF_MIR_FLOW_ctx_en (s : Nat) : FieldRef := ⟨R.CBF_MIR_FLOW s, 31, 1⟩
def CBF_MIR_FLOW_ctx (s : Nat) : FieldRef := ⟨R.CBF_MIR_FLOW s, 16, 12⟩
def CBF_MIR_FLOW_op_en (s : Nat) : FieldRef := ⟨R.CBF_MIR_FLOW s, 15, 1⟩
def CBF_MIR_FLOW_op (s : Nat) : FieldRef := ⟨R.CBF_MIR_FLOW s, 8, 5⟩
def CBF_MIR_EP_src_en (s : Nat) : FieldRef := ⟨R.CBF_MIR_EP s, 31, 1⟩
def CBF_MIR_EP_src (s : Nat) : FieldRef := ⟨R.CBF_MIR_EP s, 16, 15⟩
def CBF_MIR_EP_dst_en (s : Nat) : FieldRef := ⟨R.CBF_MIR_EP s, 15, 1⟩
def CBF_MIR_EP_dst (s : Nat) : FieldRef := ⟨R.CBF_MIR_EP s, 0, 15⟩
def CBF_MIR_DST_port (s : Nat) : FieldRef := ⟨R.CBF_MIR_DST s, 0, 9⟩
def SHP_CTX_RATE_en (c : Nat) : FieldRef := ⟨R.SHP_CTX_RATE c, 31, 1⟩
def SHP_CTX_RATE_rate (c : Nat) : FieldRef := ⟨R.SHP_CTX_RATE c, 0, 18⟩
def SHP_CTX_BURST_len_mode (c : Nat) : FieldRef := ⟨R.SHP_CTX_BURST c, 31, 1⟩
def SHP_CTX_BURST_ovh (c : Nat) : FieldRef := ⟨R.SHP_CTX_BURST c, 16, 9⟩
def SHP_CTX_BURST_burst (c : Nat) : FieldRef := ⟨R.SHP_CTX_BURST c, 0, 16⟩
def SHP_CTX_WAIT_CNT_count (c : Nat) : FieldRef := ⟨R.SHP_CTX_WAIT_CNT c, 0, 32⟩
def SCH_TIME_CFG_time_en : FieldRef := ⟨R.SCH_TIME_CFG, 4, 1⟩
def SCH_TIME_CFG_sync_exp : FieldRef := ⟨R.SCH_TIME_CFG, 0, 4⟩
def SCH_TIME_STATUS_locked : FieldRef := ⟨R.SCH_TIME_STATUS, 31, 1⟩
def SCH_TIME_STATUS_master : FieldRef := ⟨R.SCH_TIME_STATUS, 30, 1⟩
def SCH_TIME_STATUS_parent : FieldRef := ⟨R.SCH_TIME_STATUS, 28, 2⟩
def SCH_TIME_STATUS_port : FieldRef := ⟨R.SCH_TIME_STATUS, 18, 9⟩
def SCH_TIME_STATUS_err : FieldRef := ⟨R.SCH_TIME_STATUS, 0, 16⟩
def SCH_FTIME_LO_time : FieldRef := ⟨R.SCH_FTIME_LO, 0, 32⟩
def SCH_FTIME_HI_time : FieldRef := ⟨R.SCH_FTIME_HI, 0, 32⟩
def SCH_TIME_UNLOCK_CNT_count : FieldRef := ⟨R.SCH_TIME_UNLOCK_CNT, 0, 32⟩
def SCH_TIME_ERR_CNT_count : FieldRef := ⟨R.SCH_TIME_ERR_CNT, 0, 32⟩
def SCH_SAMP_CFG_samp_en : FieldRef := ⟨R.SCH_SAMP_CFG, 31, 1⟩
def SCH_SAMP_CFG_interval : FieldRef := ⟨R.SCH_SAMP_CFG, 0, 10⟩
def SHP_POL_CFG_en (i : Nat) : FieldRef := ⟨R.SHP_POL_CFG i, 31, 1⟩
def SHP_POL_CFG_mode (i : Nat) : FieldRef := ⟨R.SHP_POL_CFG i, 30, 1⟩
def SHP_POL_CFG_aware (i : Nat) : FieldRef := ⟨R.SHP_POL_CFG i, 29, 1⟩
def SHP_POL_CFG_len_mode (i : Nat) : FieldRef := ⟨R.SHP_POL_CFG i, 28, 1⟩
def SHP_POL_CFG_ovh (i : Nat) : FieldRef := ⟨R.SHP_POL_CFG i, 16, 9⟩
def SHP_POL_CIR_rate (i : Nat) : FieldRef := ⟨R.SHP_POL_CIR i, 0, 18⟩
def SHP_POL_PIR_rate (i : Nat) : FieldRef := ⟨R.SHP_POL_PIR i, 0, 18⟩
def SHP_POL_CBS_size (i : Nat) : FieldRef := ⟨R.SHP_POL_CBS i, 0, 16⟩
def SHP_POL_PBS_size (i : Nat) : FieldRef := ⟨R.SHP_POL_PBS i, 0, 16⟩
def SHP_POL_GREEN_CNT_count (i : Nat) : FieldRef := ⟨R.SHP_POL_GREEN_CNT i, 0, 32⟩
def SHP_POL_YELLOW_CNT_count (i : Nat) : FieldRef := ⟨R.SHP_POL_YELLOW_CNT i, 0, 32⟩
def SHP_POL_RED_CNT_count (i : Nat) : FieldRef := ⟨R.SHP_POL_RED_CNT i, 0, 32⟩
def SCH_SHED_LO_shed (d i : Nat) : FieldRef := ⟨R.SCH_SHED_LO d i, 0, 32⟩
def SCH_SHED_HI_shed (d i : Nat) : FieldRef := ⟨R.SCH_SHED_HI d i, 0, 32⟩
def SCH_HIST_DEPTH_count (qi b : Nat) : FieldRef := ⟨R.SCH_HIST_DEPTH qi b, 0, 32⟩
def SCH_HIST_DELAY_count (qi b : Nat) : FieldRef := ⟨R.SCH_HIST_DELAY qi b, 0, 32⟩
def SEL_CTL_flush : FieldRef := ⟨R.SEL_CTL, 31, 1⟩
def SEL_STATUS_busy : FieldRef := ⟨R.SEL_STATUS, 31, 1⟩
def SEL_STATUS_fresh : FieldRef := ⟨R.SEL_STATUS, 30, 1⟩
def SEL_STATUS_flash_err : FieldRef := ⟨R.SEL_STATUS, 29, 1⟩
def SEL_STATUS_seq : FieldRef := ⟨R.SEL_STATUS, 0, 16⟩
def WMK_SUM_LO_sum (g : Nat) : FieldRef := ⟨R.WMK_SUM_LO g, 0, 32⟩
def WMK_SUM_HI_sum (g : Nat) : FieldRef := ⟨R.WMK_SUM_HI g, 0, 32⟩
def WMK_CNT_count (g : Nat) : FieldRef := ⟨R.WMK_CNT g, 0, 32⟩
def WMK_CTL_snap (g : Nat) : FieldRef := ⟨R.WMK_CTL g, 0, 1⟩
def WMK_SNAP_LO_sum (g : Nat) : FieldRef := ⟨R.WMK_SNAP_LO g, 0, 32⟩
def WMK_SNAP_HI_sum (g : Nat) : FieldRef := ⟨R.WMK_SNAP_HI g, 0, 32⟩
def WMK_SNAP_CNT_count (g : Nat) : FieldRef := ⟨R.WMK_SNAP_CNT g, 0, 32⟩
def WMK_SNAP_SEQ_seq (g : Nat) : FieldRef := ⟨R.WMK_SNAP_SEQ g, 0, 16⟩
def WMK_TRC_CFG_en : FieldRef := ⟨R.WMK_TRC_CFG, 31, 1⟩
def WMK_TRC_CFG_ctx : FieldRef := ⟨R.WMK_TRC_CFG, 14, 12⟩
def WMK_TRC_CFG_group : FieldRef := ⟨R.WMK_TRC_CFG, 0, 14⟩
def WMK_TRC_STATUS_full : FieldRef := ⟨R.WMK_TRC_STATUS, 31, 1⟩
def WMK_TRC_STATUS_count : FieldRef := ⟨R.WMK_TRC_STATUS, 0, 13⟩
def WMK_TRC_REC0_valid (i : Nat) : FieldRef := ⟨R.WMK_TRC_REC0 i, 31, 1⟩
def WMK_TRC_REC0_tree (i : Nat) : FieldRef := ⟨R.WMK_TRC_REC0 i, 30, 1⟩
def WMK_TRC_REC0_pick (i : Nat) : FieldRef := ⟨R.WMK_TRC_REC0 i, 0, 23⟩
def WMK_TRC_REC1_check (i : Nat) : FieldRef := ⟨R.WMK_TRC_REC1 i, 0, 32⟩
def WMK_TRC_REC2_epoch (i : Nat) : FieldRef := ⟨R.WMK_TRC_REC2 i, 0, 16⟩
def WMK_TRC_REC3_ftime (i : Nat) : FieldRef := ⟨R.WMK_TRC_REC3 i, 0, 32⟩
def BCW_PRT_SEL_kind : FieldRef := ⟨R.BCW_PRT_SEL, 30, 2⟩
def BCW_PRT_SEL_value : FieldRef := ⟨R.BCW_PRT_SEL, 0, 5⟩
def BCW_PRT_STATUS_mismatch : FieldRef := ⟨R.BCW_PRT_STATUS, 31, 1⟩
def BCW_PRT_STATUS_empty : FieldRef := ⟨R.BCW_PRT_STATUS, 30, 1⟩
def BCW_PRT_STATUS_diff : FieldRef := ⟨R.BCW_PRT_STATUS, 16, 10⟩
def BCW_PRT_STATUS_count : FieldRef := ⟨R.BCW_PRT_STATUS, 0, 10⟩
def BCW_LNE_SEL_kind : FieldRef := ⟨R.BCW_LNE_SEL, 30, 2⟩
def BCW_LNE_SEL_value : FieldRef := ⟨R.BCW_LNE_SEL, 0, 5⟩
def BCW_LNE_STATUS_mismatch : FieldRef := ⟨R.BCW_LNE_STATUS, 31, 1⟩
def BCW_LNE_STATUS_empty : FieldRef := ⟨R.BCW_LNE_STATUS, 30, 1⟩
def BCW_LNE_STATUS_diff : FieldRef := ⟨R.BCW_LNE_STATUS, 16, 10⟩
def BCW_LNE_STATUS_count : FieldRef := ⟨R.BCW_LNE_STATUS, 0, 10⟩
def BCW_PRT_GRP_member (g k : Nat) : FieldRef := ⟨R.BCW_PRT_GRP g k, 0, 32⟩
def BCW_LNE_GRP_member (g k : Nat) : FieldRef := ⟨R.BCW_LNE_GRP g k, 0, 32⟩
def BCW_SHT_SEL_kind : FieldRef := ⟨R.BCW_SHT_SEL, 30, 2⟩
def BCW_SHT_SEL_value : FieldRef := ⟨R.BCW_SHT_SEL, 0, 5⟩
def BCW_SHT_STATUS_mismatch : FieldRef := ⟨R.BCW_SHT_STATUS, 31, 1⟩
def BCW_SHT_STATUS_empty : FieldRef := ⟨R.BCW_SHT_STATUS, 30, 1⟩
def BCW_SHT_STATUS_diff : FieldRef := ⟨R.BCW_SHT_STATUS, 16, 10⟩
def BCW_SHT_STATUS_count : FieldRef := ⟨R.BCW_SHT_STATUS, 0, 10⟩
def BCW_SHT_GRP_member (g k : Nat) : FieldRef := ⟨R.BCW_SHT_GRP g k, 0, 32⟩

end F

namespace Fields

/-- The field lists of the registers of one GLB block, by offset in the block. -/
def glbBlock (o : Nat) : List FieldSpec :=
  if o = 0x0 then [⟨16, 16, .ro, 0x5120, .p⟩, ⟨0, 16, .ro, 0x1F3C, .p⟩] else
  if o = 0x4 then [⟨8, 8, .ro, 0xB1, .p⟩, ⟨0, 8, .ro, 0xB1, .p⟩] else
  if o = 0x8 then [⟨0, 32, .ro, 0x0, .p⟩] else
  if o = 0xC then [⟨0, 32, .ro, 0x0, .p⟩] else
  if o = 0x10 then [⟨28, 4, .ro, 0x4, .p⟩, ⟨24, 4, .ro, 0x8, .p⟩, ⟨16, 8, .ro, 0x88, .p⟩, ⟨0, 10, .ro, 0x200, .p⟩] else
  if o = 0x18 then [⟨0, 32, .ro, 0x0, .w⟩] else
  if o = 0x1C then [⟨0, 32, .ro, 0x0, .w⟩] else
  if 0x20 ≤ o ∧ o < 0x30 then [⟨0, 32, .rw, 0x0, .w⟩] else
  if o = 0x30 then [⟨0, 32, .ro, 0x0, .p⟩] else
  if o = 0x200 then [⟨16, 7, .dl, 0x0, .w⟩, ⟨0, 6, .dl, 0x0, .w⟩] else
  if o = 0x204 then [⟨0, 32, .rc, 0x0, .w⟩] else
  if o = 0x208 then [⟨0, 32, .rc, 0x0, .w⟩] else
  if o = 0x20C then [⟨0, 32, .rc, 0x0, .w⟩] else
  if o = 0x210 then [⟨0, 32, .rc, 0x0, .w⟩] else
  if o = 0x300 then [⟨14, 12, .rw, 0x0, .w⟩, ⟨0, 14, .rw, 0x0, .w⟩] else
  if o = 0x304 then [⟨31, 1, .wo, 0x0, .w⟩, ⟨30, 1, .rw, 0x0, .w⟩, ⟨0, 23, .rw, 0x0, .w⟩] else
  if o = 0x308 then [⟨31, 1, .ro, 0x0, .w⟩, ⟨29, 2, .ro, 0x0, .w⟩, ⟨0, 15, .ro, 0x0, .w⟩] else
  if o = 0x30C then [⟨0, 12, .rw, 0x0, .w⟩] else
  if o = 0x310 then [⟨0, 1, .ro, 0x1, .w⟩] else
  if o = 0x314 then [⟨0, 32, .rc, 0x0, .w⟩] else
  if o = 0x318 then [⟨0, 32, .rc, 0x0, .w⟩] else
  if o = 0x31C then [⟨0, 32, .rc, 0x0, .w⟩] else
  if o = 0x320 then [⟨0, 32, .rc, 0x0, .w⟩] else
  if o = 0x324 then [⟨31, 1, .w1c, 0x0, .w⟩, ⟨14, 12, .ro, 0x0, .w⟩, ⟨0, 14, .ro, 0x0, .w⟩] else
  if o = 0x328 then [⟨17, 15, .ro, 0x0, .w⟩, ⟨0, 17, .ro, 0x0, .w⟩] else
  if o = 0x340 then [⟨0, 32, .rc, 0x0, .w⟩] else
  if o = 0x344 then [⟨0, 32, .rc, 0x0, .w⟩] else
  if o = 0x348 then [⟨0, 32, .rc, 0x0, .w⟩] else
  if o = 0x34C then [⟨0, 32, .rc, 0x0, .w⟩] else
  if o = 0x380 then [⟨0, 1, .rw, 0x0, .w⟩] else
  if o = 0x384 then [⟨0, 32, .rc, 0x0, .w⟩] else
  if o = 0x400 then [⟨31, 1, .wo, 0x0, .w⟩, ⟨30, 1, .rw, 0x0, .w⟩, ⟨9, 8, .rw, 0x0, .w⟩, ⟨0, 9, .rw, 0x0, .w⟩] else
  if o = 0x404 then [⟨31, 1, .ro, 0x0, .w⟩, ⟨28, 3, .ro, 0x0, .w⟩, ⟨0, 6, .ro, 0x0, .w⟩] else
  if o = 0x408 then [⟨0, 16, .rw, 0x3E8, .w⟩] else
  if 0x4000 ≤ o ∧ o < 0x4800 then [⟨31, 1, .ro, 0x0, .d⟩, ⟨20, 4, .ro, 0x0, .d⟩, ⟨16, 4, .rw, 0xF, .d⟩, ⟨15, 1, .rw, 0x1, .d⟩, ⟨0, 8, .ro, 0x0, .d⟩] else
  if 0x40000 ≤ o ∧ o < 0x80000 then [⟨0, 32, .rw, 0x0, .w⟩] else
  []

/-- The field lists of the registers of one AON block, by offset in the block. -/
def aonBlock (o : Nat) : List FieldSpec :=
  if o = 0x0 then [⟨31, 1, .ro, 0x0, .p⟩, ⟨30, 1, .w1c, 0x0, .a⟩, ⟨0, 2, .ro, 0x0, .p⟩] else
  if o = 0x4 then [⟨8, 8, .wo, 0x0, .a⟩, ⟨0, 2, .rw, 0x0, .a⟩] else
  if 0x10 ≤ o ∧ o < 0x40 then [⟨0, 32, .rw, 0x0, .p⟩] else
  []

/-- The field lists of the registers of one DFT block, by offset in the block. -/
def dftBlock (o : Nat) : List FieldSpec :=
  if o = 0x0 then [⟨31, 1, .ro, 0x0, .w⟩, ⟨30, 1, .ro, 0x0, .w⟩, ⟨29, 1, .ro, 0x0, .w⟩, ⟨28, 1, .ro, 0x0, .w⟩, ⟨24, 4, .ro, 0x0, .w⟩, ⟨16, 8, .ro, 0x0, .w⟩, ⟨0, 16, .ro, 0x0, .w⟩] else
  if o = 0x4 then [⟨0, 32, .ro, 0x0, .w⟩] else
  if o = 0x8 then [⟨31, 1, .wo, 0x0, .w⟩, ⟨0, 1, .rw, 0x0, .w⟩] else
  if o = 0xC then [⟨31, 1, .rw, 0x0, .a⟩, ⟨0, 1, .rw, 0x0, .a⟩] else
  if o = 0x10 then [⟨31, 1, .wo, 0x0, .w⟩, ⟨0, 10, .rw, 0x0, .w⟩] else
  if o = 0x14 then [⟨31, 1, .wo, 0x0, .w⟩, ⟨0, 10, .rw, 0x0, .w⟩] else
  []

/-- The field lists of the registers of one FLT block, by offset in the block. -/
def fltBlock (o : Nat) : List FieldSpec :=
  if o = 0x0 then [⟨31, 1, .ro, 0x0, .p⟩, ⟨30, 1, .ro, 0x0, .a⟩, ⟨26, 4, .ro, 0x0, .w⟩, ⟨25, 1, .ro, 0x0, .w⟩] else
  if o = 0x4 then [⟨31, 1, .wo, 0x0, .a⟩, ⟨30, 1, .rw, 0x0, .a⟩] else
  if o = 0x8 then [⟨31, 1, .rw, 0x1, .w⟩] else
  if o = 0x10 then [⟨8, 24, .w1c, 0x0, .a⟩, ⟨0, 7, .ro, 0x0, .p⟩] else
  if o = 0x14 then [⟨0, 16, .w1c, 0x0, .a⟩] else
  if o = 0x18 then [⟨8, 24, .ro, 0x0, .w⟩, ⟨0, 7, .ro, 0x0, .p⟩] else
  if o = 0x1C then [⟨0, 16, .ro, 0x0, .w⟩] else
  if o = 0x20 then [⟨8, 24, .rw, 0x0, .a⟩, ⟨0, 7, .ro, 0x7F, .a⟩] else
  if o = 0x24 then [⟨0, 10, .rw, 0x0, .a⟩] else
  if o = 0x28 then [⟨8, 24, .rw, 0x0, .a⟩, ⟨0, 7, .rw, 0x0, .a⟩] else
  if o = 0x2C then [⟨0, 16, .rw, 0x0, .a⟩] else
  if o = 0x30 then [⟨31, 1, .w1c, 0x0, .a⟩, ⟨29, 2, .ro, 0x0, .a⟩, ⟨28, 1, .ro, 0x0, .a⟩, ⟨27, 1, .ro, 0x0, .a⟩, ⟨12, 6, .ro, 0x0, .a⟩, ⟨0, 12, .ro, 0x0, .a⟩] else
  if o = 0x34 then [⟨0, 32, .ro, 0x0, .a⟩] else
  if o = 0x38 then [⟨0, 32, .ro, 0x0, .a⟩] else
  if o = 0x3C then [⟨0, 32, .ro, 0x0, .a⟩] else
  if o = 0x40 then [⟨0, 32, .ro, 0x0, .a⟩] else
  if o = 0x80 then [⟨31, 1, .wo, 0x0, .w⟩, ⟨30, 1, .rw, 0x1, .w⟩, ⟨0, 12, .rw, 0x0, .w⟩] else
  if o = 0x84 then [⟨31, 1, .ro, 0x0, .w⟩, ⟨28, 3, .ro, 0x0, .w⟩, ⟨27, 1, .ro, 0x0, .w⟩, ⟨26, 1, .ro, 0x0, .w⟩, ⟨25, 1, .ro, 0x0, .w⟩, ⟨0, 16, .ro, 0x0, .w⟩] else
  if o = 0x88 then [⟨31, 1, .wo, 0x0, .w⟩, ⟨30, 1, .ro, 0x0, .w⟩, ⟨0, 16, .ro, 0x0, .w⟩] else
  if o = 0x90 then [⟨31, 1, .wo, 0x0, .w⟩, ⟨0, 2, .rw, 0x0, .w⟩] else
  if o = 0x94 then [⟨0, 8, .wo, 0x0, .w⟩] else
  if 0xC0 ≤ o ∧ o < 0x100 then [⟨26, 6, .ro, 0x0, .w⟩, ⟨24, 2, .ro, 0x0, .w⟩, ⟨0, 16, .rc, 0x0, .w⟩] else
  if 0x100 ≤ o ∧ o < 0x200 then [⟨0, 32, .rc, 0x0, .a⟩] else
  []

/-- The field lists of the registers of one PWR block, by offset in the block. -/
def pwrBlock (o : Nat) : List FieldSpec :=
  if o = 0x0 then [⟨31, 1, .wo, 0x0, .w⟩, ⟨30, 1, .rw, 0x1, .a⟩] else
  if o = 0x4 then [⟨28, 4, .ro, 0x0, .p⟩, ⟨27, 1, .ro, 0x0, .p⟩, ⟨26, 1, .w1c, 0x0, .a⟩, ⟨23, 3, .ro, 0x0, .a⟩, ⟨19, 4, .ro, 0x0, .a⟩, ⟨0, 7, .ro, 0x0, .p⟩] else
  if o = 0x8 then [⟨0, 4, .rw, 0x0, .w⟩] else
  if o = 0xC then [⟨22, 10, .rw, 0x320, .w⟩, ⟨16, 6, .rw, 0x8, .w⟩, ⟨13, 3, .rw, 0x4, .w⟩] else
  if o = 0x10 then [⟨0, 8, .rw, 0x64, .w⟩] else
  if o = 0x14 then [⟨8, 8, .rw, 0x32, .w⟩, ⟨0, 8, .rw, 0xA, .w⟩] else
  if o = 0x18 then [⟨8, 1, .rw, 0x0, .w⟩, ⟨7, 1, .rw, 0x0, .w⟩, ⟨6, 1, .rw, 0x0, .w⟩, ⟨0, 6, .rw, 0x0, .w⟩] else
  if o = 0x1C then [⟨8, 1, .w1c, 0x0, .w⟩, ⟨7, 1, .w1c, 0x0, .w⟩, ⟨6, 1, .w1c, 0x0, .w⟩, ⟨0, 6, .w1c, 0x0, .w⟩] else
  if o = 0x20 then [⟨20, 5, .ro, 0x0, .p⟩, ⟨15, 5, .ro, 0x0, .p⟩, ⟨10, 5, .ro, 0x0, .p⟩, ⟨5, 5, .ro, 0x0, .p⟩, ⟨0, 5, .ro, 0x0, .p⟩] else
  if 0x30 ≤ o ∧ o < 0x40 then [⟨31, 1, .rw, 0x0, .w⟩, ⟨0, 3, .rw, 0x0, .w⟩] else
  if 0x40 ≤ o ∧ o < 0x50 then [⟨29, 3, .ro, 0x4, .w⟩, ⟨26, 3, .ro, 0x0, .w⟩, ⟨23, 3, .ro, 0x0, .w⟩, ⟨22, 1, .ro, 0x0, .w⟩, ⟨21, 1, .w1c, 0x0, .w⟩, ⟨20, 1, .ro, 0x0, .w⟩, ⟨14, 6, .ro, 0x0, .w⟩] else
  if 0x50 ≤ o ∧ o < 0x6C then [⟨28, 4, .ro, 0x0, .p⟩, ⟨0, 16, .ro, 0x0, .p⟩] else
  if o = 0x6C then [⟨10, 11, .ro, 0x0, .p⟩, ⟨0, 10, .ro, 0x0, .p⟩] else
  if 0x80 ≤ o ∧ o < 0xC0 then [⟨21, 11, .rw, 0x41A, .w⟩, ⟨9, 3, .rw, 0x0, .w⟩, ⟨6, 3, .rw, 0x0, .w⟩, ⟨3, 3, .rw, 0x0, .w⟩, ⟨0, 3, .rw, 0x0, .w⟩] else
  if 0x100 ≤ o ∧ o < 0x160 then [⟨16, 16, .rc, 0x8000, .a⟩, ⟨0, 16, .ro, 0x0, .a⟩] else
  if 0x200 ≤ o ∧ o < 0x254 ∧ (o - 0x200) % 0x10 = 0 then [⟨0, 32, .ro, 0x0, .p⟩] else
  if 0x204 ≤ o ∧ o < 0x258 ∧ (o - 0x204) % 0x10 = 0 then [⟨0, 16, .ro, 0x0, .p⟩] else
  if 0x208 ≤ o ∧ o < 0x25C ∧ (o - 0x208) % 0x10 = 0 then [⟨0, 32, .ro, 0x0, .p⟩] else
  if o = 0x300 then [⟨0, 32, .ro, 0x0, .p⟩] else
  if o = 0x304 then [⟨0, 32, .ro, 0x0, .p⟩] else
  []

/-- The field lists of the registers of one MIO block, by offset in the block. -/
def mioBlock (o : Nat) : List FieldSpec :=
  if 0x0 ≤ o ∧ o < 0x104 ∧ (o - 0x0) % 0x100 = 0 then [⟨31, 1, .rw, 0x1, .a⟩, ⟨30, 1, .wo, 0x0, .a⟩, ⟨0, 2, .rw, 0x1, .a⟩] else
  if 0x4 ≤ o ∧ o < 0x108 ∧ (o - 0x4) % 0x100 = 0 then [⟨31, 1, .wo, 0x0, .a⟩, ⟨16, 7, .rw, 0x0, .a⟩, ⟨8, 6, .rw, 0x0, .a⟩, ⟨0, 6, .rw, 0x0, .a⟩] else
  if 0x8 ≤ o ∧ o < 0x10C ∧ (o - 0x8) % 0x100 = 0 then [⟨31, 1, .ro, 0x0, .a⟩, ⟨28, 3, .ro, 0x0, .a⟩, ⟨27, 1, .ro, 0x0, .a⟩, ⟨0, 16, .ro, 0x0, .a⟩] else
  if 0x10 ≤ o ∧ o < 0x130 ∧ (o - 0x10) % 0x100 < 0x20 then [⟨0, 32, .rw, 0x0, .a⟩] else
  if o = 0x200 then [⟨31, 1, .rw, 0x1, .a⟩, ⟨30, 1, .rw, 0x1, .a⟩, ⟨0, 7, .rw, 0x3A, .a⟩] else
  if o = 0x204 then [⟨0, 32, .rc, 0x0, .a⟩] else
  if o = 0x300 then [⟨31, 1, .wo, 0x0, .a⟩, ⟨28, 3, .rw, 0x0, .a⟩, ⟨0, 8, .rw, 0x0, .a⟩] else
  if o = 0x304 then [⟨0, 32, .rw, 0x0, .a⟩] else
  if o = 0x308 then [⟨31, 1, .ro, 0x0, .a⟩, ⟨28, 3, .ro, 0x0, .a⟩, ⟨0, 8, .ro, 0x0, .p⟩] else
  if 0x400 ≤ o ∧ o < 0x500 then [⟨0, 32, .rw, 0x0, .a⟩] else
  if o = 0x800 then [⟨24, 8, .ro, 0x0, .a⟩, ⟨16, 8, .ro, 0x0, .a⟩, ⟨8, 8, .rw, 0x0, .a⟩, ⟨0, 8, .rw, 0x0, .a⟩] else
  if o = 0x804 then [⟨8, 8, .rw, 0x0, .a⟩, ⟨0, 8, .w1c, 0x0, .a⟩] else
  if o = 0x900 then [⟨0, 14, .w1c, 0x0, .w⟩] else
  if o = 0x904 then [⟨0, 14, .rw, 0x0, .w⟩] else
  if 0x200000 ≤ o ∧ o < 0x2003F4 ∧ (o - 0x200000) % 0x10 = 0 then [⟨2, 30, .rw, 0x0, .w⟩] else
  if 0x200004 ≤ o ∧ o < 0x2003F8 ∧ (o - 0x200004) % 0x10 = 0 then [⟨0, 32, .rw, 0x0, .w⟩] else
  if 0x200008 ≤ o ∧ o < 0x2003FC ∧ (o - 0x200008) % 0x10 = 0 then [⟨0, 32, .rw, 0x0, .w⟩] else
  if 0x20000C ≤ o ∧ o < 0x200400 ∧ (o - 0x20000C) % 0x10 = 0 then [⟨0, 1, .rw, 0x1, .w⟩] else
  if 0x200800 ≤ o ∧ o < 0x200808 then [⟨0, 32, .ro, 0x0, .w⟩] else
  []

/-- The field lists of the registers of one PRT block, by offset in the block. -/
def prtBlock (o : Nat) : List FieldSpec :=
  if o = 0x0 then [⟨31, 1, .dl, 0x0, .w⟩, ⟨29, 2, .dl, 0x0, .w⟩, ⟨27, 2, .dl, 0x0, .w⟩] else
  if o = 0x4 then [⟨24, 8, .ro, 0x0, .t⟩, ⟨16, 8, .ro, 0x0, .t⟩, ⟨8, 8, .ro, 0x0, .t⟩, ⟨0, 8, .ro, 0x0, .t⟩] else
  if o = 0x8 then [⟨31, 1, .wo, 0x0, .t⟩, ⟨30, 1, .rw, 0x0, .t⟩, ⟨29, 1, .rw, 0x1, .t⟩, ⟨28, 1, .rw, 0x1, .t⟩, ⟨26, 2, .rw, 0x0, .t⟩, ⟨16, 10, .rw, 0x3E8, .t⟩, ⟨0, 8, .rw, 0x0, .t⟩] else
  if o = 0xC then [⟨31, 1, .ro, 0x0, .t⟩, ⟨28, 3, .ro, 0x0, .t⟩, ⟨16, 8, .ro, 0x0, .t⟩, ⟨0, 8, .ro, 0x0, .t⟩] else
  if o = 0x10 then [⟨31, 1, .rw, 0x1, .t⟩, ⟨17, 1, .ro, 0x0, .t⟩, ⟨16, 1, .ro, 0x0, .t⟩, ⟨0, 16, .rw, 0x64, .t⟩] else
  if o = 0x20 then [⟨0, 32, .rc, 0x0, .t⟩] else
  if o = 0x24 then [⟨0, 32, .rc, 0x0, .t⟩] else
  if o = 0x28 then [⟨0, 32, .rc, 0x0, .t⟩] else
  if o = 0x2C then [⟨0, 32, .rc, 0x0, .t⟩] else
  if o = 0x30 then [⟨0, 32, .rc, 0x0, .t⟩] else
  if o = 0x100 then [⟨16, 8, .rw, 0x40, .t⟩, ⟨12, 4, .rw, 0x8, .t⟩, ⟨8, 4, .rw, 0x4, .t⟩, ⟨4, 4, .rw, 0x5, .t⟩, ⟨0, 1, .rw, 0x1, .t⟩] else
  if o = 0x104 then [⟨16, 2, .ro, 0x0, .t⟩, ⟨12, 1, .ro, 0x0, .t⟩, ⟨0, 12, .ro, 0x0, .t⟩] else
  if o = 0x120 then [⟨0, 32, .rc, 0x0, .t⟩] else
  if o = 0x124 then [⟨0, 32, .rc, 0x0, .t⟩] else
  if o = 0x128 then [⟨0, 32, .rc, 0x0, .t⟩] else
  if o = 0x12C then [⟨0, 32, .rc, 0x0, .t⟩] else
  if o = 0x130 then [⟨0, 32, .rc, 0x0, .t⟩] else
  if o = 0x134 then [⟨0, 32, .rc, 0x0, .t⟩] else
  if o = 0x138 then [⟨0, 32, .rc, 0x0, .t⟩] else
  if o = 0x140 then [⟨28, 4, .ro, 0x0, .t⟩, ⟨27, 1, .w1c, 0x0, .t⟩, ⟨26, 1, .w1c, 0x0, .t⟩, ⟨25, 1, .w1c, 0x0, .t⟩, ⟨24, 1, .w1c, 0x0, .t⟩, ⟨23, 1, .w1c, 0x0, .t⟩, ⟨0, 9, .ro, 0x0, .t⟩] else
  if o = 0x144 then [⟨0, 32, .ro, 0x0, .t⟩] else
  if o = 0x148 then [⟨0, 32, .ro, 0x0, .t⟩] else
  if o = 0x14C then [⟨0, 15, .ro, 0x0, .t⟩] else
  if o = 0x150 then [⟨12, 17, .dl, 0x0, .w⟩, ⟨0, 12, .dl, 0x0, .w⟩] else
  if 0x180 ≤ o ∧ o < 0x1A0 then [⟨0, 15, .dl, 0x0, .w⟩] else
  if 0x1A0 ≤ o ∧ o < 0x1C0 then [⟨0, 18, .rw, 0x4000, .t⟩] else
  if o = 0x1C0 then [⟨0, 32, .rc, 0x0, .t⟩] else
  if o = 0x1C4 then [⟨0, 32, .rc, 0x0, .t⟩] else
  if o = 0x1C8 then [⟨0, 32, .rc, 0x0, .t⟩] else
  if o = 0x1CC then [⟨0, 32, .rc, 0x0, .t⟩] else
  if o = 0x200 then [⟨12, 3, .rw, 0x0, .t⟩, ⟨9, 3, .rw, 0x4, .t⟩, ⟨6, 3, .rw, 0x3, .t⟩, ⟨3, 3, .rw, 0x2, .t⟩, ⟨0, 3, .rw, 0x1, .t⟩] else
  if 0x220 ≤ o ∧ o < 0x240 then [⟨16, 16, .rw, 0x40, .t⟩, ⟨0, 1, .rw, 0x0, .t⟩] else
  if 0x240 ≤ o ∧ o < 0x260 then [⟨31, 1, .rw, 0x0, .t⟩, ⟨16, 11, .rw, 0x0, .t⟩, ⟨15, 1, .rw, 0x0, .t⟩, ⟨0, 11, .rw, 0x0, .t⟩] else
  if 0x260 ≤ o ∧ o < 0x280 then [⟨0, 18, .rw, 0x0, .t⟩] else
  if 0x280 ≤ o ∧ o < 0x2A0 then [⟨31, 1, .rw, 0x0, .t⟩, ⟨16, 9, .rw, 0x0, .t⟩, ⟨0, 16, .rw, 0x40, .t⟩] else
  if 0x2A0 ≤ o ∧ o < 0x2C0 then [⟨0, 16, .rw, 0xFFFF, .t⟩] else
  if o = 0x2C0 then [⟨31, 1, .dl, 0x0, .t⟩, ⟨30, 1, .rw, 0x1, .t⟩, ⟨0, 15, .dl, 0x0, .t⟩] else
  if o = 0x2C4 then [⟨17, 14, .dl, 0x0, .t⟩, ⟨0, 17, .dl, 0x0, .t⟩] else
  if o = 0x2C8 then [⟨0, 32, .rc, 0x0, .t⟩] else
  if 0x2D0 ≤ o ∧ o < 0x2F0 then [⟨0, 32, .rc, 0x0, .t⟩] else
  if 0x2F0 ≤ o ∧ o < 0x310 then [⟨0, 32, .rc, 0x0, .t⟩] else
  []

/-- The field lists of the registers of one LNE block, by offset in the block. -/
def lneBlock (o : Nat) : List FieldSpec :=
  if o = 0x0 then [⟨31, 1, .wo, 0x0, .t⟩] else
  if o = 0x4 then [⟨29, 3, .ro, 0x0, .t⟩, ⟨28, 1, .ro, 0x0, .t⟩, ⟨27, 1, .ro, 0x0, .t⟩, ⟨26, 1, .ro, 0x0, .t⟩, ⟨25, 1, .ro, 0x1, .t⟩, ⟨24, 1, .ro, 0x0, .t⟩, ⟨23, 1, .ro, 0x0, .t⟩, ⟨0, 16, .ro, 0x0, .t⟩] else
  if o = 0x8 then [⟨31, 1, .rw, 0x0, .w⟩, ⟨30, 1, .rw, 0x0, .w⟩, ⟨29, 1, .rw, 0x0, .w⟩, ⟨24, 5, .rw, 0x0, .w⟩, ⟨16, 8, .rw, 0x0, .w⟩, ⟨8, 8, .rw, 0x0, .w⟩, ⟨0, 8, .rw, 0x0, .w⟩] else
  if o = 0xC then [⟨28, 4, .rw, 0x4, .t⟩, ⟨8, 20, .rw, 0x10000, .t⟩, ⟨0, 8, .rw, 0x40, .t⟩] else
  if o = 0x10 then [⟨0, 32, .rc, 0x0, .t⟩] else
  if o = 0x14 then [⟨0, 32, .rc, 0x0, .t⟩] else
  if o = 0x18 then [⟨0, 32, .rc, 0x0, .t⟩] else
  if o = 0x1C then [⟨0, 32, .rc, 0x0, .t⟩] else
  if o = 0x20 then [⟨31, 1, .wo, 0x0, .t⟩, ⟨30, 1, .ro, 0x0, .t⟩, ⟨28, 2, .rw, 0x1, .t⟩, ⟨27, 1, .rw, 0x0, .t⟩, ⟨16, 5, .rw, 0x14, .t⟩, ⟨0, 16, .rw, 0x0, .t⟩] else
  if o = 0x24 then [⟨30, 2, .ro, 0x0, .t⟩, ⟨8, 8, .ro, 0x0, .t⟩, ⟨0, 8, .ro, 0x0, .t⟩] else
  []

/-- The field lists of the registers of one SHT block, by offset in the block. -/
def shtBlock (o : Nat) : List FieldSpec :=
  if o = 0x0 then [⟨31, 1, .rw, 0x1, .s⟩, ⟨30, 1, .rw, 0x0, .s⟩, ⟨29, 1, .wo, 0x0, .s⟩, ⟨28, 1, .wo, 0x0, .s⟩, ⟨16, 12, .rw, 0x64, .s⟩, ⟨0, 8, .rw, 0x8, .s⟩] else
  if o = 0x4 then [⟨29, 3, .ro, 0x0, .s⟩, ⟨26, 3, .ro, 0x0, .d⟩, ⟨25, 1, .ro, 0x0, .s⟩, ⟨13, 12, .ro, 0x0, .s⟩, ⟨0, 9, .ro, 0x0, .d⟩] else
  if o = 0x8 then [⟨0, 16, .ro, 0x0, .s⟩] else
  if 0x10 ≤ o ∧ o < 0x20 then [⟨0, 32, .rw, 0x0, .s⟩] else
  if o = 0x20 then [⟨0, 1, .wo, 0x0, .s⟩] else
  if o = 0x24 then [⟨29, 3, .ro, 0x0, .s⟩, ⟨8, 16, .ro, 0x0, .s⟩, ⟨0, 4, .ro, 0x8, .s⟩] else
  if o = 0x40 then [⟨0, 32, .rc, 0x0, .s⟩] else
  if o = 0x44 then [⟨0, 32, .rc, 0x0, .s⟩] else
  if o = 0x48 then [⟨0, 32, .rc, 0x0, .s⟩] else
  if o = 0x4C then [⟨0, 32, .rc, 0x0, .s⟩] else
  if o = 0x50 then [⟨0, 32, .rc, 0x0, .s⟩] else
  []

/-- The field lists of the registers of one GRP block, by offset in the block. -/
def grpBlock (o : Nat) : List FieldSpec :=
  if o = 0x0 then [⟨31, 1, .rw, 0x0, .c⟩, ⟨30, 1, .rw, 0x0, .c⟩, ⟨29, 1, .rw, 0x0, .c⟩, ⟨27, 2, .rw, 0x0, .c⟩, ⟨26, 1, .rw, 0x1, .c⟩, ⟨23, 3, .rw, 0x3, .c⟩, ⟨16, 1, .wo, 0x0, .c⟩, ⟨0, 16, .rw, 0x0, .c⟩] else
  if o = 0x4 then [⟨28, 4, .rw, 0x0, .c⟩, ⟨24, 4, .rw, 0x0, .c⟩, ⟨20, 4, .rw, 0x0, .c⟩, ⟨16, 4, .rw, 0xD, .c⟩, ⟨15, 1, .rw, 0x0, .c⟩, ⟨14, 1, .rw, 0x0, .c⟩, ⟨13, 1, .rw, 0x0, .c⟩, ⟨0, 5, .rw, 0xE, .c⟩] else
  if o = 0x8 then [⟨0, 32, .rw, 0x0, .c⟩] else
  if o = 0xC then [⟨0, 5, .rw, 0x0, .c⟩] else
  if o = 0x10 then [⟨0, 25, .rw, 0x0, .c⟩] else
  if o = 0x14 then [⟨17, 6, .rw, 0x0, .c⟩, ⟨0, 17, .rw, 0x0, .c⟩] else
  if o = 0x18 then [⟨0, 32, .rw, 0x0, .c⟩] else
  if o = 0x1C then [⟨0, 32, .rw, 0x0, .c⟩] else
  if o = 0x20 then [⟨0, 32, .rw, 0x0, .c⟩] else
  if o = 0x24 then [⟨0, 32, .rw, 0x0, .c⟩] else
  if o = 0x28 then [⟨0, 32, .rw, 0x0, .c⟩] else
  if o = 0x2C then [⟨0, 32, .rw, 0x0, .c⟩] else
  if o = 0x30 then [⟨15, 5, .rw, 0x0, .c⟩, ⟨10, 5, .rw, 0x0, .c⟩, ⟨5, 5, .rw, 0x0, .c⟩, ⟨0, 5, .rw, 0x0, .c⟩] else
  if o = 0x34 then [⟨16, 16, .rw, 0x0, .c⟩, ⟨0, 16, .rw, 0x8, .c⟩] else
  if o = 0x38 then [⟨0, 32, .rw, 0x0, .c⟩] else
  if o = 0x3C then [⟨31, 1, .ro, 0x1, .c⟩, ⟨30, 1, .ro, 0x0, .c⟩, ⟨29, 1, .ro, 0x0, .c⟩, ⟨16, 13, .ro, 0x0, .c⟩, ⟨0, 16, .ro, 0x0, .c⟩] else
  []

/-- The field lists of the registers of one MBR block, by offset in the block. -/
def mbrBlock (o : Nat) : List FieldSpec :=
  if o = 0x0 then [⟨12, 20, .rw, 0x0, .w⟩] else
  if o = 0x4 then [⟨31, 1, .rw, 0x0, .w⟩, ⟨16, 5, .rw, 0x0, .w⟩, ⟨0, 16, .rw, 0x0, .w⟩] else
  []

/-- The field lists of the registers of one CTX block, by offset in the block. -/
def ctxBlock (o : Nat) : List FieldSpec :=
  if o = 0x40 then [⟨6, 1, .rw, 0x0, .c⟩, ⟨5, 1, .rw, 0x0, .c⟩, ⟨0, 5, .rw, 0xA, .c⟩] else
  if o = 0x44 then [⟨16, 11, .dl, 0x0, .w⟩, ⟨0, 10, .dl, 0x0, .w⟩] else
  if o = 0x48 then [⟨0, 32, .rc, 0x0, .c⟩] else
  if o = 0x4C then [⟨0, 32, .rc, 0x0, .c⟩] else
  if o = 0x50 then [⟨16, 15, .dl, 0x0, .w⟩, ⟨0, 14, .dl, 0x0, .w⟩] else
  if o = 0x54 then [⟨0, 9, .dl, 0x0, .w⟩] else
  if o = 0x58 then [⟨0, 32, .rc, 0x0, .c⟩] else
  if o = 0x5C then [⟨0, 32, .rc, 0x0, .c⟩] else
  if o = 0x60 then [⟨31, 1, .rw, 0x0, .c⟩, ⟨24, 7, .rw, 0x0, .c⟩, ⟨8, 6, .dl, 0x0, .w⟩, ⟨0, 4, .dl, 0x0, .w⟩] else
  if o = 0x64 then [⟨0, 5, .rw, 0x7, .c⟩] else
  if o = 0x68 then [⟨0, 32, .rc, 0x0, .c⟩] else
  if o = 0x6C then [⟨0, 32, .rc, 0x0, .w⟩] else
  if 0x80 ≤ o ∧ o < 0xC0 then [⟨0, 32, .dl, 0x0, .w⟩] else
  []

/-- The field lists of the registers of one RTE block, by offset in the block. -/
def rteBlock (o : Nat) : List FieldSpec :=
  if o = 0x0 then [⟨24, 8, .rw, 0x20, .w⟩, ⟨16, 8, .rw, 0x40, .w⟩, ⟨10, 6, .rw, 0x8, .w⟩, ⟨0, 1, .rw, 0x1, .w⟩] else
  if o = 0x4 then [⟨31, 1, .rw, 0x0, .w⟩, ⟨20, 5, .rw, 0x0, .w⟩, ⟨15, 5, .rw, 0x0, .w⟩, ⟨10, 5, .rw, 0x0, .w⟩, ⟨5, 5, .rw, 0x0, .w⟩] else
  if o = 0x8 then [⟨8, 8, .rw, 0xA, .w⟩, ⟨4, 4, .rw, 0x4, .w⟩, ⟨1, 1, .wo, 0x0, .w⟩, ⟨0, 1, .wo, 0x0, .w⟩] else
  if o = 0xC then [⟨29, 3, .ro, 0x0, .w⟩, ⟨28, 1, .ro, 0x0, .w⟩, ⟨27, 1, .ro, 0x0, .w⟩, ⟨22, 5, .ro, 0x0, .w⟩, ⟨17, 5, .ro, 0x0, .w⟩, ⟨12, 5, .ro, 0x0, .w⟩, ⟨7, 5, .ro, 0x0, .w⟩, ⟨0, 7, .ro, 0x0, .w⟩] else
  if o = 0x10 then [⟨0, 32, .ro, 0x0, .w⟩] else
  if o = 0x14 then [⟨0, 32, .ro, 0x0, .w⟩] else
  if o = 0x18 then [⟨3, 1, .ro, 0x1, .w⟩, ⟨2, 1, .ro, 0x1, .w⟩, ⟨1, 1, .ro, 0x1, .w⟩, ⟨0, 1, .ro, 0x1, .w⟩] else
  if o = 0x20 then [⟨0, 32, .rc, 0x0, .w⟩] else
  if o = 0x24 then [⟨0, 32, .rc, 0x0, .w⟩] else
  if o = 0x28 then [⟨0, 32, .rc, 0x0, .w⟩] else
  if o = 0x2C then [⟨0, 32, .rc, 0x0, .w⟩] else
  if o = 0x30 then [⟨0, 32, .rc, 0x0, .w⟩] else
  if o = 0x34 then [⟨0, 16, .rw, 0x0, .w⟩] else
  if 0x100 ≤ o ∧ o < 0x180 then [⟨24, 8, .ro, 0x0, .w⟩, ⟨9, 1, .dl, 0x0, .w⟩, ⟨0, 9, .dl, 0x0, .w⟩] else
  if 0x200 ≤ o ∧ o < 0x2FC ∧ (o - 0x200) % 0x8 = 0 then [⟨18, 9, .rw, 0x0, .w⟩, ⟨9, 9, .rw, 0x0, .w⟩, ⟨0, 9, .rw, 0x0, .w⟩] else
  if 0x204 ≤ o ∧ o < 0x300 ∧ (o - 0x204) % 0x8 = 0 then [⟨24, 8, .ro, 0x0, .w⟩, ⟨17, 1, .rw, 0x0, .w⟩, ⟨16, 1, .rw, 0x0, .w⟩, ⟨0, 9, .rw, 0x0, .w⟩] else
  if 0x300 ≤ o ∧ o < 0x3FC ∧ (o - 0x300) % 0x8 = 0 then [⟨18, 9, .rw, 0x0, .w⟩, ⟨9, 9, .rw, 0x0, .w⟩, ⟨0, 9, .rw, 0x0, .w⟩] else
  if 0x304 ≤ o ∧ o < 0x400 ∧ (o - 0x304) % 0x8 = 0 then [⟨24, 8, .ro, 0x0, .w⟩, ⟨17, 1, .rw, 0x0, .w⟩, ⟨16, 1, .rw, 0x0, .w⟩, ⟨0, 9, .rw, 0x0, .w⟩] else
  if 0x1000 ≤ o ∧ o < 0x2000 then [⟨24, 8, .ro, 0x0, .w⟩, ⟨3, 1, .rw, 0x0, .w⟩, ⟨2, 1, .rw, 0x0, .w⟩, ⟨1, 1, .rw, 0x0, .w⟩, ⟨0, 1, .rw, 0x0, .w⟩] else
  []

/-- The field lists of the registers of one CBF block, by offset in the block. -/
def cbfBlock (o : Nat) : List FieldSpec :=
  if o = 0x0 then [⟨0, 18, .ro, 0x0, .d⟩] else
  if o = 0x4 then [⟨0, 18, .ro, 0x0, .d⟩] else
  if o = 0x8 then [⟨0, 18, .ro, 0x0, .d⟩] else
  if o = 0xC then [⟨0, 18, .ro, 0x0, .d⟩] else
  if 0x10 ≤ o ∧ o < 0x30 then [⟨0, 18, .dl, 0x0, .w⟩] else
  if o = 0x30 then [⟨20, 10, .rw, 0x80, .d⟩, ⟨10, 10, .rw, 0x40, .d⟩, ⟨0, 10, .rw, 0x10, .d⟩] else
  if o = 0x34 then [⟨0, 5, .rw, 0xA, .d⟩] else
  if o = 0x38 then [⟨8, 4, .rw, 0x2, .d⟩, ⟨4, 4, .rw, 0x4, .d⟩, ⟨0, 4, .rw, 0x8, .d⟩] else
  if o = 0x40 then [⟨0, 32, .rc, 0x0, .d⟩] else
  if o = 0x44 then [⟨0, 32, .rc, 0x0, .d⟩] else
  if o = 0x48 then [⟨0, 32, .rc, 0x0, .d⟩] else
  []

/-- The field lists of the registers of one MIR block, by offset in the block. -/
def mirBlock (o : Nat) : List FieldSpec :=
  if o = 0x0 then [⟨31, 1, .rw, 0x0, .w⟩, ⟨29, 2, .rw, 0x0, .w⟩, ⟨25, 4, .rw, 0x0, .w⟩, ⟨0, 9, .rw, 0x0, .w⟩] else
  if o = 0x4 then [⟨31, 1, .rw, 0x0, .w⟩, ⟨16, 12, .rw, 0x0, .w⟩, ⟨15, 1, .rw, 0x0, .w⟩, ⟨8, 5, .rw, 0x0, .w⟩] else
  if o = 0x8 then [⟨31, 1, .rw, 0x0, .w⟩, ⟨16, 15, .rw, 0x0, .w⟩, ⟨15, 1, .rw, 0x0, .w⟩, ⟨0, 15, .rw, 0x0, .w⟩] else
  if o = 0xC then [⟨0, 9, .rw, 0x0, .w⟩] else
  []

/-- The field lists of the registers of one SHPC block, by offset in the block. -/
def shpcBlock (o : Nat) : List FieldSpec :=
  if o = 0x0 then [⟨31, 1, .rw, 0x0, .c⟩, ⟨0, 18, .rw, 0x0, .c⟩] else
  if o = 0x4 then [⟨31, 1, .rw, 0x0, .c⟩, ⟨16, 9, .rw, 0x0, .c⟩, ⟨0, 16, .rw, 0x40, .c⟩] else
  if o = 0x8 then [⟨0, 32, .rc, 0x0, .c⟩] else
  []

/-- The field lists of the registers of one SCH block, by offset in the block. -/
def schBlock (o : Nat) : List FieldSpec :=
  if o = 0x0 then [⟨4, 1, .rw, 0x1, .w⟩, ⟨0, 4, .rw, 0x4, .w⟩] else
  if o = 0x4 then [⟨31, 1, .ro, 0x0, .w⟩, ⟨30, 1, .ro, 0x0, .w⟩, ⟨28, 2, .ro, 0x0, .w⟩, ⟨18, 9, .ro, 0x0, .w⟩, ⟨0, 16, .ro, 0x0, .w⟩] else
  if o = 0x8 then [⟨0, 32, .ro, 0x0, .w⟩] else
  if o = 0xC then [⟨0, 32, .ro, 0x0, .w⟩] else
  if o = 0x10 then [⟨0, 32, .rc, 0x0, .w⟩] else
  if o = 0x14 then [⟨0, 32, .rc, 0x0, .w⟩] else
  if o = 0x100 then [⟨31, 1, .rw, 0x0, .w⟩, ⟨0, 10, .rw, 0x64, .w⟩] else
  []

/-- The field lists of the registers of one POL block, by offset in the block. -/
def polBlock (o : Nat) : List FieldSpec :=
  if o = 0x0 then [⟨31, 1, .rw, 0x0, .d⟩, ⟨30, 1, .rw, 0x0, .d⟩, ⟨29, 1, .rw, 0x0, .d⟩, ⟨28, 1, .rw, 0x0, .d⟩, ⟨16, 9, .rw, 0x0, .d⟩] else
  if o = 0x4 then [⟨0, 18, .rw, 0x0, .d⟩] else
  if o = 0x8 then [⟨0, 18, .rw, 0x0, .d⟩] else
  if o = 0xC then [⟨0, 16, .rw, 0x40, .d⟩] else
  if o = 0x10 then [⟨0, 16, .rw, 0x40, .d⟩] else
  if o = 0x14 then [⟨0, 32, .rc, 0x0, .d⟩] else
  if o = 0x18 then [⟨0, 32, .rc, 0x0, .d⟩] else
  if o = 0x1C then [⟨0, 32, .rc, 0x0, .d⟩] else
  []

/-- The field lists of the registers of one SHED block, by offset in the block. -/
def shedBlock (o : Nat) : List FieldSpec :=
  if o = 0x0 then [⟨0, 32, .dl, 0x0, .d⟩] else
  if o = 0x4 then [⟨0, 32, .dl, 0x0, .d⟩] else
  []

/-- The field lists of the registers of one HIST block, by offset in the block. -/
def histBlock (o : Nat) : List FieldSpec :=
  if 0x0 ≤ o ∧ o < 0x40 then [⟨0, 32, .rc, 0x0, .d⟩] else
  if 0x40 ≤ o ∧ o < 0x80 then [⟨0, 32, .rc, 0x0, .d⟩] else
  []

/-- The field lists of the registers of one SEL block, by offset in the block. -/
def selBlock (o : Nat) : List FieldSpec :=
  if o = 0x0 then [⟨31, 1, .wo, 0x0, .a⟩] else
  if o = 0x4 then [⟨31, 1, .ro, 0x0, .a⟩, ⟨30, 1, .ro, 0x0, .p⟩, ⟨29, 1, .w1c, 0x0, .a⟩, ⟨0, 16, .ro, 0x0, .a⟩] else
  []

/-- The field lists of the registers of one WMK block, by offset in the block. -/
def wmkBlock (o : Nat) : List FieldSpec :=
  if o = 0x0 then [⟨0, 32, .ro, 0x0, .c⟩] else
  if o = 0x4 then [⟨0, 32, .ro, 0x0, .c⟩] else
  if o = 0x8 then [⟨0, 32, .ro, 0x0, .c⟩] else
  if o = 0xC then [⟨0, 1, .wo, 0x0, .c⟩] else
  if o = 0x10 then [⟨0, 32, .ro, 0x0, .c⟩] else
  if o = 0x14 then [⟨0, 32, .ro, 0x0, .c⟩] else
  if o = 0x18 then [⟨0, 32, .ro, 0x0, .c⟩] else
  if o = 0x1C then [⟨0, 16, .ro, 0x0, .c⟩] else
  []

/-- The field lists of the registers of one TRC block, by offset in the block. -/
def trcBlock (o : Nat) : List FieldSpec :=
  if o = 0x0 then [⟨31, 1, .rw, 0x0, .w⟩, ⟨14, 12, .rw, 0x0, .w⟩, ⟨0, 14, .rw, 0x0, .w⟩] else
  if o = 0x4 then [⟨31, 1, .ro, 0x0, .w⟩, ⟨0, 13, .ro, 0x0, .w⟩] else
  []

/-- The field lists of the registers of one TREC block, by offset in the block. -/
def trecBlock (o : Nat) : List FieldSpec :=
  if o = 0x0 then [⟨31, 1, .ro, 0x0, .w⟩, ⟨30, 1, .ro, 0x0, .w⟩, ⟨0, 23, .ro, 0x0, .w⟩] else
  if o = 0x4 then [⟨0, 32, .ro, 0x0, .w⟩] else
  if o = 0x8 then [⟨0, 16, .ro, 0x0, .w⟩] else
  if o = 0xC then [⟨0, 32, .ro, 0x0, .w⟩] else
  []

/-- The field lists of the registers of one BCW block, by offset in the block. -/
def bcwBlock (o : Nat) : List FieldSpec :=
  if o = 0x2000 then [⟨30, 2, .rw, 0x0, .w⟩, ⟨0, 5, .rw, 0x0, .w⟩] else
  if o = 0x2004 then [⟨31, 1, .w1c, 0x0, .w⟩, ⟨30, 1, .ro, 0x0, .w⟩, ⟨16, 10, .ro, 0x0, .w⟩, ⟨0, 10, .ro, 0x0, .w⟩] else
  if o = 0x2008 then [⟨30, 2, .rw, 0x0, .w⟩, ⟨0, 5, .rw, 0x0, .w⟩] else
  if o = 0x200C then [⟨31, 1, .w1c, 0x0, .w⟩, ⟨30, 1, .ro, 0x0, .w⟩, ⟨16, 10, .ro, 0x0, .w⟩, ⟨0, 10, .ro, 0x0, .w⟩] else
  if 0x4000 ≤ o ∧ o < 0x4800 then [⟨0, 32, .dl, 0x0, .w⟩] else
  if 0x4800 ≤ o ∧ o < 0x5000 then [⟨0, 32, .dl, 0x0, .w⟩] else
  []

/-- The field lists of the registers of one BCS block, by offset in the block. -/
def bcsBlock (o : Nat) : List FieldSpec :=
  if o = 0x2000 then [⟨30, 2, .rw, 0x0, .w⟩, ⟨0, 5, .rw, 0x0, .w⟩] else
  if o = 0x2004 then [⟨31, 1, .w1c, 0x0, .w⟩, ⟨30, 1, .ro, 0x0, .w⟩, ⟨16, 10, .ro, 0x0, .w⟩, ⟨0, 10, .ro, 0x0, .w⟩] else
  if 0x4000 ≤ o ∧ o < 0x4FC4 ∧ (o - 0x4000) % 0x80 < 0x44 then [⟨0, 32, .dl, 0x0, .w⟩] else
  []

end Fields

/-- The field list of the register at BAR offset `off`; empty where Tables 15-2 to 15-12 assign none (R8, R511). -/
def regFields (off : Nat) : List FieldSpec :=
  if off % 4 ≠ 0 then [] else
  if off < 0x00100000 then Fields.glbBlock off else
  if 0x00100000 ≤ off ∧ off < 0x00200000 then Fields.aonBlock (off - 0x00100000) else
  if 0x00200000 ≤ off ∧ off < 0x00300000 then Fields.fltBlock (off - 0x00200000) else
  if 0x00300000 ≤ off ∧ off < 0x00400000 then Fields.pwrBlock (off - 0x00300000) else
  if 0x00400000 ≤ off ∧ off < 0x00500000 then Fields.dftBlock (off - 0x00400000) else
  if 0x00500000 ≤ off ∧ off < 0x00800000 then Fields.mioBlock (off - 0x00500000) else
  if 0x00800000 ≤ off ∧ off < 0x00A00000 then Fields.prtBlock ((off - 0x00800000) % 0x1000) else
  if 0x00A00000 ≤ off ∧ off < 0x00A80000 then Fields.lneBlock ((off - 0x00A00000) % 0x400) else
  if 0x00B00000 ≤ off ∧ off < 0x01000000 then Fields.bcwBlock (off - 0x00B00000) else
  if 0x01000000 ≤ off ∧ off < 0x01440000 then Fields.shtBlock ((off - 0x01000000) % 0x2000) else
  if 0x01800000 ≤ off ∧ off < 0x02000000 then Fields.bcsBlock (off - 0x01800000) else
  if 0x02000000 ≤ off ∧ off < 0x02100000 then Fields.grpBlock ((off - 0x02000000) % 0x40) else
  if 0x02100000 ≤ off ∧ off < 0x02200000 then Fields.mbrBlock ((off - 0x02100000) % 0x8) else
  if 0x02200000 ≤ off ∧ off < 0x02300000 then Fields.ctxBlock ((off - 0x02200000) % 0x100) else
  if 0x02400000 ≤ off ∧ off < 0x02800000 then Fields.rteBlock (off - 0x02400000) else
  if 0x02800000 ≤ off ∧ off < 0x02840000 then Fields.cbfBlock ((off - 0x02800000) % 0x10000) else
  if 0x02840000 ≤ off ∧ off < 0x02840100 then Fields.mirBlock ((off - 0x02840000) % 0x10) else
  if 0x02880000 ≤ off ∧ off < 0x02890000 then Fields.shpcBlock ((off - 0x02880000) % 0x10) else
  if 0x02890000 ≤ off ∧ off < 0x02891000 then Fields.schBlock (off - 0x02890000) else
  if 0x028C0000 ≤ off ∧ off < 0x02900000 then Fields.polBlock ((off - 0x028C0000) % 0x20) else
  if 0x02900000 ≤ off ∧ off < 0x02D00000 then Fields.shedBlock ((off - 0x02900000) % 8) else
  if 0x02D00000 ≤ off ∧ off < 0x02D80000 then Fields.histBlock ((off - 0x02D00000) % 0x80) else
  if 0x03020000 ≤ off ∧ off < 0x03020100 then Fields.selBlock (off - 0x03020000) else
  if 0x03600000 ≤ off ∧ off < 0x03680000 then Fields.wmkBlock ((off - 0x03600000) % 0x20) else
  if 0x03680000 ≤ off ∧ off < 0x03681000 then Fields.trcBlock (off - 0x03680000) else
  if 0x03681000 ≤ off ∧ off < 0x03691000 then Fields.trecBlock ((off - 0x03681000) % 0x10) else
  []

end Sys2Proof.Machine
end

