-- ==== Sys2Proof/Machine/State.lean ====
section
/-! DEFINITION. The state of the block: plain data, everything the spec names, and the queue of waiting commands.
What a register field shows is held in `regs` alone; the records below hold what no register shows. -/

namespace Sys2Proof.Machine

/-- The reasons the block stops. No rule of the spec stops the block: every meaning answers a next state, so no meaning
raises this one. It is kept for the interface and is safe. -/
inductive Fault where
  /-- Raised by nothing: safe. -/
  | stopped
  deriving DecidableEq, Repr

/-- The reasons a command is refused. -/
inductive Refusal where
  /-- A command whose meaning is not written yet: safe. -/
  | notModelled (mnemonic : String)
  deriving DecidableEq, Repr

/-! ### What leaves the block -/

/-- What the block shows to the outside, oldest first: the model's own trace of effects that no register holds. -/
inductive Output where
  /-- BAR read data (R5). -/
  | readData (off : Nat) (size : Nat) (data : BitVec 64)
  /-- Unsupported Request (R5). -/
  | unsupported (off : Nat)
  /-- An MSI-X message (R478). -/
  | msix (vector : Nat) (addr : BitVec 64) (data : Word)
  /-- A counted group sent, with its sequence number (R108). -/
  | group (port seq : Nat) (units : List LinkUnit)
  /-- An uncounted group: its link-control unit (R108). -/
  | lcu (port : Nat) (l : Lcu)
  /-- The codeword of the group before it on the lane it is dealt to (R88): its 2,720 PAM4 level indices (R370 to R372). -/
  | codeword (lane : Nat) (levels : List (BitVec 2))
  /-- The last link unit of a packet left the port; `stomped` when it was ended with a wrong CRC (R106). -/
  | sent (port : Nat) (p : Pkt) (stomped : Bool)
  /-- A training frame field set sent on a lane (R379). -/
  | trainSent (lane : Nat) (block : BitVec 128)
  /-- A driver of a lane turned on or off, or a lane in electrical idle (R380, R385). -/
  | laneDrive (lane : Nat) (on : Bool)
  /-- Bytes returned by the I2C target (R483). -/
  | i2cBytes (bytes : List Byte)
  /-- A NACK of the I2C target at a byte (R484). -/
  | i2cNack (atByte : Nat)
  /-- An I2C transfer started by software on controller n (R480). -/
  | i2cStart (n addr : Nat) (wbytes : List Byte) (rlen : Nat)
  /-- A STOP or release of the bus by controller n during a bus check (R482). -/
  | i2cBus (n : Nat) (stop : Bool)
  /-- A regulator told OPERATION 0x80 or 0x00 over controller 1: its address, its page, the command byte (R415). -/
  | regOperation (addr page cmd : Nat)
  /-- A regulator told a voltage in mV with VOUT_COMMAND, in the format of its VOUT_MODE (R415, R425). -/
  | regVout (addr page mv : Nat)
  /-- The answer to a configuration read: its data, or `none` for Request Retry Status (R474, R477). -/
  | cfgData (off : Nat) (data : Option Word)
  /-- The management function starts PCI Express link training (R477, R530). -/
  | pcieTrain
  deriving DecidableEq, Repr

/-! ### Faults and management -/

/-- FAULT_N's timer and release, live conditions, the Deckle watchdog's last restart, a post-fatal dump, the channels
declared failed as (link, channel) (file 13); when the transfers of a channel (link × 34 + channel) were last resent, and the channels
that will fail their test at a die reset (R445). -/
structure FaultSt where
  minUntil : Option Nat := none
  released : Bool := false
  live : List (Nat × Word) := []
  wdogAt : Option Nat := none
  dumpDue : Bool := false
  badCh : List (Nat × Nat) := []
  resent : List (Nat × List Nat) := []
  weakCh : List (Nat × Nat) := []
  deriving DecidableEq, Repr

/-- A context reset in progress (R460): its contexts, its origin, whether the sample was asked for, whether steps 3 to 6
have run (they wait for a migration, R465), whether 2 ms have passed (R464), whether it serves a CONTEXTS panel; whether step 5 still
waits for copies behind others in their queues (R462). -/
structure CtxReset where
  ctxs : List Nat
  start : Nat
  sample : Bool
  ran : Bool := false
  late : Bool := false
  panel : Bool := false
  purging : Bool := false
  deriving DecidableEq, Repr

/-- The fuses and the silicon: serial, failed shuttles, failed cells, DVFS trims, key hash, life-cycle state, and the
state that a transition in progress is about to blow (R507); failed copy descriptors (R182). -/
structure Fuses where
  serial : BitVec 64 := 0
  failedSht : List Nat := []
  badCells : List Nat := []
  badDescs : List Nat := []
  vtrim : List Nat := []
  keyHash : List Word := []
  lcState : Nat := 0
  lcTarget : Option Nat := none
  deriving DecidableEq, Repr

/-- The memories: canonical lists of address and byte pairs. -/
structure Mem where
  sheets : List Host.Cell := []
  flash : List Host.Cell := []
  cap : List Host.Cell := []
  sel : List Host.Cell := []
  deriving DecidableEq, Repr

/-! ### Fabric operations -/

/-- One entry of the outstanding-request table (R52, R63 to R68). -/
structure OrtEntry where
  gen : Nat := 0
  busy : Bool := false
  quarUntil : Option Nat := none
  stale : List (Nat × Nat) := []
  port : Nat := 0
  tag : Nat := 0
  ctx : Nat := 0
  queue : Nat := 0
  ord : Bool := false
  dst : Nat := 0
  dstSw : Bool := false
  deadline : Nat := 0
  deriving DecidableEq, Repr

/-- The states of a directory entry (R76). -/
inductive DirSt where
  | i | s | m | sInv | mRcl
  deriving DecidableEq, Repr

/-- A request at a directory entry or a window: the packet, and its ingress port (0x3FF: from this switch). -/
structure Req where
  p : Packet
  port : Nat
  deriving DecidableEq, Repr

/-- A directory entry (R76, R80, R81). -/
structure DirEntry where
  st : DirSt := .i
  poison : Bool := false
  coarse : Bool := false
  ptrs : List Nat := []
  rows : BitVec 32 := 0
  cols : BitVec 32 := 0
  owner : Nat := 0
  count : Nat := 0
  wbSeen : Bool := false
  pend : Option Req := none
  fromS : Bool := false
  wait : List Req := []
  ptr : Nat := 0
  deadline : Nat := 0
  deriving DecidableEq, Repr

/-- A fan-out record in use (R548). -/
structure Fanout where
  home : BitVec 15
  ftag : BitVec 16
  ctx : BitVec 12
  offset : BitVec 32
  count : Nat
  deadline : Nat
  deriving DecidableEq, Repr

/-- What waits in the stub of a shuttle that does not run (R338): a window operation, a completion for the directory, or
the expiry of a line's timer. -/
inductive StubEv where
  | op (r : Req)
  | cpl (p : Packet)
  | expire (line : Nat)
  deriving DecidableEq, Repr

/-- The fabric part: outstanding requests, directory, requests held in the network-on-chip by logical shuttle, ordered
window operations that wait for an earlier one of their stream (R56), window operations that wait for their context shaper with
whether the wait is counted (R233), fan-out records, INVs that wait for one, and packets that this switch sends to itself. -/
structure FabSt where
  ort : List (Nat × OrtEntry) := []
  dir : List (Nat × DirEntry) := []
  noc : List (Nat × Req) := []
  ordWait : List Req := []
  shaped : List (Req × Bool) := []
  fan : List (Nat × Option Fanout) := []
  fanWait : List (Packet × Nat) := []
  self : List Packet := []
  deriving DecidableEq, Repr

/-! ### The switch core -/

/-- An entry of the cell link RAM (Table 05-2), the account the cell is charged to (0: free), and the serial number of the
packet whose link units still arrive in it (0: none). -/
structure CellEnt where
  next : Nat := 0
  closed : Bool := false
  luCnt : Nat := 0
  refcnt : Nat := 0
  acct : Nat := 0
  owner : Nat := 0
  deriving DecidableEq, Repr

/-- A copy descriptor (Table 05-3; `next` is the place in its list, `nextDesc`), the packet its cells hold, the routing
versions it is in flight on (R165), its remaining hops, whether it is to be ended with a stomped CRC (R106), its number in
the descriptor stores as die × 2^18 + index, the serial number of its packet while that still arrives (0: whole), the
ingress port's active lanes at the packet's first link unit (R191), the link units credited to the ingress reserve when it is
admitted (R187), the egress mirror sessions that its fan-out counts as readers (R184, R201), the serial number of its transfer
over a die-to-die link, and whether the wait for its context shaper at a crossing is counted (R233). -/
structure Copy where
  pkt : Pkt
  head : Nat
  nLu : Nat
  queue : Nat
  igPort : Nat
  igQueue : Nat
  acct : Nat
  cut : Bool
  hdr : Nat
  stamp : Nat
  hops : Nat
  vers : List (Nat × Nat)
  stomp : Bool
  yellow : Bool
  desc : Option Nat := none
  rx : Nat := 0
  lanes : Nat := 0
  cred : Nat := 0
  mir : List Nat := []
  xid : Nat := 0
  waited : Bool := false
  deriving DecidableEq, Repr

/-- Where a packet goes: egress port, queue index, remaining hops, header rewrite, the packet as that copy carries it, the
routing versions that its lookup captured (R165), the entry whose change holds it, and its stream (R168). -/
structure Target where
  port : Nat
  q : Nat
  hops : Nat
  hdr : Nat
  pkt : Pkt
  vers : List (Nat × Nat) := []
  hold : Option Nat := none
  route : Nat × Nat × Nat := (0, 0, 0)
  deriving DecidableEq, Repr

/-- A packet waiting for admission: its copies at the ports of one die, admitted together (R549); for the completion of a
leaf rejection the rejected operation's port, queue, link units and cells, given up when it is admitted (R550). -/
structure Waiting where
  copies : List Copy
  counted : Bool := false
  rel : Option (Nat × Nat × Nat × List Nat) := none
  deriving DecidableEq, Repr

/-- A transfer crossing a die-to-die link (R193): source cells still to read, destination cells still to fill, with the serial
number that marks them as its own. -/
structure Transfer where
  eq : Nat
  src : List Nat
  dst : List Nat
  copy : Copy
  own : Nat
  deriving DecidableEq, Repr

/-- The switch core: cells, free stacks of cells and of copy descriptors (pushed on top of the never used), accounts, queues,
crossbar, NACKs due, the half cell that each die-to-die link has left of its slots (R25), the next packet serial. -/
structure CoreSt where
  cells : List (Nat × CellEnt) := []
  pushed : List (Nat × List Nat) := []
  fresh : List (Nat × Nat) := []
  used : List (Nat × Nat) := []
  eq : List (Nat × List Copy) := []
  xq : List (Nat × List Copy) := []
  wait : List (Nat × List Waiting) := []
  xfer : List (Nat × List Transfer) := []
  gp : List (Nat × Nat) := []
  ap : List (Nat × Nat) := []
  mirCnt : List (Nat × Nat) := []
  nacks : List Packet := []
  descPushed : List (Nat × List Nat) := []
  descFresh : List (Nat × Nat) := []
  half : List (Nat × Nat) := []
  nextRx : Nat := 1
  deriving DecidableEq, Repr

/-! ### Links -/

/-- A packet being received: its link units so far and how many it has; once it is being sent on as it arrives its serial
number and cells, the outstanding-request entry as it stood before a completion met it, and for a result packet whether a tracker
takes it; whether what is left of it is only counted (its cells could not be allocated). -/
structure RxPkt where
  units : List LinkUnit
  need : Nat
  express : Bool
  rx : Nat := 0
  cells : List Nat := []
  undo : Option (Nat × OrtEntry) := none
  res : Option Bool := none
  lost : Bool := false
  deriving DecidableEq, Repr

/-- A packet being sent: its copy, the link units sent, the cell being read, units since the last resumption. -/
structure TxPkt where
  copy : Copy
  sent : Nat
  cell : Nat
  since : Nat
  resumed : Bool
  deriving DecidableEq, Repr

/-- What the receiver does with counted groups (R119, R122): take them, wait for a replay, or skip to a number. -/
inductive RxMode where
  | take | waitReplay | skipTo (next : Nat)
  deriving DecidableEq, Repr

/-- The link layer of one port (file 03); `sinceLcu` counts the counted groups since the last link-control unit sent and
`advLim` is lim_q as last sent (R118); `slotBase` is the slot that went to position 0 when the active set last changed (R88,
R396). -/
structure LinkSt where
  txSeq : Nat := 0
  sentQ : List Nat := [0, 0, 0, 0, 0, 0, 0, 0]
  peerLim : List Nat := [0, 0, 0, 0, 0, 0, 0, 0]
  myLim : List Nat := [0, 0, 0, 0, 0, 0, 0, 0]
  slot : Nat := 0
  slotBase : Nat := 0
  replay : List (Nat × List LinkUnit) := []
  replays : Nat := 0
  ackAt : Nat := 0
  part : List LinkUnit := []
  rxExp : Nat := 0
  ackSeen : Bool := false
  nak : Option Nat := none
  mode : RxMode := .take
  pseen : Bool := false
  initAt : Nat := 0
  rxCur : Option RxPkt := none
  rxSlot : Option RxPkt := none
  rxDisc : Bool := false
  txCur : Option TxPkt := none
  txSusp : Option TxPkt := none
  xpCount : Nat := 0
  sinceLcu : Nat := 0
  advLim : List Nat := [0, 0, 0, 0, 0, 0, 0, 0]
  withhold : Bool := false
  owed : List Nat := [0, 0, 0, 0, 0, 0, 0, 0]
  deriving DecidableEq, Repr

/-! ### Discovery and routing -/

/-- The learn of an endpoint port (R149): serial, stamp, when it wins, whether its commit is done. -/
structure Learn where
  serial : BitVec 64
  stamp : Option Nat
  deriving DecidableEq, Repr

/-- What discovery knows through one port. -/
structure PortDisc where
  learn : Option Learn := none
  epTags : Nat := 4096
  allot : Nat := 0
  peerPlaced : Bool := false
  peerState : Nat := 0
  peerRow : Nat := 0
  peerCol : Nat := 0
  peerRows : Nat := 0
  peerCols : Nat := 0
  rowPtr : Nat := 0
  colPtr : Nat := 0
  hello : Bool := false
  deriving DecidableEq, Repr

/-- The switch's discovery (R138): timers, neighbour report parts (reporter serial, part, parts, serials), lowest
root serial received while pinned, next HELLO. -/
structure DiscSt where
  quietAt : Option Nat := none
  assignAt : Option Nat := none
  helloAt : Nat := 0
  reports : List (BitVec 64 × Nat × Nat × List (BitVec 64)) := []
  pinned : Bool := false
  ports : List (Nat × PortDisc) := []
  deriving DecidableEq, Repr

/-- The versions of one routing entry (R165 to R167): active value, in-flight counts, retiring version, staged and
pending writes (a pending one with whether it holds ordered packets), and the change that holds them: the values before and
after it (R168). -/
structure RouteVer where
  active : BitVec 64 := 0
  epoch : Nat := 0
  inflight : Nat := 0
  retiring : Option (Nat × Nat) := none
  retiredAt : Option Nat := none
  staged : Option Word := none
  pending : Option (BitVec 64 × Bool) := none
  old : Option (BitVec 64 × BitVec 64) := none
  deriving DecidableEq, Repr

/-- An ordered packet held after lookup (R168): the entry whose change holds it, its ingress port (0x3FF: of this switch), its
where its lookup sends it, and its copy in cells (none for a packet of this switch, which takes cells when it goes on). -/
structure Held where
  entry : Nat
  port : Nat
  target : Target
  copy : Option Copy
  deriving DecidableEq, Repr

/-- Routing entries by key (RegMap offset of the entry's lower register), and held packets in arrival order. -/
structure RteSt where
  ver : List (Nat × RouteVer) := []
  held : List Held := []
  deriving DecidableEq, Repr

/-! ### Groups and shuttles -/

/-- A version of a group entry (R243): its words GRP_ENTRY_CTL to GRP_SEED and its serial number in the model. -/
structure GrpVer where
  words : List Word := []
  vn : Nat := 0
  deriving DecidableEq, Repr

/-- A group-table entry: the active version, the retiring version's serial and epoch, the pending words (R271). -/
structure GrpEnt where
  active : GrpVer := {}
  retiring : Option (Nat × Nat) := none
  pending : Option (List Word) := none
  deriving DecidableEq, Repr

/-- The states of an open stream tracker (Table 07-6). -/
inductive TrkSt where
  | acc | emit | wait | write | failed
  deriving DecidableEq, Repr

/-- A stream tracker (Table 07-5). `phys` is the physical shuttle it is recorded on (R344), `run` its serial, `contrib`
and `told` are masks over the member slots, `emitted` says that the emission descriptor has finished, `draining` that it
waits for DRAIN (R345), `results` holds the result packets seen, by offset in the output layout. -/
structure Tracker where
  ctx : Nat
  group : Nat
  pick : Nat
  entry : Nat
  ver : GrpVer
  exact : Bool
  treeB : Bool
  leaf : Bool
  line : Bool
  root : Bool
  home : Nat
  phys : Nat
  sheets : List Nat
  expected : Nat
  arrived : Nat := 0
  contrib : Nat := 0
  told : Nat := 0
  fail : Nat := 0
  st : TrkSt
  deadline : Option Nat := none
  run : Nat
  emitted : Bool := false
  draining : Bool := false
  results : List (Nat × List Byte) := []
  rootEpoch : Nat := 0
  deriving DecidableEq, Repr

/-- An input in transit to its tracker: the packet, its ingress port, its entry and the version captured at lookup; whether its
context shaper has let it pass (0), or it waits for it, uncounted (1) or counted (2) (R233). -/
structure Input where
  pkt : Pkt
  port : Nat
  entry : Nat
  ver : GrpVer
  shaped : Nat := 0
  deriving DecidableEq, Repr

/-- The free sheets of a ream share (R312): how many of the initial stack were popped, and those pushed back. -/
structure Share where
  popped : Nat := 0
  pushed : List Nat := []
  deriving DecidableEq, Repr

/-- The measure of a member's lag (R273): since when it is above the limit, and whether the fault was raised. -/
structure Lag where
  since : Nat
  raised : Bool
  deriving DecidableEq, Repr

/-- The collective part: versions, trackers by die × 4,096 + index, inputs in transit, ream shares by logical shuttle ×
4,096 + context, lags, the home table (empty when every weight is 0), the next serials, an abort in progress. -/
structure GrpSt where
  ent : List (Nat × GrpEnt) := []
  trk : List (Nat × Option Tracker) := []
  transit : List Input := []
  share : List (Nat × Share) := []
  lag : List (Nat × Option Lag) := []
  homeTab : List Nat := []
  tabDue : Bool := false
  nextVn : Nat := 1
  nextRun : Nat := 1
  abortAt : Option (Nat × Nat × Nat) := none
  deriving DecidableEq, Repr

/-- An operator descriptor (Table 09-3) in a queue, with the payload of its ADD, the tracker and run it serves, the
first accumulator slot, the credits to return when the shuttle takes it, when it started, and whether it waits for DRAIN (R345). -/
structure Desc where
  w0 : Word
  w1 : Word
  w2 : Word
  w3 : Word
  pkt : Option Pkt := none
  trk : Nat := 0
  run : Nat := 0
  first : Nat := 0
  credit : Option (Nat × Nat × Nat) := none
  startAt : Option Nat := none
  hold : Bool := false
  deriving DecidableEq, Repr

/-- A physical shuttle: descriptor queue, events waiting in the stub with their arrival, the wake in progress
(from OFF, holding a power-up place), when it became idle or parked, addends since the last reweighting, the loaded copy
of CTX_EGR and of the rotation matrix (R336). -/
structure ShtSt where
  dq : List Desc := []
  stub : List (StubEv × Nat) := []
  fromOff : Bool := false
  placed : Bool := false
  wakeAt : Nat := 0
  idleAt : Nat := 0
  addends : Nat := 0
  egr : Word := 0
  mtx : List Word := []
  deriving DecidableEq, Repr

/-- A migration before its switch cycle (R342, R343): logical shuttle, target, old shuttle, force, target cleared, and
the window operations frozen. -/
structure Mig where
  logical : Nat
  target : Nat
  old : Option Nat
  force : Bool
  cleared : Bool := false
  frozen : List Req := []
  deriving DecidableEq, Repr

/-- The shuttles: physical shuttles by die × 136 + number, the migration in progress, the migrations of a SHUTTLES panel
(Table 14-10), redirect entries (old, new), the time of each die's last reweighting, and whether the die has reweighted
since its last reset (R350). -/
structure ShtAll where
  sht : List (Nat × ShtSt) := []
  mig : Option Mig := none
  panel : List Mig := []
  redirect : List (Nat × Nat) := []
  rwAt : List Nat := [0, 0, 0, 0]
  rwDone : List Bool := [false, false, false, false]
  deriving DecidableEq, Repr

/-! ### Scheduling and time -/

/-- A token bucket: tokens in 2^-16 byte and the time of the last update. -/
structure Bucket where
  tok : Int := 0
  upd : Nat := 0
  deriving DecidableEq, Repr

/-- A calender entry: on the coarse wheel or the fine wheel, its slot, its eligible time. -/
structure CalEnt where
  coarse : Bool
  slot : Nat
  at_ : Nat
  deriving DecidableEq, Repr

/-- The egress scheduling of one queue (file 06). -/
structure QSched where
  age : Nat := 0
  granted : Bool := false
  promoted : Bool := false
  bucket : Bucket := {}
  cal : Option CalEnt := none
  starved : Option Nat := none
  lateDone : Bool := false
  headAt : Nat := 0
  deriving DecidableEq, Repr

/-- The egress arbiter and the treadling of one port: the open shed, whether the switch was locked within it (R209), a write of
unlock_act that waits, the treadling that waits to take over and the period of the old one in which it was loaded (R225). -/
structure PSched where
  ptr : List Nat := [0, 0, 0, 0, 0, 0, 0, 0]
  openShed : Option Nat := none
  shedHeld : Bool := false
  unlockPend : Option Bool := none
  newTrd : Option (List (BitVec 64)) := none
  newAfter : Nat := 0
  deriving DecidableEq, Repr

/-- A policer's buckets (R236). -/
structure Policer where
  tc : Nat := 0
  tp : Nat := 0
  upd : Nat := 0
  deriving DecidableEq, Repr

/-- Scheduling over the device: queues, ports, wheels, context shapers, policers, next due times. -/
structure SchedSt where
  q : List (Nat × QSched) := []
  p : List (Nat × PSched) := []
  fptr : List Nat := [0, 0, 0, 0]
  cptr : List Nat := [0, 0, 0, 0]
  fineAt : List Nat := [8, 8, 8, 8]
  coarseAt : List Nat := [32000, 32000, 32000, 32000]
  ctx : List (Nat × Bucket) := []
  pol : List (Nat × Policer) := []
  ageAt : Nat := 1000
  sampleAt : Nat := 0
  deriving DecidableEq, Repr

/-- Fabric time (R213 to R219): value in 1/256 ns at `upd`, the correction being slewed over `span` ns, the exchange. -/
structure TimeSt where
  val : Nat := 0
  upd : Nat := 0
  corr : Int := 0
  span : Nat := 0
  seq : Nat := 0
  t1 : Option Nat := none
  good : Nat := 0
  bad : Nat := 0
  missed : Nat := 0
  unlockedReports : Nat := 0
  nextAt : Nat := 0
  deriving DecidableEq, Repr

/-! ### Lanes -/

/-- An entry of the equalisation table (Table 11-3): lane, class, precode, lock_ctle, taps, ctle, channel loss. -/
structure EqEnt where
  lane : Nat
  cls : Nat
  precode : Bool
  lockCtle : Bool
  pre2 : Int
  pre1 : Int
  post1 : Int
  ctle : Nat
  loss : Nat := 0
  deriving DecidableEq, Repr

/-- A lane (file 11): entry into DETECT, good frames in a row, what it sends, what it has heard, settings in use (with whether
they are an override), the loss that seeds its adaptation (R373), the last level it sent (R372), removal and re-add counts, and
whether it waits to be proposed again (R398). -/
structure LaneSt where
  timer : Nat := 0
  marks : Nat := 0
  ready : Bool := false
  signal : Bool := false
  farReadyAt : Nat := 0
  txPrecode : Bool := false
  txSync0 : Bool := false
  rxSync0 : Bool := false
  eqWord : Word := 0
  main : Nat := 64
  seed : Nat := 0
  ovr : Bool := false
  txY : BitVec 2 := 0
  badRun : Nat := 0
  soak : Nat := 0
  removed : Bool := false
  readd : Bool := false
  deriving DecidableEq, Repr

/-- An agreed change of the active set (R396): its kind and mask, and whether the transmit and the receive direction have
changed. -/
structure Change where
  kind : Bool
  mask : Nat
  txDone : Bool := false
  rxDone : Bool := false
  deriving DecidableEq, Repr

/-- A width-change proposal: seq, kind 1, mask, when it was sent. -/
structure Proposal where
  seq : Nat
  kind : Bool
  mask : Nat
  at_ : Nat
  deriving DecidableEq, Repr

/-- The lanes' side of a port: join mask, the far end's (R382), first trained lane, proposals, receive set, the agreed changes
in order, electrical idle. -/
structure PortLn where
  joinMask : Nat := 0
  farMask : Option Nat := none
  firstTrained : Option Nat := none
  prop : Option Proposal := none
  lapses : Nat := 0
  stopped : Bool := false
  retry : Option Proposal := none
  rxMask : Nat := 0
  chg : List Change := []
  removing : List Nat := []
  quietAt : Option Nat := none
  eiSent : Bool := false
  rxIdle : Bool := false
  exitAt : Nat := 0
  deriving DecidableEq, Repr

/-- Lanes, their ports, and the equalisation table in force (`none`: refused or missing, R375). -/
structure LaneAll where
  lane : List (Nat × LaneSt) := []
  port : List (Nat × PortLn) := []
  eqTable : Option (List EqEnt) := none
  deriving DecidableEq, Repr

/-! ### Power (file 12) -/

/-- An entry of the power table (Table 12-5). -/
structure PwrEntry where
  rail : Nat
  method : Nat
  target : Nat
  page : Nat
  slew : Nat
  onTmo : Nat
  offTmo : Nat
  estW : Nat
  deriving DecidableEq, Repr

/-- What the Deckle remembers of a rail: since when it has been outside its window and whether that excursion is counted,
since when it has been far from its request (R422), whether it was lost before its step (R421). -/
structure RailMon where
  outSince : Option Nat := none
  counted : Bool := false
  farSince : Option Nat := none
  early : Bool := false
  deriving DecidableEq, Repr

/-- One throttle reason on one die (Table 12-9): its limit, its last raise, since when its measure has been low. -/
structure Thr where
  level : Nat := 0
  raisedAt : Option Nat := none
  lowSince : Option Nat := none
  deriving DecidableEq, Repr

/-- Power: in power-on reset; held by TEST_EN (R529); in a warm reset (Table 13-10); the power table (`none`: missing or
refused); the step of Table 12-6 or 12-7 in progress and its deadline; rails still to switch off; the wipe cut short
(R421); a VDD_CORE raise not yet good (R425); rail monitors; throttle reasons by die × 8 + reason; THROTTLE_N low; when
each die's clock stretch may end; the highest reading of each die in this minute (weave dies, then reed dies); whether the always-on
domain runs from its internal oscillator (R405); whether the warm-reset sequence of a cold start waits for RST_N to rise (R528). -/
structure PwrSt where
  por : Bool := true
  testMode : Bool := false
  warming : Bool := false
  table : Option (List PwrEntry) := none
  step : Nat := 0
  deadline : Nat := 0
  toOff : List Nat := []
  wipeCut : Bool := false
  raising : Bool := false
  mon : List (Nat × RailMon) := []
  thr : List (Nat × Thr) := []
  extLow : Bool := false
  stretchUntil : List Nat := [0, 0, 0, 0]
  minMax : List (Nat × Option Int) := []
  osc : Bool := false
  rstLow : Bool := false
  deriving DecidableEq, Repr

/-! ### Management and drafts (file 14) -/

/-- What the model keeps of the function's configuration space (Table 14-1, R475 to R478): BAR0, memory decoding and bus mastering,
D3hot, MSI-X Enable and Function Mask, and until when configuration requests are answered with Request Retry Status. -/
structure PciCfg where
  bar0 : Nat := 0
  memEn : Bool := false
  busEn : Bool := false
  d3hot : Bool := false
  msixEn : Bool := false
  msixMask : Bool := false
  deriving DecidableEq, Repr

/-- Management: the I2C target's stored offset (R485), I2C bus checks that are due (R482), the software flash operation
in progress (operation, address, bytes), the Selvedge half written next, a Selvedge write that waits for one in progress,
PCIE_PERST_N low; the configuration space and the end of Request Retry Status (R477); Deckle transfers that wait on controller 1
(R480); whether the flash operation waits behind a Selvedge write (R489); the BAR writes of the present cycle (R515). -/
structure MgtSt where
  tgtOff : Nat := 0
  i2cDue : List Bool := [true, true]
  spi : Option (Nat × Nat × Nat) := none
  selHalf : Nat := 0
  selAgain : Bool := false
  perstLow : Bool := false
  cfg : PciCfg := {}
  crsUntil : Nat := 0
  i2cWait : List Output := []
  spiWait : Bool := false
  barAt : Nat := 0
  barNow : List (Nat × Word) := []
  deriving DecidableEq, Repr

/-- A live load (R498): its slot, the panels still to reload as (kind, region), the panel that drains, since when, the
ports it drains, and whether any panel was applied. -/
structure LiveLoad where
  slot : Nat
  verified : Bool := false
  todo : List (Nat × Nat) := []
  draining : Option (Nat × Nat) := none
  since : Nat := 0
  ports : List Nat := []
  applied : Bool := false
  deriving DecidableEq, Repr

/-- Drafts: the slot whose panel each region holds, by kind × 4,096 + region (R500), and the load in progress. -/
structure DrfSt where
  slotOf : List (Nat × Option Nat) := []
  load : Option LiveLoad := none
  deriving DecidableEq, Repr

/-! ### Memory errors and the JTAG port -/

/-- Memory words that hold an error (R175, R315): by cell pointer and by scratchpad address ÷ 8, `true` for an uncorrectable
one; the physical shuttles whose scratchpad will fail its test (R340); the ports whose Q1 a bad shed entry stops, and the contexts
whose bad entry has yet to reset them (R447); whether the fuses will be read with an error (Table 13-2, FUSE_ERR). -/
structure EccSt where
  cells : List (Nat × Option Bool) := []
  words : List (Nat × Option Bool) := []
  badSht : List Nat := []
  q1Stop : List Nat := []
  ctxDue : List Nat := []
  fuseBad : Bool := false
  deriving DecidableEq, Repr

/-- The states of the TAP controller of IEEE 1149.1 (R533). -/
inductive Tap where
  | reset | idle
  | selDr | capDr | shiftDr | exit1Dr | pauseDr | exit2Dr | updDr
  | selIr | capIr | shiftIr | exit1Ir | pauseIr | exit2Ir | updIr
  deriving DecidableEq, Repr

/-- The instructions of the JTAG port by what they need (Table 14-11): IDCODE, BYPASS, boundary scan (IEEE 1149.1 and 1149.6),
internal scan and debug. -/
inductive JtagIns where
  | idcode | bypass | boundary | internal
  deriving DecidableEq, Repr

/-- The JTAG port: its controller, the instruction in force and the data register being shifted, TDO (`none`: not driven), and
whether the lane contacts take part in the boundary scan. -/
structure JtagSt where
  tap : Tap := .reset
  ir : JtagIns := .idcode
  dr : List Bool := []
  tdo : Option Bool := none
  lanes : Bool := false
  deriving DecidableEq, Repr

/-! ### The whole block -/

/-- The state of the block. `pending` is the queue of waiting commands, first in first out; `now` counts ns since
the model's start, `tbase0` is its value
at the last power-on or warm reset, `ponAt` at power-on, `ponBase` the power-on seconds before that; `out`, `free` and `now` are the model's own. -/
structure State where
  pending : List Instr
  now : Nat
  tbase0 : Nat
  ponAt : Nat
  ponBase : Nat
  free : Nat
  out : List Output
  regs : List (Nat × Word)
  latch : List (Nat × Word)
  fuses : Fuses
  mem : Mem
  flt : FaultSt
  ctxRst : Option CtxReset
  fab : FabSt
  core : CoreSt
  link : List (Nat × LinkSt)
  disc : DiscSt
  rte : RteSt
  grp : GrpSt
  shts : ShtAll
  sched : SchedSt
  time : TimeSt
  lanes : LaneAll
  pwr : PwrSt
  mgt : MgtSt
  drf : DrfSt
  ecc : EccSt
  jtag : JtagSt
  deriving DecidableEq, Repr

/-- The block right after reset: in power-on reset (R528), every register at its reset value, every memory, table and
queue empty, no draft. -/
def State.reset : State :=
  { pending := [], now := 0, tbase0 := 0, ponAt := 0, ponBase := 0, free := 0, out := [], regs := [], latch := [],
    fuses := {}, mem := {}, flt := {}, ctxRst := none, fab := {}, core := {}, link := [], disc := {}, rte := {},
    grp := {}, shts := {}, sched := {}, time := {}, lanes := {}, pwr := {}, mgt := {}, drf := {}, ecc := {}, jtag := {} }

end Sys2Proof.Machine
end

