-- ==== Sys2Proof/Machine/Ops.lean ====
section
/-! DEFINITION. Named operations over the registers, counters, memories, records and outputs. -/

namespace Sys2Proof.Machine

/-! ### Bits and lists -/

/-- Bits `[lo + width - 1 : lo]` of a number. -/
def bits (n lo width : Nat) : Nat := n / 2 ^ lo % 2 ^ width

/-- Bit `k` of a number. -/
def bitOf (n k : Nat) : Bool := n / 2 ^ k % 2 = 1

/-- 1 for true. -/
def ofBool (b : Bool) : Nat := if b then 1 else 0

/-- The list with entry `i` replaced. -/
def setAt {α : Type} (l : List α) (i : Nat) (v : α) : List α := l.set i v

/-- Entry `i` of a list of numbers, 0 past its end. -/
def nth (l : List Nat) (i : Nat) : Nat := l.getD i 0

/-- ceil(a / b), with b = 0 as 1. -/
def ceilDiv (a b : Nat) : Nat := (a + (max b 1) - 1) / (max b 1)

/-- min(a, b) for a saturating value of `w` bits (R12). -/
def saturate (w n : Nat) : Nat := min n (2 ^ w - 1)

/-- The numbers below `n`. -/
def upTo (n : Nat) : List Nat := List.range n

/-- Applies `f` to each member of `l` in order. -/
def forEach {α σ : Type} (l : List α) (f : α → σ → σ) (s : σ) : σ := l.foldl (fun s a => f a s) s

/-- `n` as a little-endian list of `k` bytes (R2). -/
def leBytes : Nat → Nat → List Byte
  | 0, _ => []
  | k + 1, n => BitVec.ofNat 8 n :: leBytes k (n / 256)

/-- The number that a little-endian list of bytes spells (R2). -/
def ofLe : List Byte → Nat
  | [] => 0
  | b :: rest => b.toNat + 256 * ofLe rest

/-! ### Registers -/

/-- The reset value of a register: the reset fields of its table row; an unassigned offset holds 0 (R8). -/
def regDefault (off : Nat) : Word :=
  (regFields off).foldl (fun w f => w ||| (BitVec.ofNat 32 f.reset <<< f.lo)) 0

/-- The mask of `width` bits from `lo`. -/
def fieldMask (lo width : Nat) : Word := (BitVec.ofNat 32 (2 ^ width - 1)) <<< lo

/-- Replaces bits `[lo + width - 1 : lo]` of a word by the low bits of `n`. -/
def putBits (w : Word) (lo width n : Nat) : Word :=
  (w &&& ~~~ fieldMask lo width) ||| ((BitVec.ofNat 32 n <<< lo) &&& fieldMask lo width)

namespace State

/-- The stored value of the register at BAR offset `off`. -/
def rd (s : State) (off : Nat) : Word := Sparse.get regDefault s.regs off

/-- Stores a register's value. -/
def wr (s : State) (off : Nat) (v : Word) : State := { s with regs := Sparse.put regDefault s.regs off v }

/-- The value of a register field. -/
def fld (s : State) (f : FieldRef) : Nat := bits (s.rd f.off).toNat f.lo f.width

/-- Whether a one-bit field is 1. -/
def flag (s : State) (f : FieldRef) : Bool := s.fld f != 0

/-- Sets a register field, as hardware does. -/
def setFld (f : FieldRef) (n : Nat) (s : State) : State := s.wr f.off (putBits (s.rd f.off) f.lo f.width n)

/-- Sets a one-bit field. -/
def setFlag (f : FieldRef) (b : Bool) (s : State) : State := s.setFld f (ofBool b)

/-- Adds `n` to a counter field, which saturates (R12). -/
def bumpBy (f : FieldRef) (n : Nat) (s : State) : State := s.setFld f (saturate f.width (s.fld f + n))

/-- Counts one event (R12). -/
def bump (f : FieldRef) (s : State) : State := s.bumpBy f 1

/-- What a software write of `v` leaves of one field (Table 00-3): RW stores, W1C clears, W1S sets, the others keep. -/
def storeField (v : Word) (w : Word) (f : FieldSpec) : Word :=
  let m := fieldMask f.lo f.width
  match f.access with
  | .rw => (w &&& ~~~ m) ||| (v &&& m)
  | .w1c => w &&& ~~~ (v &&& m)
  | .w1s => w ||| (v &&& m)
  | .ro | .wo | .rc | .dl => w

/-- A 32-bit software write by access type (R6, R7, R9); the effects of WO fields are the registers' own rules. -/
def storeReg (off : Nat) (v : Word) (s : State) : State :=
  s.wr off ((regFields off).foldl (storeField v) (s.rd off))

/-- Appends to the trace of outputs. -/
def emit (o : Output) (s : State) : State := { s with out := s.out ++ [o] }

/-- Draws the next free value, for `k` to use. -/
def withFree (s : State) (k : Nat → State → State) : State :=
  k (Config.freeNat s.free) { s with free := s.free + 1 }

/-- The device time base in ns (R520). -/
def tbase (s : State) : Nat := s.now - s.tbase0

/-! ### Memories -/

/-- One byte of the scratchpads; key (physical shuttle × 256 + sheet) × 4,096 + byte. -/
def sheetByte (s : State) (a : Nat) : Byte := Sparse.get (fun _ => 0) s.mem.sheets a

/-- Writes one scratchpad byte. -/
def setSheetByte (a : Nat) (b : Byte) (s : State) : State :=
  { s with mem := { s.mem with sheets := Sparse.put (fun _ => 0) s.mem.sheets a b } }

/-- One flash byte; an erased byte reads 0xFF. -/
def flashByte (s : State) (a : Nat) : Byte := Sparse.get (fun _ => 0xFF) s.mem.flash a

/-- Writes one flash byte. -/
def setFlashByte (a : Nat) (b : Byte) (s : State) : State :=
  { s with mem := { s.mem with flash := Sparse.put (fun _ => 0xFF) s.mem.flash a b } }

/-- One byte of the capture buffer (R466). -/
def capByte (s : State) (a : Nat) : Byte := Sparse.get (fun _ => 0) s.mem.cap a

/-- Writes one capture-buffer byte. -/
def setCapByte (a : Nat) (b : Byte) (s : State) : State :=
  { s with mem := { s.mem with cap := Sparse.put (fun _ => 0) s.mem.cap a b } }

/-- One byte of the Selvedge staging record (Table 13-11). -/
def selByte (s : State) (a : Nat) : Byte := Sparse.get (fun _ => 0) s.mem.sel a

/-- Writes one byte of the Selvedge staging record. -/
def setSelByte (a : Nat) (b : Byte) (s : State) : State :=
  { s with mem := { s.mem with sel := Sparse.put (fun _ => 0) s.mem.sel a b } }

end State

/-- Writes a list of bytes from address `a` upward with a byte writer. -/
def writeBytes (put : Nat → Byte → State → State) : Nat → List Byte → State → State
  | _, [], s => s
  | a, b :: rest, s => writeBytes put (a + 1) rest (put a b s)

/-- `n` bytes read from address `a` upward with a byte reader. -/
def readBytes (get : Nat → Byte) (a n : Nat) : List Byte := (upTo n).map fun i => get (a + i)

/-- Keeps the bytes of a memory whose address fails `drop`. -/
def eraseCells (drop : Nat → Bool) (m : List Host.Cell) : List Host.Cell := m.filter fun c => !drop c.1

namespace State

/-- A 32-bit word of the Selvedge staging record. -/
def selWord (s : State) (a : Nat) : Nat := ofLe (readBytes s.selByte a 4)

/-- Writes a 32-bit word of the Selvedge staging record. -/
def setSelWord (a n : Nat) (s : State) : State := writeBytes setSelByte a (leBytes 4 n) s

/-- Counts in a saturating 32-bit counter of the Selvedge staging record (Table 13-11). -/
def bumpSel (a : Nat) (s : State) : State := s.setSelWord a (saturate 32 (s.selWord a + 1))

/-- The power-on time in seconds (GLB_PON_TIME). -/
def ponSeconds (s : State) : Nat := saturate 32 (s.ponBase + (s.now - s.ponAt) / 1000000000)

/-! ### Per-unit records -/

/-- The link record of a port. -/
def lnk (s : State) (p : Nat) : LinkSt := Sparse.get (fun _ => {}) s.link p

/-- Changes the link record of a port. -/
def onLnk (p : Nat) (f : LinkSt → LinkSt) (s : State) : State :=
  { s with link := Sparse.put (fun _ => {}) s.link p (f (s.lnk p)) }

/-- The discovery record of a port. -/
def pdisc (s : State) (p : Nat) : PortDisc := Sparse.get (fun _ => {}) s.disc.ports p

/-- Changes the discovery record of a port. -/
def onPdisc (p : Nat) (f : PortDisc → PortDisc) (s : State) : State :=
  { s with disc := { s.disc with ports := Sparse.put (fun _ => {}) s.disc.ports p (f (s.pdisc p)) } }

/-- The scheduling record of a queue, key port × 8 + queue. -/
def qsch (s : State) (k : Nat) : QSched := Sparse.get (fun _ => {}) s.sched.q k

/-- Changes the scheduling record of a queue. -/
def onQsch (k : Nat) (f : QSched → QSched) (s : State) : State :=
  { s with sched := { s.sched with q := Sparse.put (fun _ => {}) s.sched.q k (f (s.qsch k)) } }

/-- The scheduling record of a port. -/
def psch (s : State) (p : Nat) : PSched := Sparse.get (fun _ => {}) s.sched.p p

/-- Changes the scheduling record of a port. -/
def onPsch (p : Nat) (f : PSched → PSched) (s : State) : State :=
  { s with sched := { s.sched with p := Sparse.put (fun _ => {}) s.sched.p p (f (s.psch p)) } }

/-- An outstanding-request entry. -/
def ortE (s : State) (e : Nat) : OrtEntry := Sparse.get (fun _ => {}) s.fab.ort e

/-- Sets an outstanding-request entry. -/
def setOrt (e : Nat) (v : OrtEntry) (s : State) : State :=
  { s with fab := { s.fab with ort := Sparse.put (fun _ => {}) s.fab.ort e v } }

/-- A directory entry. -/
def dirE (s : State) (n : Nat) : DirEntry := Sparse.get (fun _ => {}) s.fab.dir n

/-- Sets a directory entry. -/
def setDir (n : Nat) (v : DirEntry) (s : State) : State :=
  { s with fab := { s.fab with dir := Sparse.put (fun _ => {}) s.fab.dir n v } }

/-- A fan-out record, `none` when free. -/
def fanE (s : State) (r : Nat) : Option Fanout := Sparse.get (fun _ => none) s.fab.fan r

/-- Sets a fan-out record. -/
def setFan (r : Nat) (v : Option Fanout) (s : State) : State :=
  { s with fab := { s.fab with fan := Sparse.put (fun _ => none) s.fab.fan r v } }

/-- The versions of a routing entry. -/
def rver (s : State) (k : Nat) : RouteVer := Sparse.get (fun _ => {}) s.rte.ver k

/-- Changes the versions of a routing entry. -/
def onRver (k : Nat) (f : RouteVer → RouteVer) (s : State) : State :=
  { s with rte := { s.rte with ver := Sparse.put (fun _ => {}) s.rte.ver k (f (s.rver k)) } }

/-- A cell link RAM entry, by cell pointer (Table 05-1). -/
def cell (s : State) (c : Nat) : CellEnt := Sparse.get (fun _ => {}) s.core.cells c

/-- Sets a cell link RAM entry. -/
def setCell (c : Nat) (v : CellEnt) (s : State) : State :=
  { s with core := { s.core with cells := Sparse.put (fun _ => {}) s.core.cells c v } }

/-- The copies of an egress queue, head first; key port × 8 + queue. -/
def eqQ (s : State) (k : Nat) : List Copy := Sparse.get (fun _ => []) s.core.eq k

/-- Sets an egress queue. -/
def setEq (k : Nat) (l : List Copy) (s : State) : State :=
  { s with core := { s.core with eq := Sparse.put (fun _ => []) s.core.eq k l } }

/-- The copies of a crossbar queue; key source die × 4,096 + port × 8 + queue. -/
def xqQ (s : State) (k : Nat) : List Copy := Sparse.get (fun _ => []) s.core.xq k

/-- Sets a crossbar queue. -/
def setXq (k : Nat) (l : List Copy) (s : State) : State :=
  { s with core := { s.core with xq := Sparse.put (fun _ => []) s.core.xq k l } }

/-- The packets waiting for admission; key port × 8 + queue of ingress, or 8,192 + port × 8 + queue of origin. -/
def waitQ (s : State) (k : Nat) : List Waiting := Sparse.get (fun _ => []) s.core.wait k

/-- Sets a list of packets waiting for admission. -/
def setWait (k : Nat) (l : List Waiting) (s : State) : State :=
  { s with core := { s.core with wait := Sparse.put (fun _ => []) s.core.wait k l } }

/-- The cells charged to an account; key die × 2,048 + account code. -/
def usedC (s : State) (k : Nat) : Nat := Sparse.get (fun _ => 0) s.core.used k

/-- Sets the cells charged to an account. -/
def setUsed (k n : Nat) (s : State) : State :=
  { s with core := { s.core with used := Sparse.put (fun _ => 0) s.core.used k n } }

/-- A group-table entry. -/
def grpE (s : State) (g : Nat) : GrpEnt := Sparse.get (fun _ => {}) s.grp.ent g

/-- Sets a group-table entry. -/
def setGrpE (g : Nat) (v : GrpEnt) (s : State) : State :=
  { s with grp := { s.grp with ent := Sparse.put (fun _ => {}) s.grp.ent g v } }

/-- A stream tracker, `none` when FREE. -/
def trkE (s : State) (t : Nat) : Option Tracker := Sparse.get (fun _ => none) s.grp.trk t

/-- Sets a stream tracker. -/
def setTrk (t : Nat) (v : Option Tracker) (s : State) : State :=
  { s with grp := { s.grp with trk := Sparse.put (fun _ => none) s.grp.trk t v } }

/-- The record of a physical shuttle. -/
def sht (s : State) (p : Nat) : ShtSt := Sparse.get (fun _ => {}) s.shts.sht p

/-- Changes the record of a physical shuttle. -/
def onSht (p : Nat) (f : ShtSt → ShtSt) (s : State) : State :=
  { s with shts := { s.shts with sht := Sparse.put (fun _ => {}) s.shts.sht p (f (s.sht p)) } }

/-- The record of a lane. -/
def lane (s : State) (n : Nat) : LaneSt := Sparse.get (fun _ => {}) s.lanes.lane n

/-- Changes the record of a lane. -/
def onLane (n : Nat) (f : LaneSt → LaneSt) (s : State) : State :=
  { s with lanes := { s.lanes with lane := Sparse.put (fun _ => {}) s.lanes.lane n (f (s.lane n)) } }

/-- The lanes' record of a port. -/
def pln (s : State) (p : Nat) : PortLn := Sparse.get (fun _ => {}) s.lanes.port p

/-- Changes the lanes' record of a port. -/
def onPln (p : Nat) (f : PortLn → PortLn) (s : State) : State :=
  { s with lanes := { s.lanes with port := Sparse.put (fun _ => {}) s.lanes.port p (f (s.pln p)) } }

/-- The error that a cell's data holds: `some true` an uncorrectable one (R175). -/
def cellErr (s : State) (c : Nat) : Option Bool := Sparse.get (fun _ => none) s.ecc.cells c

/-- Sets it. -/
def setCellErr (c : Nat) (v : Option Bool) (s : State) : State :=
  { s with ecc := { s.ecc with cells := Sparse.put (fun _ => none) s.ecc.cells c v } }

/-- The error that a 64-bit scratchpad word holds, by address ÷ 8 (R315). -/
def wordErr (s : State) (w : Nat) : Option Bool := Sparse.get (fun _ => none) s.ecc.words w

/-- Sets it. -/
def setWordErr (w : Nat) (v : Option Bool) (s : State) : State :=
  { s with ecc := { s.ecc with words := Sparse.put (fun _ => none) s.ecc.words w v } }

end State

end Sys2Proof.Machine
end

