-- ==== Sys2Proof/Machine/Crc.lean ====
section
/-! DEFINITION. CRC-32C (R104) and the SMBus CRC-8 (R483). -/

namespace Sys2Proof.Machine

/-- One bit step of the reflected CRC-32C, polynomial 0x1EDC6F41. -/
def crcBit (c : Word) : Word := if c.getLsbD 0 then (c >>> 1) ^^^ 0x82F63B78#32 else c >>> 1

/-- `k` bit steps. -/
def crcBits : Nat → Word → Word
  | 0, c => c
  | k + 1, c => crcBits k (crcBit c)

/-- One byte into the CRC register. -/
def crcByte (c : Word) (b : Byte) : Word := crcBits 8 (c ^^^ b.setWidth 32)

/-- CRC-32C of a list of bytes (R104). -/
def crc32c (l : List Byte) : Word := (l.foldl crcByte 0xFFFFFFFF#32) ^^^ 0xFFFFFFFF#32

/-- One bit step of the SMBus CRC-8, polynomial x^8 + x^2 + x + 1. -/
def pecBit (c : Byte) : Byte := if c.getLsbD 7 then (c <<< 1) ^^^ 0x07#8 else c <<< 1

/-- `k` bit steps. -/
def pecBits : Nat → Byte → Byte
  | 0, c => c
  | k + 1, c => pecBits k (pecBit c)

/-- The PEC of a list of bytes (R483). -/
def pec (l : List Byte) : Byte := l.foldl (fun c b => pecBits 8 (c ^^^ b)) 0

end Sys2Proof.Machine
end

