-- ==== Sys2Proof/Machine/Operands.lean ====
section
/-! DEFINITION. The forms in which packets and link-control units travel (file 03): operation, status, operator and
format codes, the header layouts of Tables 03-4, 03-5, 03-7 and 03-8, the link-control unit of Table 03-10, packet
lengths (R92, R93), the addresses of file 02. Encoders and decoders are written from the same tables. -/

namespace Sys2Proof.Machine

/-! ### Codes -/

/-- Table 02-4. -/
def opCode : Op → BitVec 5
  | .load => 0x00 | .store => 0x01 | .fadd => 0x02 | .swap => 0x03 | .cas => 0x04 | .acc => 0x05
  | .rdS => 0x08 | .rdM => 0x09 | .upg => 0x0A | .wb => 0x0B | .inv => 0x0C | .rcl => 0x0D | .cpl => 0x1F
  | .reserved c => c

/-- Table 02-4, read back. -/
def opOf (c : BitVec 5) : Op :=
  if c = 0x00 then .load else if c = 0x01 then .store else if c = 0x02 then .fadd else if c = 0x03 then .swap
  else if c = 0x04 then .cas else if c = 0x05 then .acc else if c = 0x08 then .rdS else if c = 0x09 then .rdM
  else if c = 0x0A then .upg else if c = 0x0B then .wb else if c = 0x0C then .inv else if c = 0x0D then .rcl
  else if c = 0x1F then .cpl else .reserved c

/-- Table 02-7. -/
def statusCode : Status → BitVec 4
  | .ok => 0x0 | .notHeld => 0x1 | .addrErr => 0x2 | .access => 0x3 | .align => 0x4 | .unsup => 0x5
  | .timeout => 0x6 | .poison => 0x7 | .tagQuar => 0x8 | .tagErr => 0x9 | .opMismatch => 0xA | .unreach => 0xB
  | .reserved c => c

/-- Table 02-7, read back. -/
def statusOf (c : BitVec 4) : Status :=
  if c = 0x0 then .ok else if c = 0x1 then .notHeld else if c = 0x2 then .addrErr else if c = 0x3 then .access
  else if c = 0x4 then .align else if c = 0x5 then .unsup else if c = 0x6 then .timeout else if c = 0x7 then .poison
  else if c = 0x8 then .tagQuar else if c = 0x9 then .tagErr else if c = 0xA then .opMismatch
  else if c = 0xB then .unreach else .reserved c

/-- Table 02-5. -/
def operatorCode : Operator → BitVec 4
  | .sum => 0x0 | .min => 0x1 | .max => 0x2 | .and => 0x3 | .or => 0x4 | .xor => 0x5 | .smerge => 0x6
  | .reserved c => c

/-- Table 02-5, read back. -/
def operatorOf (c : BitVec 4) : Operator :=
  if c = 0x0 then .sum else if c = 0x1 then .min else if c = 0x2 then .max else if c = 0x3 then .and
  else if c = 0x4 then .or else if c = 0x5 then .xor else if c = 0x6 then .smerge else .reserved c

/-- Table 02-6. -/
def formatCode : Format → BitVec 4
  | .fp32 => 0x0 | .bf16 => 0x1 | .fp16 => 0x2 | .fp8e4m3 => 0x3 | .fp8e5m2 => 0x4 | .mxfp8e4m3 => 0x5
  | .mxfp8e5m2 => 0x6 | .mxfp6e3m2 => 0x7 | .mxfp6e2m3 => 0x8 | .mxfp4e2m1 => 0x9 | .mxint8 => 0xA
  | .int32 => 0xB | .int64 => 0xC | .reserved c => c

/-- Table 02-6, read back. -/
def formatOf (c : BitVec 4) : Format :=
  if c = 0x0 then .fp32 else if c = 0x1 then .bf16 else if c = 0x2 then .fp16 else if c = 0x3 then .fp8e4m3
  else if c = 0x4 then .fp8e5m2 else if c = 0x5 then .mxfp8e4m3 else if c = 0x6 then .mxfp8e5m2
  else if c = 0x7 then .mxfp6e3m2 else if c = 0x8 then .mxfp6e2m3 else if c = 0x9 then .mxfp4e2m1
  else if c = 0xA then .mxint8 else if c = 0xB then .int32 else if c = 0xC then .int64 else .reserved c

/-! ### Lengths -/

/-- len = len_m1 + 1. -/
def pktLen (p : Packet) : Nat := p.lenM1.toNat + 1

/-- The payload size of a data packet (Table 03-3). -/
def payloadSize (op : Op) (dat : Bool) (len : Nat) : Nat :=
  match op with
  | .load | .rdS | .rdM | .upg | .inv | .rcl => 0
  | .store | .acc | .fadd | .swap => len
  | .cas => 2 * len
  | .wb => 64
  | .cpl => if dat then len else 0
  | .reserved _ => len

/-- The header size in bytes (Table 03-2). -/
def hdrSize : HdrForm → Nat
  | .compact => 16
  | .direct => 32

/-- The link units of a data packet of header `h` and payload `n` bytes (R92). -/
def luOf (h n : Nat) : Nat := ceilDiv (h + n + 4) 64

/-- The link units of a packet (R92). -/
def nLuOf : Pkt → Nat
  | .ctl _ => 1
  | .data p => luOf (hdrSize p.form) (payloadSize p.op p.dat (pktLen p))

/-- The queue of a packet. -/
def qOf : Pkt → Nat
  | .ctl c => c.queue.toNat
  | .data p => p.queue.toNat

/-! ### Words and bytes -/

/-- The four bytes of a word, little-endian (R89). -/
def wordBytes (w : Word) : List Byte :=
  [w.extractLsb' 0 8, w.extractLsb' 8 8, w.extractLsb' 16 8, w.extractLsb' 24 8]

/-- The word at byte offset `a` of a list, little-endian; bytes past the end read 0 (R89). -/
def wordAt (l : List Byte) (a : Nat) : Word :=
  l.getD (a + 3) 0 ++ l.getD (a + 2) 0 ++ l.getD (a + 1) 0 ++ l.getD a 0

/-- One bit of a Bool. -/
def bit1 (b : Bool) : BitVec 1 := BitVec.ofBool b

/-- Pads or cuts a list of bytes to `n`. -/
def padTo (n : Nat) (l : List Byte) : List Byte := l.take n ++ List.replicate (n - l.length) 0

/-! ### Data headers -/

/-- Word 0 of both data headers (Table 03-4). -/
def dataWord0 (hk : BitVec 2) (p : Packet) : Word :=
  hk ++ opCode p.op ++ p.queue ++ bit1 p.ord ++ statusCode p.status ++ bit1 p.nm ++ bit1 p.ssw ++ p.src

/-- The header words of a data packet (Tables 03-4, 03-5, 03-7). -/
def headerWords (p : Packet) : List Word :=
  match p.form with
  | .compact =>
    if p.op = .acc then
      [dataWord0 1#2 p,
       operatorCode p.operator ++ formatCode p.format ++ p.address.extractLsb' 37 14 ++ 0#5 ++ p.address.extractLsb' 32 5,
       p.lenM1 ++ p.ctx ++ 0#8,
       p.address.extractLsb' 0 32]
    else
      [dataWord0 1#2 p,
       p.ftag ++ p.dst ++ bit1 p.dsw,
       p.lenM1 ++ p.ctx ++ (if p.op = .cpl then 0#7 ++ bit1 p.dat else p.handle),
       p.offset]
  | .direct =>
    [dataWord0 2#2 p,
     p.ftag ++ operatorCode p.operator ++ formatCode p.format ++ 0#8,
     p.lenM1 ++ p.ctx ++ 0#7 ++ bit1 p.dat,
     0#32,
     p.address.extractLsb' 0 32,
     p.address.extractLsb' 32 32,
     p.epoch ++ bit1 p.tree ++ p.stage ++ p.lclass ++ 0#9,
     0#9 ++ p.pick]

/-- The bytes of a data packet before its CRC: header, payload and zero padding (R92). -/
def dataBody (p : Packet) : List Byte :=
  let l := (headerWords p).flatMap wordBytes ++ p.payload
  padTo (64 * nLuOf (.data p) - 4) l

/-- The bytes of a data packet with its CRC (R92, R104). -/
def encodeData (p : Packet) : List Byte := dataBody p ++ wordBytes (crc32c (dataBody p))

/-- The packet that a data header and payload spell, the CRC apart; `none` for another header kind. -/
def decodeData (l : List Byte) : Option Packet :=
  let w0 := wordAt l 0
  let w1 := wordAt l 4
  let w2 := wordAt l 8
  let w3 := wordAt l 12
  let hk := w0.extractLsb' 30 2
  let op := opOf (w0.extractLsb' 25 5)
  let lenM1 := w2.extractLsb' 20 12
  let base : Packet :=
    { form := .compact, op := op, queue := w0.extractLsb' 22 3, ord := w0.getLsbD 21,
      status := statusOf (w0.extractLsb' 17 4), nm := w0.getLsbD 16, ssw := w0.getLsbD 15,
      src := w0.extractLsb' 0 15, ftag := 0, dst := 0, dsw := false, lenM1 := lenM1, ctx := w2.extractLsb' 8 12,
      handle := 0, dat := false, offset := 0, operator := .sum, format := .fp32, address := 0, epoch := 0,
      tree := false, stage := 0, lclass := 0, pick := 0, payload := [] }
  if hk = 1#2 then
    if op = .acc then
      some { base with
        operator := operatorOf (w1.extractLsb' 28 4), format := formatOf (w1.extractLsb' 24 4),
        address := 1#1 ++ w2.extractLsb' 8 12 ++ w1.extractLsb' 10 14 ++ w1.extractLsb' 0 5 ++ w3,
        payload := (l.drop 16).take (lenM1.toNat + 1) }
    else
      let dat := op = .cpl && w2.getLsbD 0
      some { base with
        ftag := w1.extractLsb' 16 16, dst := w1.extractLsb' 1 15, dsw := w1.getLsbD 0,
        handle := if op = .cpl then 0 else w2.extractLsb' 0 8, dat := dat, offset := w3,
        payload := (l.drop 16).take (payloadSize op dat (lenM1.toNat + 1)) }
  else if hk = 2#2 then
    let w6 := wordAt l 24
    let w7 := wordAt l 28
    some { base with
      form := .direct, ftag := w1.extractLsb' 16 16, operator := operatorOf (w1.extractLsb' 12 4),
      format := formatOf (w1.extractLsb' 8 4), dat := w2.getLsbD 0, address := wordAt l 20 ++ wordAt l 16,
      epoch := w6.extractLsb' 16 16, tree := w6.getLsbD 15, stage := w6.extractLsb' 13 2,
      lclass := w6.extractLsb' 9 4, pick := w7.extractLsb' 0 23,
      payload := (l.drop 32).take (payloadSize op (w2.getLsbD 0) (lenM1.toNat + 1)) }
  else none

/-! ### Control packets -/

/-- Word 0 of a control packet (Table 03-8). -/
def ctlWord0 (c : Ctl) : Word := 0#2 ++ c.ckind ++ c.queue ++ c.lenM1 ++ c.ks

/-- The bytes of a control packet that its CRC covers (R101). -/
def ctlCovered (c : Ctl) : List Byte :=
  wordBytes (ctlWord0 c) ++ wordBytes c.w1 ++ wordBytes c.w2 ++ padTo 48 c.body

/-- The 64 bytes of a control packet (R101). -/
def encodeCtl (c : Ctl) : List Byte :=
  wordBytes (ctlWord0 c) ++ wordBytes c.w1 ++ wordBytes c.w2 ++ wordBytes (crc32c (ctlCovered c)) ++ padTo 48 c.body

/-- The control packet that 64 bytes spell, the CRC apart (Table 03-8). -/
def decodeCtl (l : List Byte) : Ctl :=
  let w0 := wordAt l 0
  { ckind := w0.extractLsb' 25 5, queue := w0.extractLsb' 22 3, lenM1 := w0.extractLsb' 16 6,
    ks := w0.extractLsb' 0 16, w1 := wordAt l 4, w2 := wordAt l 8, body := (l.drop 16).take 48 }

/-! ### Packets -/

/-- The bytes of a packet on the wire. -/
def encodePkt : Pkt → List Byte
  | .data p => encodeData p
  | .ctl c => encodeCtl c

/-- The packet that the bytes of its link units spell, the CRC apart. -/
def decodePkt (l : List Byte) : Option Pkt :=
  if (wordAt l 0).extractLsb' 30 2 = 0#2 then some (.ctl (decodeCtl l)) else (decodeData l).map .data

/-- What the receiver's CRC check finds in the bytes of a whole packet (R105). -/
def crcCheck (l : List Byte) : Crc :=
  let isCtl := (wordAt l 0).extractLsb' 30 2 = 0#2
  let got := if isCtl then wordAt l 12 else wordAt l (l.length - 4)
  let want := if isCtl then crc32c (l.take 12 ++ l.drop 16) else crc32c (l.take (l.length - 4))
  if got = want then .good else if got = want ^^^ 0xFFFFFFFF#32 then .stomped else .bad

/-- The link units that a packet needs, read from its first link unit (R93); `none` for header kind 0b11 (R91). -/
def luNeed (first : List Byte) : Option Nat :=
  let hk := (wordAt first 0).extractLsb' 30 2
  if hk = 0#2 then some 1
  else if hk = 3#2 then none
  else (decodeData first).map fun p => luOf (hdrSize p.form) (payloadSize p.op p.dat (pktLen p))

/-- The link units of a packet's bytes, with their markers (Table 03-1). -/
def linkUnits (l : List Byte) (n : Nat) : List LinkUnit :=
  (upTo n).map fun i => { marker := if i = 0 then 1#2 else 2#2, bytes := (l.drop (64 * i)).take 64 }

/-! ### Link-control units (Table 03-10) -/

/-- The covered bytes of a link-control unit. -/
def lcuCovered (u : Lcu) : List Byte :=
  let lim (i : Nat) : BitVec 16 := u.lims.getD i 0
  wordBytes (u.txSeq ++ u.ackSeq)
    ++ wordBytes (u.nakSeq ++ 0#8 ++ bit1 u.init ++ bit1 u.pseen ++ bit1 u.ucnt ++ bit1 u.rpl ++ bit1 u.nakVld
        ++ bit1 u.ackVld ++ 0#2)
    ++ wordBytes (lim 1 ++ lim 0) ++ wordBytes (lim 3 ++ lim 2) ++ wordBytes (lim 5 ++ lim 4)
    ++ wordBytes (lim 7 ++ lim 6) ++ List.replicate 36 0

/-- The 64 bytes of a link-control unit. -/
def encodeLcu (u : Lcu) : List Byte := lcuCovered u ++ wordBytes (crc32c (lcuCovered u))

/-- The link-control unit that 64 bytes spell; `none` when its CRC does not match (R107). -/
def decodeLcu (l : List Byte) : Option Lcu :=
  if wordAt l 0x3C = crc32c (l.take 0x3C) then
    let w0 := wordAt l 0
    let w1 := wordAt l 4
    let half (w : Word) : List (BitVec 16) := [w.extractLsb' 0 16, w.extractLsb' 16 16]
    some { txSeq := w0.extractLsb' 16 16, ackSeq := w0.extractLsb' 0 16, nakSeq := w1.extractLsb' 16 16,
           init := w1.getLsbD 7, pseen := w1.getLsbD 6, ucnt := w1.getLsbD 5, rpl := w1.getLsbD 4,
           nakVld := w1.getLsbD 3, ackVld := w1.getLsbD 2,
           lims := half (wordAt l 8) ++ half (wordAt l 12) ++ half (wordAt l 16) ++ half (wordAt l 20) }
  else none

/-! ### Addresses (file 02) -/

/-- Bit 63 of a fabric address: a group address (R31). -/
def isGroupAddr (a : BitVec 64) : Bool := a.getLsbD 63

/-- The endpoint ID of a global address (Table 02-1). -/
def addrEp (a : BitVec 64) : Nat := bits a.toNat 48 15

/-- The byte offset of a global address. -/
def addrOff (a : BitVec 64) : Nat := bits a.toNat 0 48

/-- A switch-window address (R34). -/
def isWindowAddr (a : BitVec 64) : Bool := !isGroupAddr a && 0xFFFFFC000000 ≤ addrOff a

/-- The window offset of a switch-window address (R34). -/
def windowOff (a : BitVec 64) : Nat := bits a.toNat 0 26

/-- The context, group and offset of a group address (R36). -/
def groupCtx (a : BitVec 64) : Nat := bits a.toNat 51 12
/-- The group of a group address. -/
def groupId (a : BitVec 64) : Nat := bits a.toNat 37 14
/-- The offset of a group address. -/
def groupOff (a : BitVec 64) : Nat := bits a.toNat 0 37

/-- A group address from its fields (R36). -/
def mkGroupAddr (ctx g off : Nat) : BitVec 64 :=
  BitVec.ofNat 64 (2 ^ 63 + ctx % 2 ^ 12 * 2 ^ 51 + g % 2 ^ 14 * 2 ^ 37 + off % 2 ^ 37)

/-- The destination endpoint ID of a data packet: dst of a compact header, address [62:48] of a direct one (R99). -/
def dstEpOf (p : Packet) : Nat :=
  match p.form with
  | .compact => p.dst.toNat
  | .direct => addrEp p.address

/-- A data packet that targets a switch window (R34; a compact header cannot). -/
def isWindowPkt (p : Packet) : Bool := p.form == .direct && p.op != .cpl && isWindowAddr p.address

/-- A data packet with a group address. -/
def isGroupPkt (p : Packet) : Bool := (p.form == .compact && p.op == .acc) || (p.form == .direct && isGroupAddr p.address)

/-- The row and column of an endpoint ID or a switch name (Table 02-2). -/
def idRow (id : Nat) : Nat := bits id 10 5
/-- The column. -/
def idCol (id : Nat) : Nat := bits id 5 5
/-- The local port. -/
def idLocal (id : Nat) : Nat := bits id 0 5

/-- A switch name in 15 bits: row in [14:10], column in [9:5] (Table 03-6). -/
def switchName (row col : Nat) : BitVec 15 := BitVec.ofNat 15 (row % 32 * 1024 + col % 32 * 32)

/-- The operations that receive a completion (R50). -/
def getsCpl : Op → Bool
  | .load | .store | .fadd | .swap | .cas | .rdS | .rdM | .upg | .wb => true
  | .reserved _ => true
  | _ => false

end Sys2Proof.Machine
end

