-- ==== Sys2Proof/Machine/Arith.lean ====
section
/-! DEFINITION. Number formats and exact accumulation (file 08): element formats, the Oropel accumulator, partials,
rounding, the rounding generator, and the arithmetic of softmax merge (R325, R326, R329). -/

namespace Sys2Proof.Machine

/-! ### Values -/

/-- A value of the reduction: an integer count of 2^-149 (R282), or a special. -/
inductive Val where
  | fin (n : Int)
  | pinf | ninf | nan
  deriving DecidableEq, Repr

/-- The parameters of a floating-point element format (Tables 08-1 and 08-2): exponent bits, mantissa bits, bias;
`ieee`: the top exponent holds infinity and NaN; `e4m3`: the all-ones code alone is NaN. -/
structure FloatFmt where
  ebits : Nat
  p : Nat
  bias : Int
  ieee : Bool
  e4m3 : Bool
  deriving DecidableEq, Repr

/-- FP32. -/
def fp32 : FloatFmt := ⟨8, 23, 127, true, false⟩
/-- BF16. -/
def bf16 : FloatFmt := ⟨8, 7, 127, true, false⟩
/-- FP16. -/
def fp16 : FloatFmt := ⟨5, 10, 15, true, false⟩
/-- FP8 E4M3. -/
def fp8e4m3 : FloatFmt := ⟨4, 3, 7, false, true⟩
/-- FP8 E5M2. -/
def fp8e5m2 : FloatFmt := ⟨5, 2, 15, true, false⟩
/-- FP6 E3M2. -/
def fp6e3m2 : FloatFmt := ⟨3, 2, 3, false, false⟩
/-- FP6 E2M3. -/
def fp6e2m3 : FloatFmt := ⟨2, 3, 1, false, false⟩
/-- FP4 E2M1. -/
def fp4e2m1 : FloatFmt := ⟨2, 1, 1, false, false⟩

/-- The form of a format's elements: scalar float, MX float (element bits, emax), MXINT8, integer of w bits. -/
inductive Form where
  | float (f : FloatFmt)
  | mx (f : FloatFmt) (bits : Nat) (emax : Int)
  | mxint
  | int (w : Nat)
  deriving DecidableEq, Repr

/-- The form of a format code; reserved codes have none (Table 02-6). -/
def formOf : Format → Option Form
  | .fp32 => some (.float fp32)
  | .bf16 => some (.float bf16)
  | .fp16 => some (.float fp16)
  | .fp8e4m3 => some (.float fp8e4m3)
  | .fp8e5m2 => some (.float fp8e5m2)
  | .mxfp8e4m3 => some (.mx fp8e4m3 8 8)
  | .mxfp8e5m2 => some (.mx fp8e5m2 8 15)
  | .mxfp6e3m2 => some (.mx fp6e3m2 6 4)
  | .mxfp6e2m3 => some (.mx fp6e2m3 6 2)
  | .mxfp4e2m1 => some (.mx fp4e2m1 4 2)
  | .mxint8 => some .mxint
  | .int32 => some (.int 32)
  | .int64 => some (.int 64)
  | .reserved _ => none

/-- An MX format. -/
def isMx (f : Format) : Bool := match formOf f with | some (.mx ..) | some .mxint => true | _ => false
/-- An integer format. -/
def isInt (f : Format) : Bool := match formOf f with | some (.int _) => true | _ => false
/-- A scalar floating-point format. -/
def isFloat (f : Format) : Bool := match formOf f with | some (.float _) => true | _ => false

/-- Bits of a scalar element. -/
def floatBits (f : FloatFmt) : Nat := 1 + f.ebits + f.p

/-- Bytes of one unit: a scalar element, or an MX block of 32 elements (Table 08-3, R247). -/
def unitBytes (f : Format) : Nat :=
  match formOf f with
  | some (.float x) => floatBits x / 8
  | some (.mx _ b _) => 1 + 4 * b
  | some .mxint => 33
  | some (.int w) => w / 8
  | none => 1

/-- Elements of one unit: 1, or 32 in an MX format. -/
def unitElems (f : Format) : Nat := if isMx f then 32 else 1

/-- bytes(f, n) of R247. -/
def fmtBytes (f : Format) (n : Nat) : Nat := n / unitElems f * unitBytes f

/-! ### Decoding (R278 to R282) -/

/-- A floating-point code under a scale exponent xs (R282). -/
def decodeFloat (f : FloatFmt) (xs : Int) (code : Nat) : Val :=
  let m := code % 2 ^ f.p
  let e := code / 2 ^ f.p % 2 ^ f.ebits
  let neg := bitOf code (f.p + f.ebits)
  if f.ieee && e = 2 ^ f.ebits - 1 then (if m = 0 then (if neg then .ninf else .pinf) else .nan)
  else if f.e4m3 && e = 2 ^ f.ebits - 1 && m = 2 ^ f.p - 1 then .nan
  else
    let mant := if e = 0 then m else m + 2 ^ f.p
    let sh : Int := (if e = 0 then 1 else Int.ofNat e) - f.bias - Int.ofNat f.p + 149 + xs
    let v := Int.ofNat (mant * 2 ^ sh.toNat)
    .fin (if neg then -v else v)

/-- The signed integer of `w` bits. -/
def signedOf (w n : Nat) : Int := if n % 2 ^ w < 2 ^ (w - 1) then Int.ofNat (n % 2 ^ w) else Int.ofNat (n % 2 ^ w) - 2 ^ w

/-- The 32 elements of an MX block (R279, R280). -/
def decodeMx (fm : Form) (b : List Byte) : List Val :=
  let x := (b.headD 0).toNat
  let body := ofLe (b.drop 1)
  (upTo 32).map fun k =>
    if x = 0xFF then .nan
    else match fm with
      | .mx f n _ => decodeFloat f (Int.ofNat x - 127) (bits body (n * k) n)
      | .mxint => .fin (signedOf 8 (bits body (8 * k) 8) * 2 ^ (x + 16))
      | _ => .nan

/-- A list cut into pieces of `n` (positive) bytes, at most `k` of them. -/
def chunks (n : Nat) : Nat → List Byte → List (List Byte)
  | 0, _ => []
  | k + 1, l => if l.isEmpty then [] else l.take n :: chunks n k (l.drop n)

/-- The elements that a payload of contributions holds (R277, R282). -/
def decodeElems (f : Format) (l : List Byte) : List Val :=
  match formOf f with
  | some (.float x) => (chunks (floatBits x / 8) l.length l).map fun c => decodeFloat x 0 (ofLe c)
  | some (.int w) => (chunks (w / 8) l.length l).map fun c => .fin (signedOf w (ofLe c) * 2 ^ 149)
  | some fm => (chunks (unitBytes f) l.length l).flatMap (decodeMx fm)
  | none => []

/-! ### The Oropel accumulator (R283 to R286) -/

/-- Table 08-5; the flag says that the finite sum left the range (R286). -/
def numAdd (a x : Val) : Val × Bool :=
  match a, x with
  | .nan, _ | _, .nan => (.nan, false)
  | .fin a, .fin b =>
    let v := a + b
    if -(2 ^ 319) + 3 ≤ v ∧ v ≤ 2 ^ 319 - 1 then (.fin v, false) else (.nan, true)
  | .fin _, y => (y, false)
  | y, .fin _ => (y, false)
  | .pinf, .pinf => (.pinf, false)
  | .ninf, .ninf => (.ninf, false)
  | .pinf, .ninf | .ninf, .pinf => (.nan, false)

/-- The 320 bits of an accumulator (R283, R284). -/
def accBits : Val → Nat
  | .fin n => (n % 2 ^ 320).toNat
  | .nan => 2 ^ 319
  | .pinf => 2 ^ 319 + 1
  | .ninf => 2 ^ 319 + 2

/-- The accumulator that 320 bits spell. -/
def accOf (n : Nat) : Val :=
  if n = 2 ^ 319 then .nan else if n = 2 ^ 319 + 1 then .pinf else if n = 2 ^ 319 + 2 then .ninf
  else .fin (signedOf 320 n)

/-! ### binary64 forms of MIN and MAX (R295) -/

/-- The binary64 code of a value. -/
def f64Bits : Val → Nat
  | .fin n =>
    if n = 0 then 0
    else
      let mag := n.natAbs
      let t := Nat.log2 mag
      let m := (if t ≤ 52 then mag * 2 ^ (52 - t) else mag / 2 ^ (t - 52)) - 2 ^ 52
      (if n < 0 then 2 ^ 63 else 0) + (t + 1023 - 149) * 2 ^ 52 + m
  | .pinf => 0x7FF0000000000000
  | .ninf => 0xFFF0000000000000
  | .nan => 0x7FF8000000000000

/-- The value of a binary64 code; `none` when it is finite and breaks R293. -/
def f64Of (b : Nat) : Option Val :=
  let m := b % 2 ^ 52
  let e := b / 2 ^ 52 % 2048
  let neg := bitOf b 63
  if e = 2047 then some (if m = 0 then (if neg then .ninf else .pinf) else .nan)
  else if e = 0 then (if m = 0 then some (.fin 0) else none)
  else
    let v := m + 2 ^ 52
    if e < 926 then
      if v % 2 ^ (926 - e) = 0 then
        let x := Int.ofNat (v / 2 ^ (926 - e))
        some (.fin (if neg then -x else x))
      else none
    else if e < 1023 + 143 then
      let x := Int.ofNat (v * 2 ^ (e - 926))
      some (.fin (if neg then -x else x))
    else none

/-- Numeric order of two non-NaN values. -/
def numLe : Val → Val → Bool
  | .ninf, _ => true
  | _, .pinf => true
  | .fin a, .fin b => decide (a ≤ b)
  | _, _ => false

/-- The smaller value; a NaN operand gives NaN (R321). -/
def numMin (a b : Val) : Val := if a = .nan ∨ b = .nan then .nan else if numLe a b then a else b
/-- The larger value. -/
def numMax (a b : Val) : Val := if a = .nan ∨ b = .nan then .nan else if numLe a b then b else a

/-! ### Partials (R290 to R296) -/

/-- Trailing zero bits of a positive number, at most `fuel`. -/
def trailing : Nat → Nat → Nat
  | 0, _ => 0
  | k + 1, n => if n % 2 = 0 then trailing k (n / 2) + 1 else 0

/-- The canonical (s, v) of an accumulator (R291). -/
def oropel : Val → Nat × Int
  | .fin n => if n = 0 then (0, 0) else let s := trailing 320 n.natAbs; (s, n / 2 ^ s)
  | .pinf => (0x1FF, 1)
  | .ninf => (0x1FF, 2)
  | .nan => (0x1FF, 3)

/-- The smallest length class whose range holds v (Table 08-8). -/
def classOf (a : Val) : Nat :=
  let v := (oropel a).2
  ((upTo 11).map (· + 1)).find? (fun L => decide (-(2 ^ (32 * L - 10)) ≤ v ∧ v ≤ 2 ^ (32 * L - 10) - 1)) |>.getD 11

/-- An Oropel partial element at class L (Table 08-7). -/
def oropelBytes (L : Nat) (a : Val) : List Byte :=
  let sv := oropel a
  leBytes (4 * L) ((sv.2 % 2 ^ (32 * L - 9)).toNat * 512 + sv.1)

/-- The accumulator of an Oropel partial element of class L; `none` when malformed (R293). `int`: of an integer SUM. -/
def oropelOf (int : Bool) (L : Nat) (l : List Byte) : Option Val :=
  let n := ofLe l
  let s := n % 512
  let v := signedOf (32 * L - 9) (n / 512)
  if s = 0x1FF then
    if int then none
    else if v = 1 then some .pinf else if v = 2 then some .ninf else if v = 3 then some .nan else none
  else if s ≤ 319 then
    let a := v * 2 ^ s
    if -(2 ^ 319) + 3 ≤ a ∧ a ≤ 2 ^ 319 - 1 ∧ (!int || a % 2 ^ 149 = 0) then some (.fin a) else none
  else none

/-! ### Rounding (R297 to R300) -/

/-- How a result is rounded: to nearest even, or stochastically with draw r (R298, R299). -/
inductive Rnd where
  | even
  | stoch (r : Nat)
  deriving DecidableEq, Repr

/-- roundup(k, rem, q). -/
def roundUp (rnd : Rnd) (k rem q : Nat) : Bool :=
  if q = 0 then false
  else match rnd with
    | .even => decide (2 ^ (q - 1) < rem) || (decide (rem = 2 ^ (q - 1)) && k % 2 = 1)
    | .stoch r => decide (2 ^ 32 ≤ rem * 2 ^ 32 / 2 ^ q + r)

/-- k and q after the rounding of a magnitude that keeps bits from position q up (R297, R331). -/
def roundAt (rnd : Rnd) (mag : Nat) (q : Int) : Nat :=
  if q < 0 then mag * 2 ^ (-q).toNat
  else
    let q := q.toNat
    let k := mag / 2 ^ q
    if roundUp rnd k (mag % 2 ^ q) q then k + 1 else k

/-- The largest finite code of a format, sign apart. -/
def maxCode (f : FloatFmt) : Nat :=
  if f.ieee then (2 ^ f.ebits - 1) * 2 ^ f.p - 1
  else if f.e4m3 then 2 ^ (f.ebits + f.p) - 2
  else 2 ^ (f.ebits + f.p) - 1

/-- A finite A with value A × 2^-unit rounded to a code of format f and bias b (R297): the code, sign apart, or `none`
on overflow. -/
def roundMag (f : FloatFmt) (b unit : Int) (rnd : Rnd) (mag : Nat) : Option Nat :=
  if mag = 0 then some 0
  else
    let t := Int.ofNat (Nat.log2 mag)
    let p := Int.ofNat f.p
    let q := max (t - p) (1 - b - p + unit)
    let k := roundAt rnd mag q
    let (k, q) := if k = 2 ^ (f.p + 1) then (2 ^ f.p, q + 1) else (k, q)
    if k < 2 ^ f.p then some k
    else
      let e := q - unit + p + b
      let code := e.toNat * 2 ^ f.p + (k - 2 ^ f.p)
      if code ≤ maxCode f then some code else none

/-- The sign bit added to a code; a zero stays +0 (R300). -/
def signed (f : FloatFmt) (neg : Bool) (code : Nat) : Nat := if neg && code ≠ 0 then code + 2 ^ (f.ebits + f.p) else code

/-- The NaN code of a format (Table 08-9). -/
def nanCode (f : FloatFmt) : Nat :=
  if f.e4m3 then 2 ^ (f.ebits + f.p) - 1 else (2 ^ f.ebits - 1) * 2 ^ f.p + 2 ^ (f.p - 1)

/-- The code that ±Inf takes: infinity, or NaN in FP8 E4M3 (Table 08-9). -/
def infCode (f : FloatFmt) : Nat := if f.ieee then (2 ^ f.ebits - 1) * 2 ^ f.p else nanCode f

/-- The finite-overflow code (Table 08-9). -/
def ovfCode (f : FloatFmt) : Nat := if f.ieee then (2 ^ f.ebits - 1) * 2 ^ f.p else maxCode f

/-- A rounded output: the code, whether it overflowed, whether it is NaN. -/
structure OutCode where
  code : Nat
  ovf : Bool
  nan : Bool
  deriving DecidableEq, Repr

/-- One accumulator, in units of 2^-unit, converted into a scalar floating-point format (R297, R300). -/
def toFloat (f : FloatFmt) (unit : Int) (rnd : Rnd) : Val → OutCode
  | .fin n =>
    match roundMag f f.bias unit rnd n.natAbs with
    | some c => ⟨signed f (n < 0) c, false, false⟩
    | none => ⟨signed f (n < 0) (ovfCode f), true, false⟩
  | .pinf => ⟨infCode f, false, f.e4m3⟩
  | .ninf => ⟨if f.e4m3 then nanCode f else signed f true (infCode f), false, f.e4m3⟩
  | .nan => ⟨nanCode f, false, true⟩

/-- The value of an FP32 rounding of A × 2^-unit, to nearest even. -/
def roundFp32 (unit : Int) (a : Val) : Val := decodeFloat fp32 0 (toFloat fp32 unit .even a).code

/-- An FP32 partial element (R294). -/
def fp32Partial (a : Val) : OutCode := toFloat fp32 149 .even a

/-! ### MX outputs (R304) -/

/-- Packs element codes of `n` bits, element 0 lowest (Table 08-3). -/
def packCodes (n : Nat) (l : List Nat) : Nat := l.foldr (fun c acc => c + acc * 2 ^ n) 0

/-- The MX block of 32 accumulators under a scale that replaces 149 by `unit` (R304, R331); `draw` gives each element's
rounding. Bytes, overflows, NaN elements. -/
def mxBlock (fm : Form) (unit : Int) (draw : Nat → Rnd) (l : List Val) : List Byte × Nat × Nat :=
  let bitsN := match fm with | .mx _ n _ => n | _ => 8
  let size := 4 * bitsN
  if l.any fun a => match a with | .fin _ => false | _ => true then
    (0xFF#8 :: List.replicate size 0#8, 0, 32)
  else
    let mags := l.map fun a => match a with | .fin n => n | _ => 0
    let big : Nat := mags.foldl (fun (m : Nat) n => max m n.natAbs) 0
    let emax := match fm with | .mx _ _ e => e | _ => 0
    let x : Int := if big = 0 then 0 else min 254 (max 0 (Int.ofNat (Nat.log2 big) - unit - emax + 127))
    let outs := mags.zipIdx.map fun v =>
      let neg := decide (v.1 < 0)
      match fm with
      | .mx f _ _ =>
        match roundMag f (f.bias - (x - 127)) unit (draw v.2) v.1.natAbs with
        | some c => (signed f neg c, 0)
        | none => (signed f neg (maxCode f), 1)
      | _ =>
        let k := roundAt (draw v.2) v.1.natAbs (x + 16 - 149 + unit)
        let c := min k 127
        (((if neg then -(Int.ofNat c) else Int.ofNat c) % 256).toNat, if 127 < k then 1 else 0)
    (BitVec.ofNat 8 x.toNat :: leBytes size (packCodes bitsN (outs.map (·.1))), (outs.map (·.2)).sum, 0)

/-! ### The rounding generator (R305) -/

/-- One round of rgen. -/
def rgenRound (st : Word × Word × Word × Word) : Word × Word × Word × Word :=
  let (x, y, k0, k1) := st
  let x := x + (y ^^^ k0)
  let x := (x <<< 11) ||| (x >>> 21)
  let x := x * 0xA3D95B2F#32
  let y := y + (x ^^^ k1)
  let y := (y <<< 19) ||| (y >>> 13)
  let y := y * 0x6C8E1F45#32
  (x, y, k0 + 0x9B3C47E1#32, k1 + 0x2F71D8A3#32)

/-- The rounding generator. -/
def rgen (seed ctx group pick elem use : Nat) : Word :=
  let k0 := BitVec.ofNat 32 seed
  let k1 := (BitVec.ofNat 32 ctx <<< 20) ||| (BitVec.ofNat 32 group <<< 6) ||| BitVec.ofNat 32 use
  let x := BitVec.ofNat 32 pick ^^^ 0x5EED0A17#32
  let y := BitVec.ofNat 32 elem ^^^ 0xC3A59E41#32
  let r := rgenRound (rgenRound (rgenRound (rgenRound (rgenRound (rgenRound (x, y, k0, k1))))))
  r.1 ^^^ r.2.1

/-! ### Softmax merge arithmetic (R325, R326, R329) -/

/-- The precision of exp2 in bits. -/
def expPrec : Nat := 512

/-- ln 2 in units of 2^-prec: the sum of 1 / (k 2^k). -/
def ln2Fix : Nat := (upTo (expPrec + 8)).foldl (fun a k => a + 2 ^ expPrec / ((k + 1) * 2 ^ (k + 1))) 0

/-- exp(y) for 0 ≤ y < 1 in units of 2^-prec, by its series. -/
def expFix (y : Nat) : Nat :=
  ((upTo 130).foldl (fun (st : Nat × Nat) k =>
    let t := st.1 * y / ((k + 1) * 2 ^ expPrec)
    (t, st.2 + t)) (2 ^ expPrec, 2 ^ expPrec)).2

/-- exp2(d × 2^-149) rounded once to FP32, to nearest even (last row of Table 09-8). A
fractional power of two is irrational, so the odd last bit that marks the discarded part never makes a tie. -/
def exp2Fp32 (d : Int) : Val :=
  let i := d / 2 ^ 149
  let f := (d % 2 ^ 149).toNat
  if f = 0 then roundFp32 (0 - i) (.fin 1)
  else
    let y := f * ln2Fix / 2 ^ 149
    roundFp32 (Int.ofNat expPrec + 1 - i) (.fin (Int.ofNat (2 * expFix y + 1)))

/-- The weight s of a contribution row (Table 09-8). -/
def smgWeight (m ref : Val) : Val :=
  match m, ref with
  | .nan, _ | _, .nan => .nan
  | .ninf, _ => .fin 0
  | .pinf, .pinf => .nan
  | .fin _, .pinf => .fin 0
  | .pinf, _ => .pinf
  | .fin _, .ninf => .pinf
  | .fin a, .fin b => if a - b < -(126 * 2 ^ 149) then .fin 0 else exp2Fp32 (a - b)

/-- The sign of a value: negative. -/
def numNeg : Val → Bool
  | .fin n => decide (n < 0)
  | .ninf => true
  | _ => false

/-- The exact product, in units of 2^-298, with IEEE specials. -/
def numMul (a b : Val) : Val :=
  match a, b with
  | .nan, _ | _, .nan => .nan
  | .fin x, .fin y => .fin (x * y)
  | x, y =>
    if x = .fin 0 ∨ y = .fin 0 then .nan
    else if numNeg x != numNeg y then .ninf else .pinf

/-- A product rounded once to FP32 (R326). -/
def mulFp32 (a b : Val) : Val := roundFp32 298 (numMul a b)

/-- y + h × x rounded once to FP32 (R333). -/
def fmaFp32 (y h x : Val) : Val :=
  match y, numMul h x with
  | .nan, _ | _, .nan => .nan
  | .fin a, .fin b => roundFp32 298 (.fin (a * 2 ^ 149 + b))
  | .fin _, z => z
  | z, .fin _ => z
  | z, w => if z = w then z else .nan

/-- Bits kept of a quotient below its units. -/
def quoPrec : Nat := 1200

/-- The quotient of R329, in units of 2^-(quoPrec + 1) with an odd last bit when it is not exact; `overflow`: the
finite-overflow output with the given sign. -/
inductive Quo where
  | num (v : Val)
  | overflow (neg : Bool)
  deriving DecidableEq, Repr

/-- R329. -/
def quotient (n d : Val) : Quo :=
  match n, d with
  | .nan, _ | _, .nan => .num .nan
  | .fin a, .fin b =>
    if b = 0 then (if a = 0 then .num (.fin 0) else .overflow (decide (a < 0)))
    else
      let m := a.natAbs * 2 ^ quoPrec
      let v := 2 * (m / b.natAbs) + (if m % b.natAbs = 0 then 0 else 1)
      .num (.fin (if decide (a < 0) != decide (b < 0) then -(Int.ofNat v) else Int.ofNat v))
  | .fin _, _ => .num (.fin 0)
  | x, .fin b => .num (if numNeg x != decide (b < 0) then .ninf else .pinf)
  | _, _ => .num .nan

/-! ### The mixed value of a pick (R360) -/

/-- wmix. -/
def wmix (check : Word) (ctx group pick : Nat) : BitVec 64 :=
  let z := (BitVec.ofNat 64 pick <<< 32) ||| check.setWidth 64
  let k := (BitVec.ofNat 64 ctx <<< 14) ||| BitVec.ofNat 64 group
  let z := z ^^^ (k * 0x7A3F19C5D2E4B86B#64)
  let z := z ^^^ (z >>> 31)
  let z := z * 0xB4E12C975AF30D2D#64
  let z := z ^^^ (z >>> 29)
  let z := z * 0x6F58A1D39C27E4B5#64
  z ^^^ (z >>> 32)

end Sys2Proof.Machine
end

