-- ==== Sys2Proof/Machine/Fec.lean ====
section
/-! DEFINITION. From link groups to PAM4 levels: the message of a codeword (R86, R87, R370), the RS(544,514) encoder (R371) and
the Gray code with precoding (R372). -/

namespace Sys2Proof.Machine

/-! ### The message -/

/-- An idle link unit (Table 03-1). -/
def idleUnit : LinkUnit := { marker := 0#2, bytes := List.replicate 64 0 }

/-- The ten link units of a group: idle units fill it (R86). -/
def tenUnits (l : List LinkUnit) : List LinkUnit := l.take 10 ++ List.replicate (10 - l.length) idleUnit

/-- The bits of a bit vector, bit 0 first. -/
def bitsOf {w : Nat} (v : BitVec w) : List Bool := (upTo w).map v.getLsbD

/-- The 20-bit marker field: unit i's marker in bits [2i+1:2i] (R87). -/
def markerField (l : List LinkUnit) : BitVec 20 :=
  (tenUnits l).zipIdx.foldl (fun (v : BitVec 20) (x : LinkUnit × Nat) => v ||| ((x.1.marker.setWidth 20 <<< (2 * x.2) : BitVec 20))) 0

/-- The 5,140 message bits of a group: the bytes of its link units in order, each from bit 0, then the marker field (R86,
R370). -/
def messageBits (l : List LinkUnit) : List Bool :=
  (tenUnits l).flatMap (fun u => (padTo 64 u.bytes).flatMap bitsOf) ++ bitsOf (markerField l)

/-- Symbols of ten bits, the first bit as bit 0. -/
def symbolsOf : Nat → List Bool → List (BitVec 10)
  | 0, _ => []
  | n + 1, l => BitVec.ofNat 10 ((l.take 10).zipIdx.foldl (fun v x => v + if x.1 then 2 ^ x.2 else 0) 0) :: symbolsOf n (l.drop 10)

/-- The 514 message symbols of a group (R370). -/
def messageSymbols (l : List LinkUnit) : List (BitVec 10) := symbolsOf 514 (messageBits l)

/-- The link units that 5,140 message bits carry: what a receiver reads out of a decoded message (R87, R370). -/
def unitsOfMessage (l : List Bool) : List LinkUnit :=
  let byteAt (i : Nat) : Byte := BitVec.ofNat 8 (((l.drop (8 * i)).take 8).zipIdx.foldl (fun v x => v + if x.1 then 2 ^ x.2 else 0) 0)
  (upTo 10).map fun i =>
    { marker := BitVec.ofBool (l.getD (5121 + 2 * i) false) ++ BitVec.ofBool (l.getD (5120 + 2 * i) false)
      bytes := (upTo 64).map fun j => byteAt (64 * i + j) }

/-! ### The code -/

/-- Times x in GF(2^10) with x^10 = x^3 + 1, the field of IEEE 802.3 Clause 91. -/
def gfDouble (a : BitVec 10) : BitVec 10 := (a <<< 1) ^^^ (if a.getLsbD 9 then 0x009#10 else 0)

/-- The product of `a` and the polynomial of the `n` low bits of `b`. -/
def gfMulBits : Nat → BitVec 10 → BitVec 10 → BitVec 10
  | 0, _, _ => 0
  | n + 1, a, b => (if b.getLsbD 0 then a else 0) ^^^ gfMulBits n (gfDouble a) (b >>> 1)

/-- The product in GF(2^10). -/
def gfMul (a b : BitVec 10) : BitVec 10 := gfMulBits 10 a b

/-- The generator's coefficients below its leading 1, highest degree first, after the roots α^0 to α^(n-1) (Clause 91). -/
def rsGen : Nat → List (BitVec 10)
  | 0 => []
  | n + 1 =>
    let g := rsGen n
    let root := (upTo n).foldl (fun a _ => gfDouble a) 1#10
    List.zipWith (· ^^^ ·) (g ++ [0]) ((1#10 :: g).map (gfMul root))

/-- One message symbol into the encoder's register. -/
def rsStep (g reg : List (BitVec 10)) (m : BitVec 10) : List (BitVec 10) :=
  let f := m ^^^ reg.headD 0
  List.zipWith (· ^^^ ·) (reg.tail ++ [0]) (g.map (gfMul f))

/-- The 30 parity symbols of a message, highest degree first (R371). -/
def rsParity (m : List (BitVec 10)) : List (BitVec 10) := m.foldl (rsStep (rsGen 30)) (List.replicate 30 0)

/-- The codeword of a group: message symbols 0 to 513, then parity symbols 514 to 543 (R371). -/
def codeword (l : List LinkUnit) : List (BitVec 10) := messageSymbols l ++ rsParity (messageSymbols l)

/-! ### Levels -/

/-- The Gray code: 00, 01, 11, 10 to 0, 1, 2, 3, the first bit as the first digit (R372). -/
def gray (a b : Bool) : BitVec 2 := if a then (if b then 2#2 else 3#2) else (if b then 1#2 else 0#2)

/-- Consecutive pairs of bits as PAM4 symbols. -/
def grayPairs : List Bool → List (BitVec 2)
  | a :: b :: rest => gray a b :: grayPairs rest
  | _ => []

/-- The PAM4 symbols of a codeword, each symbol from its bit 0 to its bit 9 (R371, R372). -/
def grayLevels (c : List (BitVec 10)) : List (BitVec 2) := grayPairs (c.flatMap bitsOf)

/-- Precoding: y_n = (g_n − y_(n−1)) mod 4, after the level `y` (R372). -/
def precode (y : BitVec 2) : List (BitVec 2) → List (BitVec 2)
  | [] => []
  | g :: rest => (g - y) :: precode (g - y) rest

/-- The receiver's inverse of precoding: g_n = (y_n + y_(n−1)) mod 4 (R372). -/
def unprecode (y : BitVec 2) : List (BitVec 2) → List (BitVec 2)
  | [] => []
  | v :: rest => (v + y) :: unprecode v rest

/-- The levels of a group on a lane whose last level was `y`. -/
def groupLevels (pre : Bool) (y : BitVec 2) (l : List LinkUnit) : List (BitVec 2) :=
  let g := grayLevels (codeword l)
  if pre then precode y g else g

end Sys2Proof.Machine
end

