-- ==== Sys2Proof/Machine/Flags.lean ====
section
/-! DEFINITION. Status and interrupt flags: MSI-X (R478), causes, counters, first-fault capture and FAULT_N
(R444, R450 to R456), locations (Table 13-3), the event ring (Table 13-13), ALERT_N (R436). -/

namespace Sys2Proof.Machine

/-! ### Interrupts -/

/-- Vector `v` may send its message: MSI-X Enable set and Function Mask clear, bus mastering on and the function in D0, the vector
unmasked (PCI Express Base; PRESUMED, log 113). -/
def msixOpen (s : State) (v : Nat) : Bool :=
  s.mgt.cfg.msixEn && !s.mgt.cfg.msixMask && s.mgt.cfg.busEn && !s.mgt.cfg.d3hot && !s.flag (F.MSIX_CTL_mask v)

/-- Sends vector `v`'s message, or sets its pending bit while it may not go (PCI Express Base; R478). -/
def sendMsix (v : Nat) (s : State) : State :=
  if msixOpen s v then s.emit (.msix v ((s.rd (R.MSIX_ADDR_HI v)) ++ (s.rd (R.MSIX_ADDR_LO v))) (s.rd (R.MSIX_DATA v)))
  else s.setFlag ⟨R.MSIX_PBA (v / 32), v % 32, 1⟩ true

/-- An interrupt source of Table 14-2 sets its bit; the message goes when the bit was 0 and is enabled (R478). -/
def raiseInt (v : Nat) (s : State) : State :=
  if s.flag ⟨R.MIO_INT_STATUS, v, 1⟩ then s
  else
    let s := s.setFlag ⟨R.MIO_INT_STATUS, v, 1⟩ true
    if s.flag ⟨R.MIO_INT_EN, v, 1⟩ then sendMsix v s else s

/-- A vector that may send its message sends the one that is pending (PCI Express Base). -/
def unmaskMsix (v : Nat) (s : State) : State :=
  if msixOpen s v && s.flag ⟨R.MSIX_PBA (v / 32), v % 32, 1⟩ then
    sendMsix v (s.setFlag ⟨R.MSIX_PBA (v / 32), v % 32, 1⟩ false)
  else s

/-! ### Locations (Table 13-3) -/

/-- No location. -/
def locNone : Word := 0
/-- A port. -/
def locPort (p : Nat) : Word := BitVec.ofNat 32 (0x10000000 + p)
/-- A lane. -/
def locLane (n : Nat) : Word := BitVec.ofNat 32 (0x20000000 + n)
/-- A weave die and, for CBF_ECC_UE, a cell index. -/
def locDie (d cell : Nat) : Word := BitVec.ofNat 32 (0x30000000 + d * 2 ^ 20 + cell)
/-- A reed die. -/
def locReed (k : Nat) : Word := BitVec.ofNat 32 (0x40000000 + k)
/-- A physical shuttle. -/
def locSht (p : Nat) : Word := BitVec.ofNat 32 (0x50000000 + p)
/-- A die-to-die link and channel. -/
def locLink (d e ch : Nat) : Word := BitVec.ofNat 32 (0x60000000 + ch * 256 + d * 4 + e)
/-- A rail. -/
def locRail (r : Nat) : Word := BitVec.ofNat 32 (0x70000000 + r)
/-- A sensor. -/
def locSensor (i : Nat) : Word := BitVec.ofNat 32 (0x80000000 + i)
/-- A table entry. -/
def locTable (t d i : Nat) : Word := BitVec.ofNat 32 (0x90000000 + t * 2 ^ 26 + d * 2 ^ 24 + i)
/-- A register block. -/
def locReg (off : Nat) : Word := BitVec.ofNat 32 (0xA0000000 + off)
/-- A group. -/
def locGroup (ctx g : Nat) : Word := BitVec.ofNat 32 (0xB0000000 + ctx * 2 ^ 14 + g)

/-! ### Causes -/

/-- The class of a cause (Table 13-2): 0 corrected, 1 contained, 2 fatal. -/
def causeClass (c : Nat) : Nat := if c ≤ 6 then 2 else if 42 ≤ c then 0 else 1

/-- The condition causes of Table 13-2: those with a live bit. -/
def isCondition (c : Nat) : Bool :=
  [0, 1, 3, 8, 20, 21, 22, 23, 24, 25, 28, 29, 30, 33, 34, 36, 37, 41].contains c

/-- The cause bit of cause `c`. -/
def causeBit (c : Nat) : FieldRef := if c < 32 then ⟨R.FLT_CAUSE_LO, c, 1⟩ else ⟨R.FLT_CAUSE_HI, c - 32, 1⟩
/-- The live bit of cause `c`. -/
def liveBit (c : Nat) : FieldRef := if c < 32 then ⟨R.FLT_LIVE_LO, c, 1⟩ else ⟨R.FLT_LIVE_HI, c - 32, 1⟩
/-- The interrupt enable of cause `c`. -/
def causeIntEn (c : Nat) : FieldRef := if c < 32 then ⟨R.FLT_INT_EN_LO, c, 1⟩ else ⟨R.FLT_INT_EN_HI, c - 32, 1⟩
/-- The pin enable of cause `c`. -/
def causePinEn (c : Nat) : FieldRef := if c < 32 then ⟨R.FLT_PIN_EN_LO, c, 1⟩ else ⟨R.FLT_PIN_EN_HI, c - 32, 1⟩

/-- The live bit follows the conditions that hold (R450). -/
def showLive (c : Nat) (s : State) : State := s.setFlag (liveBit c) (s.flt.live.any (·.1 == c))

/-- The condition of cause `c` at `loc` appears. -/
def beginLive (c : Nat) (loc : Word) (s : State) : State :=
  if s.flt.live.contains (c, loc) then s
  else showLive c { s with flt := { s.flt with live := (c, loc) :: s.flt.live } }

/-- The condition of cause `c` at `loc` ends. -/
def endLive (c : Nat) (loc : Word) (s : State) : State :=
  showLive c { s with flt := { s.flt with live := s.flt.live.filter (· != (c, loc)) } }

/-- Appends a record to the Selvedge event ring (Table 13-13, R454). -/
def appendEvent (kind cls : Nat) (ctx : Option Nat) (loc : Word) (detail : Nat) (s : State) : State :=
  let head := s.selWord 0x30 % 64
  let a := 0x400 + head * 16
  let w0 := kind * 2 ^ 24 + cls * 2 ^ 22 + (match ctx with | some c => 2 ^ 21 + c % 4096 | none => 0)
  let s := s.setSelWord a w0
  let s := s.setSelWord (a + 4) loc.toNat
  let s := s.setSelWord (a + 8) (detail % 65536 * 65536)
  let s := s.setSelWord (a + 12) s.ponSeconds
  let s := s.bumpSel 0x2C
  s.setSelWord 0x30 ((head + 1) % 64)

/-- The capture that is held was written in this cycle for a higher cause number (R453). -/
def replacesFirst (s : State) (c : Nat) : Bool :=
  decide (c < s.fld F.FLT_FFC0_cause) && s.rd R.FLT_FFC2 == BitVec.ofNat 32 s.tbase
    && s.rd R.FLT_FFC3 == BitVec.ofNat 32 (s.tbase / 2 ^ 32) && s.rd R.FLT_FFC4 == BitVec.ofNat 32 s.ponSeconds

/-- The first-fault capture (R452): written when none is held, otherwise `more`; of the causes of one cycle the lowest is captured,
and the others set `more` (R453). -/
def firstFault (c : Nat) (loc : Word) (ctx : Option Nat) (s : State) : State :=
  if s.flag F.FLT_FFC0_valid && !replacesFirst s c then s.setFlag F.FLT_FFC0_more true
  else
    let more := if s.flag F.FLT_FFC0_valid then 2 ^ 28 else 0
    let s := s.wr R.FLT_FFC0 (BitVec.ofNat 32 (2 ^ 31 + causeClass c * 2 ^ 29 + more + c * 2 ^ 12
      + (match ctx with | some x => 2 ^ 27 + x % 4096 | none => 0)))
    let s := s.wr R.FLT_FFC1 loc
    let s := s.wr R.FLT_FFC2 (BitVec.ofNat 32 s.tbase)
    let s := s.wr R.FLT_FFC3 (BitVec.ofNat 32 (s.tbase / 2 ^ 32))
    s.wr R.FLT_FFC4 (BitVec.ofNat 32 s.ponSeconds)

/-- FAULT_N goes low and starts its 10 µs minimum (R456); a release written before is consumed (R457). -/
def driveFaultN (s : State) : State :=
  { s.setFlag F.FLT_STATUS_pin true with flt := { s.flt with minUntil := some (s.now + 10000), released := false } }

/-- Index of a die's corrected-ECC count in the Selvedge record (Table 13-11): weave dies, then reed dies. -/
def eccSlot (loc : Word) : Nat :=
  if bits loc.toNat 28 4 = 4 then 4 + bits loc.toNat 0 3 else bits loc.toNat 20 2

/-- Records the raise of a cause: cause bit, counter, live bit, capture, FAULT_N, interrupt, event ring (R450 to
R456, R473). The device action of a fatal class is `raiseFatal`'s. -/
def raiseCause (c : Nat) (loc : Word) (ctx : Option Nat) (detail : Nat) (s : State) : State :=
  let was := s.flag (causeBit c)
  let cls := causeClass c
  let s := s.setFlag (causeBit c) true
  let s := s.bump (F.FLT_CNT_count c)
  let s := if isCondition c then beginLive c loc s else s
  let s := if cls = 0 then s else firstFault c loc ctx s
  let s := if cls ≠ 0 && !was then appendEvent c cls ctx loc detail s else s
  let s := if cls = 2 || (cls = 1 && s.flag (causePinEn c)) then driveFaultN s else s
  let s := if c = 46 then s.bumpSel (0x60 + 4 * eccSlot loc) else s
  if !was && s.flag (causeIntEn c) then raiseInt 0 s else s

/-- A contained or corrected cause without context or detail. -/
def raise (c : Nat) (loc : Word) (s : State) : State := raiseCause c loc none 0 s

/-- A cause raised for a context. -/
def raiseFor (c : Nat) (loc : Word) (ctx : Nat) (s : State) : State := raiseCause c loc (some ctx) 0 s

/-! ### Cause numbers used by the meanings (Table 13-2) -/

namespace Cause
def thermtrip := 0
def railFault := 1
def railSeq := 2
def d2dLost := 3
def deckleWdog := 4
def llFail := 8
def llProto := 9
def fuseErr := 5
def aonEcc := 6
def cbfAlloc := 10
def cbfEccUe := 11
def shtEccUe := 12
def shtIso := 13
def cmdTmo := 14
def shtHang := 15
def grpOvercount := 16
def orpBad := 17
def cohProto := 18
def cohTimeout := 19
def dupEp := 20
def portLoop := 21
def portRole := 22
def portExcess := 23
def portMiswire := 24
def discUnplaced := 25
def loomOversize := 26
def mcUnreach := 27
def portWidthLow := 28
def portWidthTmo := 29
def laneDegraded := 30
def eqTable := 31
def pwrTable := 32
def aonClkLoss := 33
def coreRefclkLoss := 34
def pllUnlock := 35
def laneRefclkLoss := 36
def d2dDegraded := 37
def tableUe := 38
def regTmo := 39
def deckleRst := 40
def ctxResetTmo := 41
def grpStraggler := 42
def laneTrainFail := 43
def laneRemoved := 44
def railExcursion := 45
def eccCe := 46
def d2dSpared := 47
end Cause

end Sys2Proof.Machine
end

