-- ==== Sys2Proof/Machine/Ports.lean ====
section
/-! DEFINITION. What the registers say of a port and of the switch: role, link state, restriction (R150), active lanes,
coordinates; completions that the switch builds (R97). -/

namespace Sys2Proof.Machine

/-- The weave die that serves a port (R18, R19, R389). -/
def portDie (p : Nat) : Nat := p / 128

/-- A weave die held in reset: its own die reset, power-on reset, the test mode, or a warm reset that has not brought it up. -/
def inReset (s : State) (d : Nat) : Bool :=
  s.pwr.por || s.pwr.testMode || s.pwr.warming || bitOf (s.fld F.FLT_STATUS_die_rst) d

/-- A port whose draft enables it (PRT_CFG; role 3 acts as disabled). -/
def portOn (s : State) (p : Nat) : Bool := s.flag (F.PRT_CFG_en p) && s.fld (F.PRT_CFG_role p) != 3

/-- An enabled endpoint port. -/
def isEp (s : State) (p : Nat) : Bool := portOn s p && s.fld (F.PRT_CFG_role p) == 0
/-- An enabled fabric port. -/
def isFab (s : State) (p : Nat) : Bool := portOn s p && s.fld (F.PRT_CFG_role p) == 1
/-- An enabled service port. -/
def isSvc (s : State) (p : Nat) : Bool := portOn s p && s.fld (F.PRT_CFG_role p) == 2

/-- The link layer of the port is UP (Table 03-11). -/
def linkUp (s : State) (p : Nat) : Bool := s.fld (F.PRT_LL_STATUS_state p) == 2

/-- The ports that the active draft enables, ascending. -/
def enabledPorts (s : State) : List Nat := (upTo 512).filter (portOn s)

/-- The lanes of a port: its width W from its base lane (R389). -/
def portLanes (s : State) (p : Nat) : List Nat := (upTo (2 ^ s.fld (F.PRT_CFG_width_log p))).map (p + ·)

/-- The number of active lanes of a port. -/
def activeLanes (s : State) (p : Nat) : Nat :=
  let m := s.fld (F.PRT_LANE_STATUS_active p)
  ((upTo 8).filter (bitOf m)).length

/-- A port with a quarantine cause set (R145, R149). -/
def quarantined (s : State) (p : Nat) : Bool :=
  s.flag (F.PRT_DISC_STATUS_dup p) || s.flag (F.PRT_DISC_STATUS_role p) || s.flag (F.PRT_DISC_STATUS_loop p)
    || s.flag (F.PRT_DISC_STATUS_excess p) || s.flag (F.PRT_DISC_STATUS_miswire p)

/-- An endpoint port in ASSIGNED (Table 04-4). -/
def assigned (s : State) (p : Nat) : Bool := isEp s p && s.fld (F.PRT_DISC_STATUS_state p) == 4

/-- A port that carries only link-maintenance packets (R150), the service port's receive direction apart. -/
def restricted (s : State) (p : Nat) : Bool := (isEp s p && !assigned s p) || quarantined s p

/-- A link-maintenance packet: kind DISC, TIME or LANE (R150). -/
def isMaint : Pkt → Bool
  | .ctl c => c.ckind == 0x10#5 || c.ckind == 0x11#5 || c.ckind == 0x12#5
  | .data _ => false

/-- The response bit of a packet (R186). -/
def respOf : Pkt → Nat
  | .data p => ofBool (p.op == .cpl)
  | .ctl _ => 0

/-- The context of a packet; SACC and PCPL carry it in their group address; other control packets have none. -/
def ctxOf : Pkt → Option Nat
  | .data p => some p.ctx.toNat
  | .ctl c => if c.ckind == 1#5 || c.ckind == 2#5 then some (groupCtx (c.w1 ++ c.w2)) else none

/-- The switch is placed (RTE_DISC_STATUS). -/
def placed (s : State) : Bool := s.flag F.RTE_DISC_STATUS_placed
/-- The switch's row. -/
def ownRow (s : State) : Nat := s.fld F.RTE_DISC_STATUS_row
/-- The switch's column. -/
def ownCol (s : State) : Nat := s.fld F.RTE_DISC_STATUS_col
/-- The switch's name in 15 bits (Table 03-6). -/
def ownName (s : State) : BitVec 15 := switchName (ownRow s) (ownCol s)
/-- The switch's serial. -/
def ownSerial (s : State) : BitVec 64 := s.fuses.serial
/-- Rows of the loom. -/
def rowsN (s : State) : Nat := s.fld F.RTE_DISC_STATUS_rows_m1 + 1
/-- Columns of the loom. -/
def colsN (s : State) : Nat := s.fld F.RTE_DISC_STATUS_cols_m1 + 1

/-- The endpoint ID of local port `k` (R135). -/
def epId (s : State) (k : Nat) : Nat := ownRow s * 1024 + ownCol s * 32 + k

/-- The local port that RTE_LOCAL gives an endpoint port (R135). -/
def localOf (s : State) (p : Nat) : Option Nat :=
  (upTo 32).find? fun k =>
    let v := (s.rver (R.RTE_LOCAL k)).active.toNat
    bitOf v 9 && bits v 0 9 == p

/-- The endpoint port that RTE_LOCAL gives a local port (R161). -/
def localPort (s : State) (k : Nat) : Option Nat :=
  let v := (s.rver (R.RTE_LOCAL k)).active.toNat
  if bitOf v 9 then some (bits v 0 9) else none

/-- The endpoint ID of a port, 0 without a local port. -/
def portEp (s : State) (p : Nat) : Nat := match localOf s p with | some k => epId s k | none => 0

/-- T of a context in ns: 2^tmo_exp µs, tmo_exp above 20 acting as 20 (R63). -/
def tmoNs (s : State) (ctx : Nat) : Nat := 2 ^ (min 20 (s.fld (F.CTX_MEM_CTL_tmo_exp ctx))) * 1000

/-- Bit `p` of the context's CTX_PORT_EN (R37). -/
def ctxPortEn (s : State) (ctx p : Nat) : Bool := s.flag ⟨R.CTX_PORT_EN ctx (p / 32), p % 32, 1⟩

/-- The context-reset gate of a context is closed (R461). -/
def gateClosed (s : State) (ctx : Nat) : Bool :=
  match s.ctxRst with
  | some r => r.ctxs.contains ctx
  | none => false

/-- A data packet with every field 0 or false. -/
def blankPacket : Packet :=
  { form := .compact, op := .cpl, queue := 0, ord := false, status := .ok, nm := false, ssw := false, src := 0,
    ftag := 0, dst := 0, dsw := false, lenM1 := 0, ctx := 0, handle := 0, dat := false, offset := 0, operator := .sum,
    format := .fp32, address := 0, epoch := 0, tree := false, stage := 0, lclass := 0, pick := 0, payload := [] }

/-- A completion that the switch produces (R97): ctx, ftag, queue and ord of the request, the switch as source, the
requester as destination. Without data its len_m1 is 0: R97 names no value for it (DESIGN CHOICE, log 100). -/
def switchCpl (s : State) (req : Packet) (st : Status) (data : Option (List Byte)) : Packet :=
  { blankPacket with
    queue := req.queue, ord := req.ord, status := st, ssw := true, src := ownName s, ftag := req.ftag,
    dst := req.src, dsw := req.ssw, ctx := req.ctx, dat := data.isSome,
    lenM1 := BitVec.ofNat 12 ((data.getD []).length - 1), payload := data.getD [] }

/-- A control packet (Table 03-8). -/
def mkCtl (ckind queue : Nat) (ks : Nat) (w1 w2 : Word) (lenM1 : Nat) (body : List Byte) : Ctl :=
  { ckind := BitVec.ofNat 5 ckind, queue := BitVec.ofNat 3 queue, lenM1 := BitVec.ofNat 6 lenM1,
    ks := BitVec.ofNat 16 ks, w1 := w1, w2 := w2, body := padTo 48 body }

end Sys2Proof.Machine
end

