-- ==== Sys2Proof/Machine/Cells.lean ====
section
/-! DEFINITION. The cell buffer (file 05): cells and the free-cell stack (R171 to R184), accounts and admission
(R185 to R188, R549), the egress queues, flushing (R199, R200), push-out (R197), credits (R114). -/

namespace Sys2Proof.Machine

/-! ### The free-cell stack -/

/-- The top of the never used part of a free stack: the highest index below `n` that passed its test (R182). -/
def popFresh (bad : List Nat) : Nat → Option Nat
  | 0 => none
  | n + 1 => if bad.contains n then popFresh bad n else some n

/-- The cells of a slice that its memory test left out, as slice indices (R182). -/
def badOf (s : State) (d : Nat) : List Nat :=
  (s.fuses.badCells.filter fun c => c / 2 ^ 18 == d).map (· % 2 ^ 18)

/-- Indices pushed back on slice `d`'s stack, the top first. -/
def pushedOf (s : State) (d : Nat) : List Nat := Sparse.get (fun _ => []) s.core.pushed d

/-- How many indices of slice `d` were never popped since the stack was filled. -/
def freshOf (s : State) (d : Nat) : Nat := Sparse.get (fun _ => 0) s.core.fresh d

/-- Free cells of slice `d`. -/
def freeCells (s : State) (d : Nat) : Nat :=
  (pushedOf s d).length + (freshOf s d - ((badOf s d).filter (· < freshOf s d)).length)

/-- CBF_STATUS and CBF_SHARED_FREE follow the stack and the pool. -/
def showFree (d : Nat) (s : State) : State :=
  (s.setFld (F.CBF_STATUS_cells d) (freeCells s d)).setFld (F.CBF_SHARED_FREE_cells d)
    (s.fld (F.CBF_SHARED_cells d) - s.usedC (d * 2048 + 9))

/-- Sets a slice's stack. -/
def setStack (d : Nat) (pushed : List Nat) (fresh : Nat) (s : State) : State :=
  { s with core := { s.core with
      pushed := Sparse.put (fun _ => []) s.core.pushed d pushed
      fresh := Sparse.put (fun _ => 0) s.core.fresh d fresh } }

/-- Pops one cell of slice `d`: its pointer, and the state after. -/
def popCell (d : Nat) (s : State) : Option (Nat × State) :=
  match pushedOf s d with
  | c :: rest => some (d * 2 ^ 18 + c, setStack d rest (freshOf s d) s)
  | [] =>
    match popFresh (badOf s d) (freshOf s d) with
    | some c => some (d * 2 ^ 18 + c, setStack d [] c s)
    | none => none

/-- Pops `n` cells of slice `d`, in the order allocated. -/
def popCells (d : Nat) : Nat → State → Option (List Nat × State)
  | 0, s => some ([], s)
  | n + 1, s =>
    match popCell d s with
    | none => none
    | some (c, s1) =>
      match popCells d n s1 with
      | none => none
      | some (l, s2) => some (c :: l, s2)

/-! ### Copy descriptors (R176) -/

/-- The value of a descriptor's `next` at the tail of a list (Table 05-3). -/
def descTail : Nat := 0x7FFFF

/-- `next` of the descriptor at place `i` of a list (Table 05-3, R177): the index of the one behind it. -/
def nextDesc (l : List Copy) (i : Nat) : Nat :=
  match l[i + 1]? with
  | some c => c.desc.elim descTail (· % 2 ^ 18)
  | none => descTail

/-- The descriptors of die `d` that its memory test left out (R182). -/
def badDescOf (s : State) (d : Nat) : List Nat :=
  (s.fuses.badDescs.filter fun c => c / 2 ^ 18 == d).map (· % 2 ^ 18)

/-- Sets the free stack of copy descriptors of die `d`. -/
def setDescStack (d : Nat) (pushed : List Nat) (fresh : Nat) (s : State) : State :=
  { s with core := { s.core with
      descPushed := Sparse.put (fun _ => []) s.core.descPushed d pushed
      descFresh := Sparse.put (fun _ => 0) s.core.descFresh d fresh } }

/-- Takes a copy descriptor of die `d`; none left, and there is no answer (R176). -/
def popDesc (d : Nat) (s : State) : Option (Nat × State) :=
  let fresh := Sparse.get (fun _ => 0) s.core.descFresh d
  match Sparse.get (fun _ => []) s.core.descPushed d with
  | c :: rest => some (d * 2 ^ 18 + c, setDescStack d rest fresh s)
  | [] => (popFresh (badDescOf s d) fresh).map fun c => (d * 2 ^ 18 + c, setDescStack d [] c s)

/-- Gives a copy's descriptor back to the store of its die. -/
def pushDescOf (c : Copy) (s : State) : State :=
  match c.desc with
  | some n =>
    let d := n / 2 ^ 18
    setDescStack d (n % 2 ^ 18 :: Sparse.get (fun _ => []) s.core.descPushed d)
      (Sparse.get (fun _ => 0) s.core.descFresh d) s
  | none => s

/-- Gives each copy of a list a descriptor of die `d`; `none`: the store has too few. -/
def describe (d : Nat) : List Copy → State → Option (List Copy × State)
  | [], s => some ([], s)
  | c :: rest, s =>
    match popDesc d s with
    | none => none
    | some (n, s) => (describe d rest s).map fun x => ({ c with desc := some n } :: x.1, x.2)

/-! ### Accounts -/

/-- Key of account `code` of die `d`. -/
def acctKey (d code : Nat) : Nat := d * 2048 + code

/-- Charges (or uncharges) cells to an account. -/
def charge (d code n : Nat) (s : State) : State :=
  if code = 0 then s else s.setUsed (acctKey d code) (s.usedC (acctKey d code) + n)
/-- Takes cells off an account. -/
def uncharge (d code n : Nat) (s : State) : State :=
  if code = 0 then s else s.setUsed (acctKey d code) (s.usedC (acctKey d code) - n)

/-- Account code of the ingress reserve of a port and queue, with its die apart (Table 05-5). -/
def acctIg (port q : Nat) : Nat := 10 + port % 128 * 8 + q

/-- Writes the link RAM entries of a packet's cells in order (Table 05-2, R174, R183). Its cells are closed when it is whole;
of a packet that still arrives, with serial number `rx`, none is. -/
def linkCells (nLu refs acct : Nat) (closed : Bool) (rx : Nat) : List Nat → State → State
  | [], s => s
  | [c], s => (s.setCellErr c none).setCell c { next := 0xFFFFF, closed := closed, luCnt := nLu % 4, refcnt := refs, acct := acct, owner := rx }
  | c :: c' :: rest, s =>
    linkCells (nLu - 4) refs acct closed rx (c' :: rest)
      ((s.setCellErr c none).setCell c { next := c', closed := closed, luCnt := 0, refcnt := refs, acct := acct, owner := rx })

/-- A failed allocation in slice `d` counts and raises CBF_ALLOC (R181). -/
def allocFail (d : Nat) (s : State) : State :=
  raise Cause.cbfAlloc (locDie d 0) (s.bump (F.CBF_ALLOC_FAIL_CNT_count d))

/-- Allocates the cells of a packet of `nLu` link units in slice `d`, read by `refs` readers and charged to `acct`: closed
when the packet is whole (`rx` = 0), open while it arrives; or fails (R181). -/
def writeCells (d nLu refs acct rx : Nat) (s : State) : Option (List Nat) × State :=
  match popCells d (ceilDiv nLu 4) s with
  | some (l, s1) => (some l, showFree d (charge d acct l.length (linkCells nLu refs acct (rx == 0) rx l s1)))
  | none => (none, allocFail d s)

/-! ### Cell data (R175) -/

/-- A reader reads a cell: a corrected error is counted and raises ECC_CE, an uncorrectable one is counted, raises CBF_ECC_UE,
and the answer is true (R175). -/
def readCell (c : Nat) (s : State) : Bool × State :=
  let d := c / 2 ^ 18
  match s.cellErr c with
  | none => (false, s)
  | some false => (false, raise Cause.eccCe (locDie d 0) (s.bump (F.CBF_ECC_CORR_CNT_count d)))
  | some true => (true, raise Cause.cbfEccUe (locDie d (c % 2 ^ 18)) (s.bump (F.CBF_ECC_UNCORR_CNT_count d)))

/-- The cells of a packet from its head, `n` of them. -/
def chain (s : State) : Nat → Nat → List Nat
  | 0, _ => []
  | n + 1, c => c :: chain s n (s.cell c).next

/-- The cells of a copy. -/
def copyCells (s : State) (c : Copy) : List Nat := chain s (ceilDiv c.nLu 4) c.head

/-- A reader finishes a cell: at 0 readers the cell goes back on its stack (R183). -/
def readDone (c : Nat) (s : State) : State :=
  let e := s.cell c
  if e.refcnt ≤ 1 then
    let d := c / 2 ^ 18
    let s := s.setCell c {}
    let s := setStack d (c % 2 ^ 18 :: pushedOf s d) (freshOf s d) s
    showFree d (uncharge d e.acct 1 s)
  else s.setCell c { e with refcnt := e.refcnt - 1 }

/-- One reader of a packet gives up its cells, none of which it has read. -/
def dropReader (cells : List Nat) (s : State) : State := forEach cells readDone s

/-- A copy gives up every cell it was to read, and so do the egress mirror sessions that its fan-out counts. -/
def dropCells (c : Copy) (s : State) : State :=
  forEach (0 :: c.mir) (fun _ s => dropReader (copyCells s c) s) s

/-- Moves a packet's cells to another account (R187). -/
def recharge (cells : List Nat) (acct : Nat) (s : State) : State :=
  forEach cells (fun c s =>
    let e := s.cell c
    let d := c / 2 ^ 18
    charge d acct 1 (uncharge d e.acct 1 (s.setCell c { e with acct := acct }))) s

/-! ### Credits -/

/-- Returns `n` link units of queue `q` to the peer of a port (R114); a drain withholds them (Table 14-10). -/
def giveCredits (port q n : Nat) (s : State) : State :=
  s.onLnk port fun l =>
    if l.withhold then { l with owed := setAt l.owed q (nth l.owed q + n) }
    else { l with myLim := setAt l.myLim q ((nth l.myLim q + n) % 65536) }

/-- The credits that a copy carries go back to its ingress reserve (R187). -/
def returnCredits (c : Copy) (s : State) : State :=
  if c.igPort < 512 && c.cred != 0 then giveCredits c.igPort c.igQueue c.cred s else s

/-- The cells of a rejected operation are freed and its credits go back (R550). -/
def releaseRejected (rel : Option (Nat × Nat × Nat × List Nat)) (s : State) : State :=
  match rel with
  | some (port, q, n, cells) => giveCredits port q n (dropReader cells s)
  | none => s

/-- Credits that the peer of a port advertises for queue `q` (R113). -/
def creditsOf (s : State) (port q : Nat) : Nat :=
  (nth (s.lnk port).peerLim q + 65536 - nth (s.lnk port).sentQ q) % 65536

/-! ### Routing versions in flight (R165) -/

/-- A packet leaves the versions it was looked up under. -/
def leaveVers (vs : List (Nat × Nat)) (s : State) : State :=
  forEach vs (fun v s => s.onRver v.1 fun r =>
    match r.retiring with
    | some (e, n) =>
      if e = v.2 then { r with retiring := some (e, n - 1) }
      else if r.epoch = v.2 then { r with inflight := r.inflight - 1 } else r
    | none => if r.epoch = v.2 then { r with inflight := r.inflight - 1 } else r) s

/-- A packet enters the versions it is looked up under. -/
def enterVers (vs : List (Nat × Nat)) (s : State) : State :=
  forEach vs (fun v s => s.onRver v.1 fun r => { r with inflight := r.inflight + 1 }) s

/-! ### Flushing -/

/-- A copy of `pk` toward `port` is flushed: the port is not UP, or is restricted and the packet is not link
maintenance (R150, R199); a service port sends link maintenance and Q7 only. -/
def flushing (s : State) (port : Nat) (pk : Pkt) : Bool :=
  !linkUp s port || ((restricted s port) && !isMaint pk) || (isSvc s port && !isMaint pk && qOf pk != 7)

/-- A copy leaves the device without being sent: its cells, its descriptor and its versions are given up. -/
def discardCopy (c : Copy) (s : State) : State := leaveVers c.vers (pushDescOf c (dropCells c s))

/-- Puts the return-to-sender NACK of a request in the list of those to send (R200); a context in its reset gets none (R462). -/
def nackFor (port : Nat) (pk : Pkt) (s : State) : State :=
  match pk with
  | .data p =>
    if getsCpl p.op && p.queue.toNat ≤ 5 && !gateClosed s p.ctx.toNat then
      let s := s.bump (F.PRT_NACK_CNT_count port)
      { s with core := { s.core with nacks := s.core.nacks ++ [switchCpl s p .unreach none] } }
    else s
  | .ctl _ => s

/-- Flushes a copy on its egress port (R199, R200). -/
def flushCopy (c : Copy) (s : State) : State :=
  let port := c.queue / 8
  nackFor port c.pkt (discardCopy c (s.bump (F.PRT_FLUSH_CNT_count port)))

/-! ### Queues -/

/-- The cells an egress queue holds. -/
def queueCells (l : List Copy) : Nat := l.foldl (fun n c => n + ceilDiv c.nLu 4) 0

/-- Bytes a packet is charged for (R232), from the length mode and the 9-bit overhead field. -/
def chargedLen (mode ovh : Nat) (pk : Pkt) : Nat :=
  let o : Int := if ovh < 256 then Int.ofNat ovh else max (-64) (Int.ofNat ovh - 512)
  let base : Nat :=
    if mode = 0 then 64 * nLuOf pk
    else match pk with
      | .data p => hdrSize p.form + payloadSize p.op p.dat (pktLen p)
      | .ctl c => 16 + c.lenM1.toNat + 1
  (max 1 (Int.ofNat base + o)).toNat

/-- A token bucket refilled at `rate` MB/s, a rate of 0 acting as 1, and capped at `cap` bytes (R227, R231). -/
def refill (b : Bucket) (now rate cap : Nat) : Bucket :=
  let add : Int := Int.ofNat ((now - b.upd) * (max 1 rate) * 65536 / 1000)
  { tok := min (b.tok + add) (Int.ofNat (cap * 65536)), upd := now }

/-- Places a queue on the calender at its next eligible time (R229, R230). -/
def placeCal (k : Nat) (w : Nat) (s : State) : State :=
  let d := portDie (k / 8)
  if w ≤ 4095 * 8 then
    s.onQsch k fun q => { q with cal := some ⟨false, (nth s.sched.fptr d + ceilDiv w 8) % 4096, s.now + w⟩ }
  else
    s.onQsch k fun q => { q with cal := some ⟨true, (nth s.sched.cptr d + min (w / 32000) 4095) % 4096, s.now + w⟩ }

/-- ns until negative tokens reach 0 (R229). -/
def nextEligible (tok : Int) (rate : Nat) : Nat := ceilDiv ((-tok).toNat * 1000) ((max 1 rate) * 65536)

/-- A queue that becomes non-empty takes the tokens accumulated up to the idle cap (R228) and, with negative tokens,
goes on the calender (R229); its head starts waiting now. -/
def wakeQueue (k : Nat) (s : State) : State :=
  let p := k / 8
  let q := k % 8
  let rate := s.fld (F.PRT_SHP_RATE_rate p q)
  let cap := min (s.fld (F.PRT_SHP_BURST_burst p q)) (s.fld (F.PRT_SHP_IDLE_idle_cap p q)) * 64
  let s := s.onQsch k fun r =>
    { r with bucket := refill r.bucket s.now rate cap, age := 0, starved := none, lateDone := false, headAt := s.now }
  if s.flag (F.PRT_Q_CFG_shp_en p q) && 2 ≤ q && (s.qsch k).bucket.tok < 0 && (s.qsch k).cal.isNone then
    placeCal k (nextEligible (s.qsch k).bucket.tok rate) s
  else s

/-- A queue that becomes empty loses its age and promotion (R210, R211); its bucket is brought up to now. -/
def idleQueue (k : Nat) (s : State) : State :=
  let p := k / 8
  let q := k % 8
  s.onQsch k fun r =>
    { r with age := 0, promoted := false, starved := none,
             bucket := refill r.bucket s.now (s.fld (F.PRT_SHP_RATE_rate p q)) (s.fld (F.PRT_SHP_BURST_burst p q) * 64) }

/-- Sets what is left of a queue: a new head starts to wait now (R199, R223), and an empty queue is idle. -/
def setQueue (k : Nat) (l : List Copy) (s : State) : State :=
  let old := s.eqQ k
  let s := s.setEq k l
  let s := if old.head?.map (·.desc) == l.head?.map (·.desc) then s
    else s.onQsch k fun r => { r with headAt := s.now, lateDone := false, starved := none }
  if l.isEmpty && !old.isEmpty then idleQueue k s else s

/-- Enqueues a copy on its egress queue, or flushes it on arrival (R178, R199, R240). -/
def enqueue (c : Copy) (s : State) : State :=
  let k := c.queue
  if flushing s (k / 8) c.pkt then flushCopy c s
  else
    let old := s.eqQ k
    let s := if old.isEmpty then wakeQueue k s else s
    let s := s.setEq k (old ++ [c])
    s.setFld (F.PRT_Q_PEAK_count (k / 8) (k % 8))
      (max (s.fld (F.PRT_Q_PEAK_count (k / 8) (k % 8))) (queueCells (old ++ [c])))

/-! ### Admission -/

/-- The account that would take a waiting packet in slice `d` (R188, R549); `none`: it is not admitted. -/
def admitTo (s : State) (d : Nat) (cs : List Copy) : Option Nat :=
  match cs with
  | [] => none
  | c :: _ =>
    let n := ceilDiv c.nLu 4
    let k : Nat := cs.foldl (fun (m : Nat) c => max m c.hops) 0
    let q : Nat := cs.foldl (fun (m : Nat) c => min m (c.queue % 8)) 7
    let e := k * 2 + respOf c.pkt
    if n + s.usedC (acctKey d (e + 1)) ≤ s.fld (F.CBF_EG_RES_res d e) then some (e + 1)
    else
      let guard :=
        if q ≤ 1 then 0
        else if q ≤ 5 then if c.yellow then s.fld (F.CBF_THRESH_dsc_thresh d) else s.fld (F.CBF_THRESH_blk_guard d)
        else if q = 6 then s.fld (F.CBF_THRESH_dsc_thresh d) else s.fld (F.CBF_THRESH_mir_thresh d)
      let free := s.fld (F.CBF_SHARED_cells d) - s.usedC (acctKey d 9)
      let fits := cs.all fun c =>
        c.queue % 8 ≤ 1 || queueCells (s.eqQ c.queue) < s.fld (F.PRT_EQ_MAX_qmax (c.queue / 8) (c.queue % 8))
      if n + guard * 64 ≤ free && fits then some 9 else none

/-- The context shaper's view of a packet: its context when it meters the packet (R233). -/
def shapedCtx (s : State) (igPort igQueue : Nat) (pk : Pkt) : Option Nat :=
  if igPort < 512 && isEp s igPort && 2 ≤ igQueue && igQueue ≤ 6 then
    match ctxOf pk with
    | some x => if s.flag (F.SHP_CTX_RATE_en x) then some x else none
    | none => none
  else none

/-- A context's bucket, refilled to now (R227, R233). -/
def ctxBucket (s : State) (x : Nat) : Bucket :=
  refill (Sparse.get (fun _ => {}) s.sched.ctx x) s.now (s.fld (F.SHP_CTX_RATE_rate x))
    (s.fld (F.SHP_CTX_BURST_burst x) * 64)

/-- The context shaper lets a packet pass (R233). -/
def ctxPasses (s : State) (igPort igQueue : Nat) (pk : Pkt) : Bool :=
  match shapedCtx s igPort igQueue pk with
  | some x => 0 ≤ (ctxBucket s x).tok
  | none => true

/-- The context shaper is debited at admission (R233). -/
def debitPacket (igPort igQueue : Nat) (pk : Pkt) (s : State) : State :=
  match shapedCtx s igPort igQueue pk with
  | some x =>
    let b := ctxBucket s x
    let l := chargedLen (s.fld (F.SHP_CTX_BURST_len_mode x)) (s.fld (F.SHP_CTX_BURST_ovh x)) pk
    { s with sched := { s.sched with
        ctx := Sparse.put (fun _ => {}) s.sched.ctx x { b with tok := b.tok - Int.ofNat (l * 65536) } } }
  | none => s

/-- The context shaper lets a copy pass (R233). -/
def ctxAllows (s : State) (c : Copy) : Bool := ctxPasses s c.igPort c.igQueue c.pkt
/-- The debit of a copy's packet; only the copy that carries its credits pays, so a packet of several copies pays once. -/
def debitCtx (c : Copy) (s : State) : State := if c.cred = 0 then s else debitPacket c.igPort c.igQueue c.pkt s
/-- A packet that its context shaper holds counts once (R233). -/
def countHeld (pk : Pkt) (s : State) : State :=
  match ctxOf pk with | some x => s.bump (F.SHP_CTX_WAIT_CNT_count x) | none => s

/-- Admits a packet to account `acct` of slice `d`: the charge moves, the ingress credits return, its copies are
enqueued (R187, R550). -/
def letIn (acct : Nat) (w : Waiting) (s : State) : State :=
  match w.copies with
  | [] => releaseRejected w.rel s
  | c :: _ =>
    let s := recharge (copyCells s c) acct s
    let s := forEach w.copies (fun c s => returnCredits c (debitCtx c s)) s
    let s := releaseRejected w.rel s
    let s := showFree (c.head / 2 ^ 18) s
    forEach w.copies (fun c s => enqueue { c with acct := acct - 1 } s) s

/-- Discards a packet of Q6 or Q7 that is not admitted (R198, R202). -/
def discardUnadmitted (w : Waiting) (s : State) : State :=
  releaseRejected w.rel <| forEach w.copies (fun c s =>
    let port := c.queue / 8
    let s := if c.queue % 8 = 6 then s.bump (F.PRT_DSC_DROP_CNT_count port) else s.bump (F.PRT_MIR_DROP_CNT_count port)
    discardCopy c (returnCredits c s)) s

/-- The lowest queue among a packet's copies: Q0 to Q5 wait for admission, Q6 and Q7 do not (R188, R549). -/
def lowQueue (w : Waiting) : Nat := w.copies.foldl (fun m c => min m (c.queue % 8)) 7

/-- Offers a packet of slice `d` for admission behind the packets that wait on list `key` (R188, R198, R233). -/
def offer (d key : Nat) (w : Waiting) (s : State) : State :=
  match w.copies with
  | [] => s
  | c :: _ =>
    let ahead := s.waitQ key
    if ahead.isEmpty then
      match ctxAllows s c, admitTo s d w.copies with
      | true, some a => letIn a w s
      | true, none => if 6 ≤ lowQueue w then discardUnadmitted w s else s.setWait key [w]
      | false, _ => (countHeld c.pkt s).setWait key [{ w with counted := true }]
    else s.setWait key (ahead ++ [w])

/-- A copy whose transfer over a die-to-die link has begun and not ended (R195). -/
def crossing (s : State) (c : Copy) : Bool :=
  c.xid != 0 && s.core.xfer.any fun x => x.2.any fun t => t.own == c.xid

/-- The egress queue that push-out takes from: Q7 before Q6, the most cells, the lower port (R197). -/
def pushOutQueue (s : State) (d : Nat) : Option Nat :=
  let best (q : Nat) : Option Nat :=
    (upTo 128).foldl (fun b i =>
      let k := (d * 128 + i) * 8 + q
      let n := queueCells (s.eqQ k)
      if !(s.eqQ k).any (fun c => !crossing s c) then b
      else match b with
        | none => some k
        | some j => if queueCells (s.eqQ j) < n then some k else b) none
  match best 7 with
  | some k => some k
  | none => best 6

/-- Pushes out the last copy of the chosen Q6 or Q7 queue of slice `d` that does not still cross (R195, R197). -/
def pushOut (d : Nat) (s : State) : State :=
  match pushOutQueue s d with
  | none => s
  | some k =>
    match (s.eqQ k).reverse.find? fun c => !crossing s c with
    | none => s
    | some c =>
      let rest := (s.eqQ k).filter fun x => x.head != c.head || x.desc != c.desc
      let s := setQueue k rest s
      let s := if k % 8 = 6 then s.bump (F.PRT_DSC_DROP_CNT_count (k / 8)) else s.bump (F.PRT_MIR_DROP_CNT_count (k / 8))
      discardCopy c s

/-- Tries the head of the waiting list `key` of slice `d`: admitted, or one Q6 or Q7 packet pushed out for it and the
admission tried again; a Q6 packet that its shaper had held is discarded at that moment (R188, R197, R198, R233). -/
def admitHead (d key : Nat) (s : State) : State :=
  match s.waitQ key with
  | [] => s
  | w :: rest =>
    match w.copies with
    | [] => s.setWait key rest
    | c :: _ =>
      if ctxAllows s c then
        match admitTo s d w.copies with
        | some a => letIn a w (s.setWait key rest)
        | none =>
          if 6 ≤ lowQueue w then discardUnadmitted w (s.setWait key rest)
          else
            let s := pushOut d s
            match admitTo s d w.copies with
            | some a => letIn a w (s.setWait key rest)
            | none => s
      else if w.counted then s
      else (countHeld c.pkt s).setWait key ({ w with counted := true } :: rest)

/-- The waiting list of packets that the switch originates on a port and queue. -/
def originKey (port q : Nat) : Nat := 8192 + port * 8 + q

/-- ADMISSION at a port and queue: the head of what the switch originates there (R178, R550) and of what it received there
are tried, in that order (R188). -/
def admitQueue (port q : Nat) (s : State) : State :=
  admitHead (portDie port) (port * 8 + q) (admitHead (portDie port) (originKey port q) s)

end Sys2Proof.Machine
end

