-- ==== Sys2Proof/Machine/Versions.lean ====
section
/-! DEFINITION. Versions and epochs of routing entries (R165 to R170): in-flight packets, retirement, pending writes, ordered
packets held on a change. -/

namespace Sys2Proof.Machine

/-! ### Entries and their registers -/

/-- The register that holds the epoch field of the entry with key `k`: the upper half of a 64-bit entry. -/
def epochReg (k : Nat) : Nat :=
  if R.RTE_ROW_LO 0 ≤ k ∧ k < R.RTE_COL_LO 0 + 256 then k + 4 else k

/-- A 64-bit routing entry (RTE_ROW, RTE_COL). -/
def isWide (k : Nat) : Bool := decide (R.RTE_ROW_LO 0 ≤ k ∧ k < R.RTE_COL_LO 0 + 256)

/-- The settled bit of the table that holds entry `k` (R170). -/
def settledBit (k : Nat) : FieldRef :=
  if k < R.RTE_ROW_LO 0 then F.RTE_UPD_STATUS_local_settled
  else if k < R.RTE_COL_LO 0 then F.RTE_UPD_STATUS_row_settled
  else if k < R.RTE_COL_LO 0 + 256 then F.RTE_UPD_STATUS_col_settled
  else F.RTE_UPD_STATUS_dest_settled

/-- Recomputes the settled bit of the table of entry `k` (R170). -/
def showSettled (k : Nat) (s : State) : State :=
  let f := settledBit k
  let busy := s.rte.ver.any fun e =>
    (settledBit e.1 == f) && (e.2.retiring.isSome || e.2.pending.isSome)
  let held := s.rte.held.any fun h => settledBit h.entry == f
  s.setFlag f (!busy && !held)

/-- Shows the epoch of the active version (R167). -/
def showEpoch (k : Nat) (s : State) : State :=
  s.setFld ⟨epochReg k, 24, 8⟩ (s.rver k).epoch

/-! ### Versions -/

/-- A new version of entry `k` (R166): the old one retires, at once when nothing is in flight on it; while an earlier one is
still retiring the write is pending (R167). `hold` is false for a change of R153 that removes a dead port: it holds nothing,
and what an earlier change holds stays held. -/
def newVersion (k : Nat) (v : BitVec 64) (hold : Bool) (s : State) : State :=
  let r := s.rver k
  let s :=
    if r.retiring.isSome then s.onRver k fun r => { r with pending := some (v, hold) }
    else s.onRver k fun r =>
      { r with
        active := v, epoch := (r.epoch + 1) % 256, inflight := 0, pending := none,
        retiring := if r.inflight = 0 then none else some (r.epoch, r.inflight)
        retiredAt := if r.inflight ≠ 0 then none else if hold || r.old.isNone then some s.now else r.retiredAt
        old := if hold then some (r.active, v) else r.old }
  showSettled k (showEpoch k s)

/-- The switch itself changes an entry (R153, R154, R166): a version only when the value differs; the register shows it, a
staged lower half apart (R167). -/
def hwRoute (k : Nat) (v : BitVec 64) (hold : Bool) (s : State) : State :=
  if ((s.rver k).pending.map (·.1)).getD (s.rver k).active = v then s
  else
    let s := if (s.rver k).staged.isSome then s else s.wr k (v.extractLsb' 0 32)
    let s := if isWide k then s.wr (k + 4) (v.extractLsb' 32 32) else s
    newVersion k v hold s

/-- Whether the last change of entry `k` still holds ordered packets (R168): the version before it has not retired, or
ord_settle has not passed since. -/
def holding (s : State) (k : Nat) : Bool :=
  let r := s.rver k
  r.old.isSome &&
    (r.retiring.isSome ||
      match r.retiredAt with
      | some t => s.now < t + (max 1 (s.fld F.RTE_CFG_ord_settle)) * 1000
      | none => false)

/-! ### Packets on versions -/

/-- The versions a lookup captures (R165). -/
def captured (s : State) (keys : List Nat) : List (Nat × Nat) := keys.map fun k => (k, (s.rver k).epoch)

/-- Holds an ordered packet on the change of an entry (R168). -/
def holdPacket (h : Held) (s : State) : State :=
  let s := s.bump F.RTE_ORD_HOLD_CNT_count
  showSettled h.entry { s with rte := { s.rte with held := s.rte.held ++ [h] } }

/-- Held packets that satisfy `f` are dropped with their cells; their credits return (R168, R170). -/
def removeHeld (f : Held → Bool) (s : State) : State :=
  let gone := s.rte.held.filter f
  let s := { s with rte := { s.rte with held := s.rte.held.filter fun h => !f h } }
  forEach gone (fun h s =>
    showSettled h.entry (match h.copy with
      | some c => discardCopy c (returnCredits c s)
      | none => leaveVers h.target.vers s)) s

end Sys2Proof.Machine
end

