-- ==== Sys2Proof/Machine/Copies.lean ====
section
/-! DEFINITION. Copies of packets (file 05): their descriptors (Table 05-3), mirroring (R201, R202), how a packet is written
into cells and its copies go on their way (R177, R181 to R184, R549, R550), flushing of queues (R199). -/

namespace Sys2Proof.Machine

/-! ### Copies -/

/-- Where a packet comes from: its ingress port (0x3FF: of this switch), queue, active lanes at its first link unit, the
serial number while it arrives, and whether it is yellow. -/
structure Origin where
  port : Nat := 0x3FF
  q : Nat := 0
  lanes : Nat := 0
  rx : Nat := 0
  yellow : Bool := false
  deriving DecidableEq, Repr

/-- A packet of this switch. -/
def ownOrigin : Origin := {}

/-- The copy descriptor of a target; cut-through is decided later (R191). -/
def mkCopy (s : State) (head : Nat) (o : Origin) (t : Target) : Copy :=
  { pkt := t.pkt, head := head, nLu := nLuOf t.pkt, queue := t.port * 8 + t.q, igPort := o.port, igQueue := o.q,
    acct := 0, cut := false, hdr := t.hdr, stamp := s.tbase % 2 ^ 32, hops := t.hops, vers := t.vers, stomp := false,
    yellow := o.yellow, rx := o.rx, lanes := o.lanes }

/-! ### Mirroring -/

/-- The fields a flow filter matches (CBF_MIR_FLOW, CBF_MIR_EP). -/
def flowMatch (s : State) (m : Nat) (pk : Pkt) : Bool :=
  match pk with
  | .data p =>
    (!s.flag (F.CBF_MIR_FLOW_ctx_en m) || s.fld (F.CBF_MIR_FLOW_ctx m) == p.ctx.toNat)
      && (!s.flag (F.CBF_MIR_FLOW_op_en m) || s.fld (F.CBF_MIR_FLOW_op m) == (opCode p.op).toNat)
      && (!s.flag (F.CBF_MIR_EP_src_en m) || (s.fld (F.CBF_MIR_EP_src m) == p.src.toNat && !p.ssw))
      && (!s.flag (F.CBF_MIR_EP_dst_en m) || (s.fld (F.CBF_MIR_EP_dst m) == dstEpOf p && !p.dsw))
  | .ctl _ => false

/-- The active sessions that select a packet: `egress` for one sent on `port`, otherwise one received on it (R201). -/
def mirSelect (s : State) (egress : Bool) (port : Nat) (pk : Pkt) : List Nat :=
  (upTo 16).filter fun m =>
    s.flag (F.CBF_MIR_SRC_en m) && isSvc s (s.fld (F.CBF_MIR_DST_port m)) &&
      (let k := s.fld (F.CBF_MIR_SRC_kind m)
       if k = 1 then egress && s.fld (F.CBF_MIR_SRC_port m) == port
       else if k = 2 then !egress && flowMatch s m pk
       else !egress && s.fld (F.CBF_MIR_SRC_port m) == port)

/-- The egress sessions that a copy's fan-out counts as readers (R184, R201); a mirror copy has none. -/
def egressMirrors (s : State) (t : Target) : List Nat := if t.q = 7 then [] else mirSelect s true t.port t.pkt

/-- How many packets session `m` has selected since en was set. -/
def mirCount (s : State) (m : Nat) : Nat := Sparse.get (fun _ => 0) s.core.mirCnt m

/-- One session's copy of a packet whose cells start at `head` in slice `d`, read by the reader that the packet's fan-out
counts for it (R184, R201, R202): every 2^sample_exp-th packet; discarded and counted when R188 does not admit it or the peer
advertises no Q7 credits. Cells that hold the packet for mirrors alone (`own`) are charged where the copy is admitted. -/
def mirrorOne (d head rx : Nat) (own : Bool) (pk : Pkt) (m : Nat) (s : State) : State :=
  let n := mirCount s m
  let s := { s with core := { s.core with mirCnt := Sparse.put (fun _ => 0) s.core.mirCnt m (n + 1) } }
  let port := s.fld (F.CBF_MIR_DST_port m)
  let c := mkCopy s head { rx := rx } { port := port, q := 7, hops := 0, hdr := 0, pkt := pk }
  if n % 2 ^ s.fld (F.CBF_MIR_SRC_sample_exp m) ≠ 0 then dropCells c s
  else
    let missed (s : State) : State := s.bump (F.PRT_MIR_DROP_CNT_count port)
    if creditsOf s port 7 = 0 then missed (dropCells c s)
    else match describe d [c] s with
      | some ([c], s) =>
        if portDie port = d then
          match admitTo s d [c] with
          | some a => enqueue { c with acct := a - 1 } (if own then recharge (copyCells s c) a s else s)
          | none => missed (discardCopy c s)
        else s.setXq (d * 4096 + c.queue) (s.xqQ (d * 4096 + c.queue) ++ [c])
      | _ => missed (dropCells c s)

/-! ### Packets on their way -/

/-- The credits of a packet ride on one of its copies (R187, R549): on the first that leaves from the ingress slice, or else
on the first of all. -/
def withCredits (d n : Nat) (cs : List Copy) : List Copy :=
  let local_ := cs.any fun c => portDie (c.queue / 8) == d
  match cs.zipIdx.find? fun x => !local_ || portDie (x.1.queue / 8) == d with
  | some (c, i) => cs.set i { c with cred := n }
  | none => cs

/-- Sends a packet's copies, made in slice `d`, on their way: those for ports of `d` are offered for admission together
under list `key`, those for other dies join their crossbar queues (R177, R187, R193, R549). A store with too few descriptors
discards the packet like a failed allocation. -/
def placeCopies (d key : Nat) (rel : Option (Nat × Nat × Nat × List Nat)) (copies : List Copy) (s : State) : State :=
  match describe d copies s with
  | none => releaseRejected rel (forEach copies (fun c s => discardCopy c (returnCredits c s)) (allocFail d s))
  | some (copies, s) =>
    let here := copies.filter fun c => portDie (c.queue / 8) == d
    let away := copies.filter fun c => portDie (c.queue / 8) != d
    let s := forEach away (fun c s =>
      if flushing s (c.queue / 8) c.pkt then flushCopy c (returnCredits c s)
      else
        let k := d * 4096 + c.queue
        s.setXq k (s.xqQ k ++ [c])) s
    if here.isEmpty then s else offer d key { copies := here, rel := rel } s

/-- The readers of a packet's cells in the slice that it enters (R183, R184): each copy, each egress session of a copy that
leaves from there, and each ingress session. -/
def readersOf (s : State) (d : Nat) (ts : List Target) (mir : List Nat) : Nat :=
  ts.foldl (fun n t => n + 1 + if portDie t.port = d then (egressMirrors s t).length else 0) mir.length

/-- The copies of a packet of `n` link units whose cells start at `head` in slice `d`. -/
def copiesOf (s : State) (d head n : Nat) (o : Origin) (ts : List Target) : List Copy :=
  let cs := ts.map fun t =>
    { mkCopy s head o t with mir := if portDie t.port = d then egressMirrors s t else [] }
  if o.port < 512 then withCredits d n cs else cs

/-- The held packet of a target and its copy. -/
def heldOf (ig : Nat) (t : Target) (c : Option Copy) : Option Held := t.hold.map fun k => ⟨k, ig, t, c⟩

/-- Writes a packet of this switch into cells of slice `d` for its targets and sends its copies on their way (R177, R181,
R183). -/
def dispatch (d key : Nat) (rel : Option (Nat × Nat × Nat × List Nat)) (ts : List Target) (s : State) : State :=
  match ts with
  | [] => releaseRejected rel s
  | t :: _ =>
    match writeCells d (nLuOf t.pkt) (readersOf s d ts []) 0 0 s with
    | (none, s) => releaseRejected rel (forEach ts (fun t s => leaveVers t.vers s) s)
    | (some cells, s) => placeCopies d key rel (copiesOf s d (cells.headD 0) 0 ownOrigin ts) s

/-- Writes a packet of this switch into the slices of the dies that serve its ports (R177, R550). -/
def placeOwn (ts : List Target) (s : State) : State :=
  forEach (upTo 4) (fun e s =>
    let mine := ts.filter fun t => portDie t.port == e
    match mine with
    | [] => s
    | t :: _ => dispatch e (originKey t.port t.q) none mine s) s

/-- Sends a packet that this switch wrote, with its lookups; a copy that a route change holds takes its cells when it goes on
(R165, R168). -/
def sendOwn (ts : List Target) (s : State) : State :=
  let s := forEach ts (fun t s => enterVers t.vers s) s
  let s := forEach ts (fun t s => match heldOf 0x3FF t none with | some h => holdPacket h s | none => s) s
  placeOwn (ts.filter fun t => t.hold.isNone) s

/-- A packet that the switch's own logic originates on a port (R550), after the lookups of `keys`; `rel` is the operation that
it rejects. -/
def originateFor (port : Nat) (keys : List Nat) (rel : Option (Nat × Nat × Nat × List Nat)) (pk : Pkt) (s : State) : State :=
  let q := qOf pk
  let t : Target := { port := port, q := q, hops := if isFab s port then 1 else 0, hdr := 0, pkt := pk,
                       vers := captured s keys }
  dispatch (portDie port) (originKey port q) rel [t] (enterVers t.vers s)

/-- A packet that the switch's own logic originates on a port (R550). -/
def originate (port : Nat) (pk : Pkt) (s : State) : State := originateFor port [] none pk s

/-! ### Flushing -/

/-- Copies of a flushed queue are flushed, in its egress queue and the crossbar queues toward it (R199): not one whose transfer
has begun; `keep` spares link maintenance on a restricted port that is UP. -/
def flushQueue (k : Nat) (keep : Pkt → Bool) (s : State) : State :=
  let mine := s.eqQ k
  let spare (c : Copy) : Bool := keep c.pkt || crossing s c
  let stay := mine.filter spare
  let s := setQueue k stay s
  let s := forEach (mine.filter fun c => !spare c) flushCopy s
  forEach (upTo 4) (fun d s =>
    let x := s.xqQ (d * 4096 + k)
    let s := s.setXq (d * 4096 + k) (x.filter fun c => keep c.pkt)
    forEach (x.filter fun c => !keep c.pkt) (fun c s => flushCopy c (returnCredits c s)) s) s

/-- Flushes every queue of a port (R199). -/
def flushPort (p : Nat) (s : State) : State :=
  let keep : Pkt → Bool := fun pk => linkUp s p && isMaint pk
  forEach (upTo 8) (fun q s => flushQueue (p * 8 + q) keep s) s

end Sys2Proof.Machine
end

