-- ==== Sys2Proof/Machine/Route.lean ====
section
/-! DEFINITION. Routing (file 04): the stream hash (R156), minimal and
non-minimal paths (R155, R157 to R160), the ports of a multicast (R162). -/

namespace Sys2Proof.Machine

/-! ### The stream hash -/

/-- What the stream hash is formed from (R156): source, queue, kind and destination key. -/
structure Stream where
  src : Nat
  queue : Nat
  kind : Nat
  key : Nat
  deriving DecidableEq, Repr

/-- The stream hash h of R156. -/
def streamHash (s : State) (t : Stream) : Nat :=
  let k := t.src % 2 ^ 15 + t.queue % 8 * 2 ^ 15 + t.kind % 4 * 2 ^ 18 + t.key % 2 ^ 26 * 2 ^ 20
  Nat.xor (Nat.xor (bits k 0 16) (bits k 16 16)) (Nat.xor (bits k 32 16) (s.fld F.RTE_HASH_SALT_salt))

/-! ### Entries -/

/-- The active value of RTE_ROW[c]. -/
def rowE (s : State) (c : Nat) : Nat := (s.rver (R.RTE_ROW_LO c)).active.toNat
/-- The active value of RTE_COL[r]. -/
def colE (s : State) (r : Nat) : Nat := (s.rver (R.RTE_COL_LO r)).active.toNat
/-- The active value of RTE_DEST[r × 32 + c]. -/
def destE (s : State) (r c : Nat) : Nat := (s.rver (R.RTE_DEST (r * 32 + c))).active.toNat

/-- valid of a row or column entry. -/
def entValid (v : Nat) : Bool := bitOf v 48
/-- Port field `i` of a row or column entry. -/
def entPort (v i : Nat) : Nat := if i = 3 then bits v 32 9 else bits v (9 * i) 9
/-- The four port fields. -/
def entPorts (v : Nat) : List Nat := [entPort v 0, entPort v 1, entPort v 2, entPort v 3]

/-- Cost of a port for queue `q` (R158). -/
def portCost (s : State) (q p : Nat) : Nat := queueCells (s.eqQ (p * 8 + q)) * 8 / max 1 (activeLanes s p)

/-- The lowest-cost port, ties to the lower number. -/
def cheapest (s : State) (q : Nat) : List Nat → Option Nat
  | [] => none
  | p :: rest =>
    match cheapest s q rest with
    | none => some p
    | some b =>
      let a := portCost s q p
      let c := portCost s q b
      if a < c ∨ (a = c ∧ p < b) then some p else some b

/-- What a route lookup answers: port, remaining hops, whether the hop is non-minimal, entries looked up. -/
structure RouteOut where
  port : Nat
  hops : Nat
  nm : Bool
  keys : List Nat
  deriving DecidableEq, Repr

/-- The candidate entries of a minimal path to (r, c) (R157): keys and values. -/
def minimalEntries (s : State) (r c : Nat) : List (Nat × Nat) :=
  if r = ownRow s then [(R.RTE_ROW_LO c, rowE s c)]
  else if c = ownCol s then [(R.RTE_COL_LO r, colE s r)]
  else
    (if bitOf (destE s r c) 1 && entValid (rowE s c) then [(R.RTE_ROW_LO c, rowE s c)] else [])
    ++ (if bitOf (destE s r c) 2 && entValid (colE s r) then [(R.RTE_COL_LO r, colE s r)] else [])

/-- Remaining hops of a minimal first hop to (r, c) (R186). -/
def minimalHops (s : State) (r c : Nat) : Nat := if r = ownRow s ∨ c = ownCol s then 1 else 2

/-- The minimal path of an ordered packet (R157). -/
def routeOrdered (s : State) (h r c : Nat) : Option RouteOut :=
  let es := minimalEntries s r c
  let pick : Option (Nat × Nat) :=
    match es with
    | [] => none
    | [e] => some e
    | e :: f :: _ => if bitOf h 2 then some f else some e
  match pick with
  | none => none
  | some (k, v) =>
    if entValid v then
      some { port := entPort v (h % 4), hops := minimalHops s r c, nm := false, keys := [k, R.RTE_DEST (r * 32 + c)] }
    else none

/-- The minimal path of an unordered packet (R158). -/
def routeUnordered (s : State) (q r c : Nat) : Option RouteOut :=
  let es := (minimalEntries s r c).filter fun e => entValid e.2
  (cheapest s q (es.flatMap fun e => entPorts e.2)).map fun p =>
    { port := p, hops := minimalHops s r c, nm := false, keys := es.map (·.1) ++ [R.RTE_DEST (r * 32 + c)] }

/-- The intermediate entry that the scan of R159 finds: the index, its key and value. -/
def nmScan (s : State) (igPort r c : Nat) : Option (Nat × Nat × Nat) :=
  if c = ownCol s then
    let start := (s.pdisc igPort).rowPtr
    ((upTo 32).map fun i => (start + i) % 32).findSome? fun m =>
      if m ≠ ownRow s ∧ m ≠ r ∧ entValid (colE s m) ∧ bitOf (destE s m (ownCol s)) 0 then
        some (m, R.RTE_COL_LO m, colE s m) else none
  else
    let start := (s.pdisc igPort).colPtr
    let row := if r = ownRow s then ownRow s else r
    ((upTo 32).map fun i => (start + i) % 32).findSome? fun m =>
      if m ≠ ownCol s ∧ m ≠ c ∧ entValid (rowE s m) ∧ bitOf (destE s row m) 0 then
        some (m, R.RTE_ROW_LO m, rowE s m) else none

/-- The RTE_DEST entry that the scan of R159 reads for intermediate `m`. -/
def nmDest (s : State) (r c m : Nat) : Nat :=
  if c = ownCol s then R.RTE_DEST (m * 32 + ownCol s) else R.RTE_DEST (r * 32 + m)

/-- A packet at its source leaf, from endpoint port `ig`, unordered in Q2 to Q6: the non-minimal hop of R159, or its
minimal choice; the scanned pointer moves and RTE_NM_CNT counts. -/
def routeAtSource (ig q r c : Nat) (s : State) : Option RouteOut × State :=
  match routeUnordered s q r c with
  | none => (none, s)
  | some m =>
    let best := portCost s q m.port
    if s.flag F.RTE_CFG_nm_en && bitOf (destE s r c) 3 && s.fld F.RTE_CFG_nm_thresh < best then
      match nmScan s ig r c with
      | none => (some m, s)
      | some (i, k, v) =>
        let s := s.onPdisc ig fun d =>
          if c = ownCol s then { d with rowPtr := (i + 1) % 32 } else { d with colPtr := (i + 1) % 32 }
        match cheapest s q (entPorts v) with
        | none => (some m, s)
        | some p =>
          if portCost s q p + s.fld F.RTE_CFG_nm_bias < best then
            (some { port := p, hops := if r = ownRow s ∨ c = ownCol s then 2 else 3, nm := true,
                    keys := k :: nmDest s r c i :: m.keys }, s.bump F.RTE_NM_CNT_count)
          else (some m, s)
    else (some m, s)

/-- Whether (r, c) is out of reach before any entry is read (R155). -/
def noDest (s : State) (r c : Nat) : Bool :=
  decide (rowsN s ≤ r) || decide (colsN s ≤ c) || !bitOf (destE s r c) 0

/-- The route to another switch (R155 to R160). `src` is the endpoint port of a packet at its source leaf that may take
a non-minimal hop. -/
def routeTo (h q : Nat) (ordered : Bool) (src : Option Nat) (r c : Nat) (s : State) : Option RouteOut × State :=
  if noDest s r c then (none, s)
  else if ordered then (routeOrdered s h r c, s)
  else match src with
    | some ig => routeAtSource ig q r c s
    | none => (routeUnordered s q r c, s)

/-- The routing entry a lookup of a packet for (r, c) may read whose last change makes ordered packets of hash `h` take another
port (R168). -/
def movedBy (s : State) (h r c : Nat) : Option Nat :=
  [R.RTE_DEST (r * 32 + c), R.RTE_ROW_LO c, R.RTE_COL_LO r].find? fun k =>
    holding s k &&
      match (s.rver k).old with
      | some (v, w) =>
        let under (x : BitVec 64) := (routeOrdered (s.onRver k fun y => { y with active := x }) h r c).map (·.port)
        under v != none && under v != under w
      | none => false

/-- The entry that holds an ordered packet from port `ig` and queue `q` for (r, c) (R168): that of a packet of its stream that
is still held ahead of it, or the one whose change moves its port. -/
def heldBy (s : State) (ig q h r c : Nat) : Option Nat :=
  match s.rte.held.find? fun x => x.port == ig && x.target.q == q && x.target.route == (h, r, c) with
  | some x => some x.entry
  | none => movedBy s h r c

/-- The route mark of packets that RTE_LOCAL[k] sends. -/
def localRoute (k : Nat) : Nat × Nat × Nat := (R.RTE_LOCAL k, 4096, 4096)

/-- The entry RTE_LOCAL[k] holds an ordered packet from port `ig` and queue `q` for local port `k` (R168): its last change moves
the endpoint to another port, or a packet that it held is still ahead. -/
def heldLocal (s : State) (ig q k : Nat) : Option Nat :=
  let key := R.RTE_LOCAL k
  let moved : Bool := match (s.rver key).old with
    | some (v, w) => bitOf v.toNat 9 && bits v.toNat 0 10 != bits w.toNat 0 10
    | none => false
  if (holding s key && moved) || s.rte.held.any (fun x => x.port == ig && x.target.q == q && x.target.route == localRoute k) then
    some key
  else none

/-- A target on the port that RTE_LOCAL gives local port `k` (R161, R165). -/
def localTarget (s : State) (ig : Nat) (ordered : Bool) (k port hdr : Nat) (pk : Pkt) : Target :=
  { port := port, q := qOf pk, hops := 0, hdr := hdr, pkt := pk, vers := captured s [R.RTE_LOCAL k],
    hold := if ordered then heldLocal s ig (qOf pk) k else none, route := localRoute k }

/-- The port toward the peer that shares this switch's line: column `c` of its row, or row `r` of its column (R162). -/
def peerPort (s : State) (alongRow : Bool) (i h : Nat) : Option Nat :=
  let v := if alongRow then rowE s i else colE s i
  if entValid v then some (entPort v (h % 4)) else none

/-! ### Usable ports (R153) -/

/-- A usable fabric port: UP, not quarantined, its peer placed (R153). -/
def usable (s : State) (p : Nat) : Bool :=
  isFab s p && linkUp s p && !quarantined s p && (s.pdisc p).hello && (s.pdisc p).peerPlaced

/-- Usable ports toward the peer at (r, c), ascending. -/
def portsTo (s : State) (r c : Nat) : List Nat :=
  (enabledPorts s).filter fun p => usable s p && (s.pdisc p).peerRow == r && (s.pdisc p).peerCol == c

/-- A row or column entry made of port fields, valid and sw_lock. -/
def mkEntry (valid lock : Bool) (f : Nat → Nat) : BitVec 64 :=
  BitVec.ofNat 64 (f 0 + f 1 * 2 ^ 9 + f 2 * 2 ^ 18 + f 3 * 2 ^ 32 + ofBool valid * 2 ^ 48 + ofBool lock * 2 ^ 49)

/-- The entry toward a peer once port `p` starts or stops being usable (R153): a set that grows is dealt afresh; a field
whose port stopped takes the next field's port, cyclically, that is still usable; none left, valid := 0. -/
def maintained (old : Nat) (ports : List Nat) (grew : Bool) : BitVec 64 :=
  match ports with
  | [] => mkEntry false false (entPort old)
  | _ =>
    if grew || !entValid old then mkEntry true false fun i => ports.getD (i % ports.length) 0
    else mkEntry true false fun i =>
      if ports.contains (entPort old i) then entPort old i
      else (([i + 1, i + 2, i + 3].map fun j => entPort old (j % 4)).find? ports.contains).getD (ports.headD 0)

/-- The value last given to a routing entry: a pending one, or the active one (R167). -/
def latest (s : State) (k : Nat) : BitVec 64 := ((s.rver k).pending.map (·.1)).getD (s.rver k).active

/-- Rewrites the RTE_ROW or RTE_COL entry toward the peer at (r, c), to which port `p` starts (`grew`) or stops being usable; a
change that removes a port that is no longer UP holds nothing (R153, R168). -/
def usableAt (p r c : Nat) (grew : Bool) (s : State) : State :=
  let upd (k : Nat) (s : State) : State :=
    let v := (latest s k).toNat
    if bitOf v 49 then s else hwRoute k (maintained v (portsTo s r c) grew) (linkUp s p) s
  if !placed s then s
  else if r = ownRow s ∧ c ≠ ownCol s then upd (R.RTE_ROW_LO c) s
  else if c = ownCol s ∧ r ≠ ownRow s then upd (R.RTE_COL_LO r) s
  else s

/-- Rewrites the entry toward the placed peer of fabric port `p` (R153). -/
def usableChange (p : Nat) (grew : Bool) (s : State) : State :=
  let d := s.pdisc p
  if d.peerPlaced then usableAt p d.peerRow d.peerCol grew s else s

/-- At entry into RUN every RTE_DEST entry inside the loom but the switch's own takes all four bits, the others 0
(R154); the row and column entries of usable peers are set (R153). -/
def enterRun (s : State) : State :=
  let s := forEach (upTo 1024) (fun i s =>
    let r := i / 32
    let c := i % 32
    let inside := decide (r < rowsN s ∧ c < colsN s) && !(r == ownRow s && c == ownCol s)
    hwRoute (R.RTE_DEST i) (if inside then 15 else 0) true s) s
  forEach (enabledPorts s) (fun p s => if usable s p then usableChange p true s else s) s

end Sys2Proof.Machine
end

