-- ==== Sys2Proof/Machine/Streams.lean ====
section
/-! DEFINITION. Packets that are sent on while they arrive (R106, R130, R131, R174, R184): the link units so far reach every
copy, cells close as they fill, a packet that turns out bad ends stomped where it has begun to leave and is discarded elsewhere.
Removal of copies by resets. -/

namespace Sys2Proof.Machine

/-! ### Removal of copies -/

/-- Drops the copies that wait for admission and satisfy `f`. The credits of a dropped copy go to another copy of its packet that
still waits with it, or back. -/
def dropAdmission (f : Copy → Bool) (s : State) : State :=
  forEach s.core.wait (fun kv s =>
    if kv.2.any fun w => w.copies.any f then
      let thin (w : Waiting) : Waiting :=
        let owed := ((w.copies.filter f).map (·.cred)).sum
        match w.copies.filter fun c => !f c with
        | c :: rest => { w with copies := { c with cred := c.cred + owed } :: rest }
        | [] => { w with copies := [] }
      let s := s.setWait kv.1 ((kv.2.map thin).filter fun w => !w.copies.isEmpty)
      let s := forEach (kv.2.filter fun w => w.copies.all f) (fun w s =>
        releaseRejected w.rel (forEach w.copies returnCredits s)) s
      forEach (kv.2.flatMap fun w => w.copies.filter f) discardCopy s
    else s) s

/-- Drops the copies that wait for admission or in a crossbar queue and satisfy `f`. -/
def dropWaiting (f : Copy → Bool) (s : State) : State :=
  let s := dropAdmission f s
  forEach s.core.xq (fun kv s =>
    if kv.2.any f then
      forEach (kv.2.filter f) (fun c s => discardCopy c (returnCredits c s)) (s.setXq kv.1 (kv.2.filter fun c => !f c))
    else s) s

/-- Drops the copies in egress queues that satisfy `f`, but for those that still cross from another die (R195). -/
def dropQueued (f : Copy → Bool) (s : State) : State :=
  forEach s.core.eq (fun kv s =>
    let gone := kv.2.filter fun c => f c && !crossing s c
    if gone.isEmpty then s
    else
      let left := kv.2.filter fun c => !f c || crossing s c
      forEach gone discardCopy (setQueue kv.1 left s)) s

/-- Copies whose cells or queue a reset removes leave their queues: waiting lists, crossbar and egress queues, transfers with
the source cells they have still to read. Their credits return; nothing is sent back. -/
def removeCopies (f : Copy → Bool) (s : State) : State :=
  let s := dropWaiting f s
  let s := forEach s.core.xfer (fun kv s =>
    let gone := kv.2.filter fun t => f t.copy && (s.eqQ t.eq).any fun c => c.xid == t.own
    if gone.isEmpty then s
    else
      let s := { s with core := { s.core with xfer := Sparse.put (fun _ => []) s.core.xfer kv.1 (kv.2.filter fun t => !gone.contains t) } }
      dropReader (gone.flatMap (·.src)) s) s
  dropQueued f s

/-! ### The purge of a context reset (R462) -/

/-- A packet of one of the contexts. -/
def pktIn (cs : List Nat) (pk : Pkt) : Bool := match ctxOf pk with | some c => cs.contains c | none => false

/-- The copies of the contexts that stand at the head of a crossbar or egress queue are discarded; one behind another context's copy
waits for its turn. -/
def purgeHeads (cs : List Nat) (s : State) : State :=
  let s := forEach s.core.xq (fun kv s =>
    let gone := kv.2.takeWhile fun c => pktIn cs c.pkt
    if gone.isEmpty then s
    else forEach gone (fun c s => discardCopy c (returnCredits c s)) (s.setXq kv.1 (kv.2.drop gone.length))) s
  forEach s.core.eq (fun kv s =>
    let gone := kv.2.takeWhile fun c => pktIn cs c.pkt && !crossing s c
    if gone.isEmpty then s else forEach gone discardCopy (setQueue kv.1 (kv.2.drop gone.length) s)) s

/-- The copies of a context reset that purges, as they reach the heads of their queues. -/
def purgeDue (s : State) : State :=
  match s.ctxRst with
  | some r => if r.purging then purgeHeads r.ctxs s else s
  | none => s

/-- The device holds a cell of one of the contexts: a copy in a queue, crossing a link, or leaving (R462). -/
def holdsCopies (cs : List Nat) (s : State) : Bool :=
  let mine (c : Copy) : Bool := pktIn cs c.pkt
  (s.core.xq.any fun x => x.2.any mine) || (s.core.eq.any fun x => x.2.any mine)
    || (s.core.xfer.any fun x => x.2.any fun t => mine t.copy)
    || s.link.any fun x => (x.2.txCur.any fun t => mine t.copy) || x.2.txSusp.any fun t => mine t.copy

/-! ### The packet of a stream -/

/-- Applies `g` to a copy of the packet with serial number `r`. -/
def onSerial (r : Nat) (g : Copy → Copy) (c : Copy) : Copy := if c.rx = r then g c else c

/-- Applies `f` to every copy, wherever it is. -/
def mapCopies (f : Copy → Copy) (s : State) : State :=
  let tx (t : TxPkt) : TxPkt := { t with copy := f t.copy }
  { s with
    core := { s.core with
      eq := Sparse.mapVals (fun _ => []) (fun _ l => l.map f) s.core.eq
      xq := Sparse.mapVals (fun _ => []) (fun _ l => l.map f) s.core.xq
      wait := Sparse.mapVals (fun _ => []) (fun _ l => l.map fun w => { w with copies := w.copies.map f }) s.core.wait
      xfer := Sparse.mapVals (fun _ => []) (fun _ l => l.map fun t => { t with copy := f t.copy }) s.core.xfer }
    link := Sparse.mapVals (fun _ => {}) (fun _ l => { l with txCur := l.txCur.map tx, txSusp := l.txSusp.map tx }) s.link
    rte := { s.rte with held := s.rte.held.map fun h => { h with copy := h.copy.map f } } }

/-- Applies `g` to every copy of the packet with serial number `r`. -/
def mapRx (r : Nat) (g : Copy → Copy) (s : State) : State := mapCopies (onSerial r g) s

/-- The payload that the link units of a data packet received so far carry. -/
def payloadSoFar (units : List LinkUnit) : List Byte :=
  match decodeData (units.flatMap (·.bytes)) with
  | some p => p.payload
  | none => []

/-- A packet with another payload. -/
def withPayload (b : List Byte) : Pkt → Pkt
  | .data p => .data { p with payload := b }
  | .ctl c => .ctl c

/-- Every copy of a packet learns the link units received so far. -/
def feedPayload (r : RxPkt) (s : State) : State :=
  mapRx r.rx (fun c => { c with pkt := withPayload (payloadSoFar r.units) c.pkt }) s

/-- The cells of a list that still belong to the packet with serial number `rx` close: its link units are in them (R174). -/
def closeCells (rx : Nat) (cells : List Nat) (s : State) : State :=
  forEach cells (fun c s => if (s.cell c).owner = rx then s.setCell c { s.cell c with closed := true, owner := 0 } else s) s

/-- A copy whose first link unit has left, or that is about to (R106). -/
def begun (s : State) (rx : Nat) : Bool :=
  s.link.any fun l => l.2.txCur.any (·.copy.rx == rx) || l.2.txSusp.any (·.copy.rx == rx)

/-- `n` bytes that the spec leaves open, drawn one by one. -/
def freeBytes : Nat → State → List Byte × State
  | 0, s => ([], s)
  | n + 1, s =>
    let x := freeBytes n { s with free := s.free + 1 }
    (BitVec.ofNat 8 (Config.freeNat s.free) :: x.1, x.2)

/-- The payload size of a packet that its link units announce. -/
def announced (units : List LinkUnit) : Nat :=
  match decodeData (units.flatMap (·.bytes)) with
  | some p => payloadSize p.op p.dat (pktLen p)
  | none => 0

/-- A packet that was being sent on turns out bad, or what is left of it does not arrive (R106, R130): a copy that has begun
to leave or to cross is ended with a stomped CRC, any other is discarded, and a completion completes nothing. The bytes of a
copy that did not arrive are free. -/
def abandonRx (r : RxPkt) (s : State) : State :=
  if r.rx = 0 then s
  else
    let s := match r.undo with
      | some (i, e) => if s.ortE i = { e with busy := false } then s.setOrt i e else s
      | none => s
    let s := closeCells r.rx r.cells s
    let came := payloadSoFar r.units
    let x := freeBytes (if begun s r.rx then announced r.units - came.length else 0) s
    let mine (c : Copy) : Bool := c.rx == r.rx
    let s := removeHeld (fun h => h.copy.any mine) (dropQueued mine (dropWaiting mine x.2))
    mapRx r.rx (fun c => { c with pkt := withPayload (came ++ x.1) c.pkt, stomp := true, rx := 0 }) s

/-- The packet in progress and the one in the reassembly slot of a port are given up (R125, R130). -/
def abandonLink (p : Nat) (s : State) : State :=
  let l := s.lnk p
  let s := match l.rxCur with | some r => abandonRx r s | none => s
  match l.rxSlot with | some r => abandonRx r s | none => s

end Sys2Proof.Machine
end

