-- ==== Sys2Proof/Machine/PortFsm.lean ====
section
/-! DEFINITION. The discovery states of ports (Tables 04-3 and 04-4): learning (R147 to R149), quarantine (R145, R150,
R151), link up and down. -/

namespace Sys2Proof.Machine

/-- Codes of PRT_DISC_STATUS.state. -/
def pDown := 0
/-- WAIT. -/
def pWait := 1
/-- LEARN. -/
def pLearn := 2
/-- OFFER. -/
def pOffer := 3
/-- ASSIGNED. -/
def pAssigned := 4
/-- QUAR. -/
def pQuar := 5
/-- ACTIVE: a fabric port with a HELLO received. -/
def pActive := 6

/-- The discovery state of a port. -/
def pstate (s : State) (p : Nat) : Nat := s.fld (F.PRT_DISC_STATUS_state p)
/-- Sets it. -/
def setPstate (p n : Nat) (s : State) : State := s.setFld (F.PRT_DISC_STATUS_state p) n

/-- The low and high halves of a serial. -/
def lo32 (v : BitVec 64) : Word := v.extractLsb' 0 32
/-- The high half. -/
def hi32 (v : BitVec 64) : Word := v.extractLsb' 32 32

/-- A DISC packet in Q0 (R136): dtype, the sender's serial, the body's words. -/
def discCtl (dtype : Nat) (serial : BitVec 64) (lenM1 : Nat) (words : List Word) : Ctl :=
  mkCtl 0x10 0 (dtype * 4096) (hi32 serial) (lo32 serial) lenM1 (words.flatMap wordBytes)

/-- The tag allotment that EP_ASSIGN tells (R147). -/
def tagAllot (s : State) (p : Nat) : Nat := min (s.fld (F.PRT_TAG_CFG_tags_m1 p) + 1) (s.pdisc p).epTags

/-- Sends EP_ASSIGN with a status code: 0 OK, 1 DUPLICATE, 2 NOT_READY, 3 WITHDRAWN (Table 04-1). -/
def sendEpAssign (p status : Nat) (s : State) : State :=
  let ok := status == 0
  let w0 := BitVec.ofNat 32 (status * 2 ^ 28 + if ok then portEp s p else 0)
  let w1 := BitVec.ofNat 32 ((rowsN s - 1) * 2 ^ 27 + (colsN s - 1) * 2 ^ 22 + (if ok then tagAllot s p - 1 else 0))
  let s := if ok then s.onPdisc p fun d => { d with allot := tagAllot s p } else s
  originate p (.ctl (discCtl 6 (ownSerial s) 7 [w0, w1])) s

/-- Removes the learn of a port from the learning table. -/
def removeLearn (p : Nat) (s : State) : State :=
  let s := s.onPdisc p fun d => { d with learn := none }
  let s := s.wr (R.PRT_PEER_SERIAL_LO p) 0
  let s := s.wr (R.PRT_PEER_SERIAL_HI p) 0
  s.wr (R.PRT_DISC_ID p) 0

/-- Submits a serial to the learning arbiter (R148, R149). -/
def submitLearn (p : Nat) (serial : BitVec 64) (s : State) : State :=
  let s := s.onPdisc p fun d => { d with learn := some { serial := serial, stamp := none } }
  let s := s.wr (R.PRT_PEER_SERIAL_LO p) (lo32 serial)
  let s := s.wr (R.PRT_PEER_SERIAL_HI p) (hi32 serial)
  setPstate p pLearn s

/-- Quarantines a port: its cause bit, its fault, its state, its queues (R145, R150, R199); a fabric port leaves
routing (R153). A cause already set is not raised again. -/
def quarantine (p : Nat) (bit : FieldRef) (cause : Nat) (s : State) : State :=
  if s.flag bit then s else
  let s := raise cause (locPort p) (s.setFlag bit true)
  let s := setPstate p pQuar s
  let s := flushPort p s
  if isFab s p then usableChange p false s else s

/-- A learn loses (LOSE of Table 04-4): DUPLICATE is sent, DUP_EP raised, the port quarantined. -/
def loseLearn (p holder : Nat) (s : State) : State :=
  let s := removeLearn p s
  let s := sendEpAssign p 1 s
  let s := s.setFld (F.PRT_DISC_STATUS_other_port p) holder
  quarantine p (F.PRT_DISC_STATUS_dup p) Cause.dupEp s

/-- Ports other than `p` that hold or have committed serial `v` in the learning table. -/
def holders (s : State) (p : Nat) (v : BitVec 64) : List Nat :=
  (upTo 512).filter fun q =>
    q != p && match (s.pdisc q).learn with
      | some l => l.serial == v && l.stamp.isSome
      | none => false

/-- The learning arbiter commits port `p`'s learn (R149): stamped now; a serial already held by another port, or
committed earlier, or at the same time from a lower port, loses. -/
def commitLearn (p : Nat) (s : State) : State :=
  match (s.pdisc p).learn with
  | none => s
  | some l =>
    let t := s.tbase
    let others := if l.serial = 0 then [] else holders s p l.serial
    let stampOf (q : Nat) : Nat := match (s.pdisc q).learn with | some k => k.stamp.getD 0 | none => 0
    let before := others.filter fun q => stampOf q < t || q < p || pstate s q != pLearn
    match before with
    | h :: _ => loseLearn p h s
    | [] =>
      let s := s.onPdisc p fun d => { d with learn := some { l with stamp := some t } }
      forEach others (fun q s => loseLearn q p s) s

/-- The link layer of a port enters UP (LUP): an endpoint port waits for EP_HELLO; a fabric port may be usable again
(R148, R153). -/
def portUp (p : Nat) (s : State) : State :=
  if pstate s p = pQuar then s
  else if isEp s p then (if pstate s p = pDown then setPstate p pWait s else s)
  else if isFab s p then
    usableChange p true (setPstate p (if (s.pdisc p).hello then pActive else pWait) s)
  else s

/-- The link layer of a port leaves UP (LDN): its queues are flushed (R199), a learn is removed (Table 04-4), routing
loses the port (R153). -/
def portDown (p : Nat) (s : State) : State :=
  let s :=
    if pstate s p = pQuar then s
    else if isEp s p then
      let s := if 2 ≤ pstate s p ∧ pstate s p ≤ 4 then removeLearn p s else s
      setPstate p pDown s
    else setPstate p pDown s
  let s := flushPort p s
  if isFab s p then usableChange p false s else s

/-- Discovery restarts on an endpoint port (RST of Table 04-4). -/
def portRestart (p : Nat) (s : State) : State :=
  if !isEp s p then s
  else
    let st := pstate s p
    if st = pWait ∨ st = pLearn ∨ st = pOffer ∨ st = pAssigned then
      let s := removeLearn p s
      let s := if st = pOffer ∨ st = pAssigned then sendEpAssign p 3 s else s
      flushPort p (setPstate p pWait s)
    else s

/-- A HELLO arrives on an endpoint port (ROLE of Table 04-4). -/
def portRole (p : Nat) (s : State) : State :=
  let st := pstate s p
  if st = pWait ∨ st = pLearn ∨ st = pOffer ∨ st = pAssigned then
    quarantine p (F.PRT_DISC_STATUS_role p) Cause.portRole (removeLearn p s)
  else s

/-- The quarantine causes: field and cause number. -/
def quarCauses (p : Nat) : List (FieldRef × Nat) :=
  [(F.PRT_DISC_STATUS_dup p, 20), (F.PRT_DISC_STATUS_loop p, 21), (F.PRT_DISC_STATUS_role p, 22),
   (F.PRT_DISC_STATUS_excess p, 23), (F.PRT_DISC_STATUS_miswire p, 24)]

/-- Software writes PRT_DISC_STATUS: the cause bits written 1 are cleared (R151); with the last one gone the port
returns to WAIT, or DOWN while its link is not UP (CLR of Table 04-4). -/
def clearCauses (p : Nat) (v : Word) (s : State) : State :=
  let was := quarantined s p
  let s := forEach (quarCauses p) (fun c s =>
    if bitOf v.toNat c.1.lo && s.flag c.1 then endLive c.2 (locPort p) (s.setFlag c.1 false) else s) s
  if was && !quarantined s p then
    if isFab s p then
      usableChange p true (setPstate p (if !linkUp s p then pDown else if (s.pdisc p).hello then pActive else pWait) s)
    else setPstate p (if linkUp s p then pWait else pDown) s
  else s

end Sys2Proof.Machine
end

