-- ==== Sys2Proof/Machine/LaneBase.lean ====
section
/-! DEFINITION. A lane's training states (Table 11-6) and settings (R373 to R376): the transitions that other parts of
the block call for. -/

namespace Sys2Proof.Machine

/-- LNE_STATUS.state of a lane: 0 DISABLED, 1 DETECT, 2 ADAPT, 3 READY, 4 SYNC, 5 ACTIVE. -/
def lstate (s : State) (n : Nat) : Nat := s.fld (F.LNE_STATUS_state n)

/-- The enabled port that a lane belongs to (R389). -/
def portOfLane (s : State) (n : Nat) : Option Nat :=
  ([n, n / 2 * 2, n / 4 * 4, n / 8 * 8].find? fun b => portOn s b && (portLanes s b).contains n)

/-- min_w of a port, at most its width (PRT_WIDTH_CTL). -/
def minW (s : State) (p : Nat) : Nat := 2 ^ min (s.fld (F.PRT_WIDTH_CTL_min_w_log p)) (s.fld (F.PRT_CFG_width_log p))

/-- The mask of a list of lanes of port `p`. -/
def maskOf (p : Nat) (l : List Nat) : Nat := l.foldl (fun m n => m + 2 ^ (n - p)) 0

/-- The lanes of a mask of port `p`, ascending. -/
def lanesOf (p mask : Nat) : List Nat := ((upTo 8).filter (bitOf mask)).map (p + ·)

/-- The largest power of two not above `n`, 0 for 0. -/
def pow2Floor (n : Nat) : Nat := if n = 0 then 0 else if n < 2 then 1 else if n < 4 then 2 else if n < 8 then 4 else 8

/-- The lanes of the active set of a port (R390). -/
def activeSet (s : State) (p : Nat) : List Nat := lanesOf p (s.fld (F.PRT_LANE_STATUS_active p))

/-- Sets the active set of a port. -/
def setActive (p mask : Nat) (s : State) : State := s.setFld (F.PRT_LANE_STATUS_active p) mask

/-- A lane is trained: in READY with a good frame with ready = 1 within the last 1 µs (R380). -/
def trained (s : State) (n : Nat) : Bool :=
  lstate s n == 3 && s.flag (F.LNE_STATUS_far_ready n) && s.now ≤ (s.lane n).farReadyAt + 1000

/-- A signed tap of 8 bits. -/
def tapBits (t : Int) : Nat := (t % 256).toNat

/-- The tap that 8 bits spell. -/
def tapOf (n : Nat) : Int := if n < 128 then Int.ofNat n else Int.ofNat n - 256

/-- |t|. -/
def tapAbs (t : Int) : Nat := t.natAbs

/-- t × 24 ÷ sum, rounded toward zero (R374). -/
def scaleTap (sum : Nat) (t : Int) : Int :=
  if sum ≤ 24 then t else if 0 ≤ t then Int.ofNat (tapAbs t * 24 / sum) else - Int.ofNat (tapAbs t * 24 / sum)

/-- The class defaults of Table 11-4. -/
def eqDefault (n cls : Nat) : EqEnt :=
  if cls = 0 then ⟨n, 0, false, true, 0, -4, 0, 8, 0⟩ else ⟨n, 1, true, false, 2, -10, -4, 16, 0⟩

/-- The settings of a lane: its entry of the table in force, otherwise the KR defaults (R375). -/
def eqFor (s : State) (n : Nat) : EqEnt :=
  match s.lanes.eqTable with
  | some t => (t.find? fun e => e.lane == n).getD (eqDefault n 1)
  | none => eqDefault n 1

/-- The override that LNE_EQ holds (R376). -/
def eqOverride (s : State) (n : Nat) : EqEnt :=
  { lane := n, cls := (eqFor s n).cls, precode := s.flag (F.LNE_EQ_precode n), lockCtle := s.flag (F.LNE_EQ_lock_ctle n),
    pre2 := tapOf (s.fld (F.LNE_EQ_pre2 n)), pre1 := tapOf (s.fld (F.LNE_EQ_pre1 n)),
    post1 := tapOf (s.fld (F.LNE_EQ_post1 n)), ctle := s.fld (F.LNE_EQ_ctle n) }

/-- Puts settings into use, the taps scaled to a sum of 24 (R373, R374). -/
def useEq (n : Nat) (e : EqEnt) (ovr : Bool) (s : State) : State :=
  let sum := tapAbs e.pre2 + tapAbs e.pre1 + tapAbs e.post1
  let a := scaleTap sum e.pre2
  let b := scaleTap sum e.pre1
  let c := scaleTap sum e.post1
  let w := ofBool e.precode * 2 ^ 30 + ofBool e.lockCtle * 2 ^ 29 + e.ctle % 32 * 2 ^ 24 + tapBits a * 2 ^ 16
    + tapBits b * 2 ^ 8 + tapBits c
  let s := s.setFld (F.LNE_STATUS_class n) e.cls
  let s := s.setFlag (F.LNE_STATUS_eq_clamp n) (24 < sum)
  s.onLane n fun l => { l with eqWord := BitVec.ofNat 32 w, main := 64 - tapAbs a - tapAbs b - tapAbs c, ovr := ovr,
                               seed := (eqFor s n).loss }

/-- Applies equalisation at entry into DETECT: the override when set (R376). -/
def applyEq (n : Nat) (s : State) : State :=
  let ovr := s.flag (F.LNE_EQ_ovr n)
  useEq n (if ovr then eqOverride s n else eqFor s n) ovr s

/-- A write that clears ovr ends an override in force: the settings of the table apply again (R376). -/
def endOverride (n : Nat) (s : State) : State :=
  if (s.lane n).ovr && !s.flag (F.LNE_EQ_ovr n) then useEq n (eqFor s n) false s else s

/-- A margin scan aborts when its lane leaves ACTIVE or READY, or its direction enters electrical idle (R401). -/
def abortScan (n : Nat) (s : State) : State :=
  if s.flag (F.LNE_MARGIN_CTL_busy n) then
    (s.setFlag (F.LNE_MARGIN_CTL_busy n) false).setFld (F.LNE_MARGIN_RES_status n) 2
  else s

/-- The measure of R382 ends when no lane of the port is left in READY with the far end ready. -/
def endFirst (p : Nat) (s : State) : State :=
  if (portLanes s p).any fun n => lstate s n == 3 && s.flag (F.LNE_STATUS_far_ready n) then s
  else s.onPln p fun l => { l with firstTrained := none }

/-- Entry into DETECT: ready = 0 is sent, the 40 ms of TTMO, the frame count and what was heard of the far end start again; a
running margin scan aborts. -/
def toDetect (n : Nat) (s : State) : State :=
  let s := applyEq n (abortScan n s)
  let s := s.setFld (F.LNE_STATUS_state n) 1
  let s := s.setFlag (F.LNE_STATUS_cw_lock n) false
  let s := s.setFlag (F.LNE_STATUS_far_ready n) false
  let s := s.onLane n fun l =>
    { l with marks := 0, ready := false, txSync0 := false, rxSync0 := false, timer := s.now, txY := 0, readd := false }
  match portOfLane s n with
  | some p => endFirst p s
  | none => s

/-- EN: a lane of a port that is enabled starts TRAIN frames with ready = 0 (Table 11-6). -/
def laneEn (n : Nat) (s : State) : State :=
  if lstate s n = 0 then
    let s := toDetect n (s.emit (.laneDrive n true))
    s.onLane n fun l => { l with signal := false }
  else s

/-- DIS: a lane's drivers go off (Table 11-6). -/
def laneDis (n : Nat) (s : State) : State :=
  let s := if lstate s n = 0 then s else s.emit (.laneDrive n false)
  let s := s.setFld (F.LNE_STATUS_state n) 0
  let s := s.setFlag (F.LNE_STATUS_cw_lock n) false
  let s := s.setFlag (F.LNE_STATUS_cdr_lock n) false
  let s := s.setFlag (F.LNE_STATUS_far_ready n) false
  s.onLane n fun l => { l with marks := 0, ready := false, txSync0 := false, rxSync0 := false }

/-- RT: any lane but a DISABLED one returns to DETECT (Table 11-6). -/
def laneRt (n : Nat) (s : State) : State := if lstate s n = 0 then s else toDetect n s

/-- The link layer asks for retraining of every lane of a port (Table 03-11). -/
def retrainPort (p : Nat) (s : State) : State :=
  let s := setActive p 0 (forEach (portLanes s p) laneRt s)
  s.onPln p fun l => { l with firstTrained := none, joinMask := 0, farMask := none, rxMask := 0, chg := [] }

/-! ### Training frames -/

/-- A training frame as sent (Table 11-5). -/
def trainBlock (s : State) (n ftype : Nat) (ready : Bool) (syncCnt join : Nat) : BitVec 128 :=
  let pre := bitOf (s.lane n).eqWord.toNat 30
  let v := ftype + ofBool ready * 16 + ofBool pre * 32 + syncCnt * 64 + join * 256 + n * 65536
  BitVec.ofNat 128 (v + (crc32c (leBytes 12 v)).toNat * 2 ^ 96)

/-- Sends a training frame on a lane (R379). -/
def sendFrame (n ftype syncCnt join : Nat) (s : State) : State := s.emit (.trainSent n (trainBlock s n ftype true syncCnt join))

/-- Sends the SYNC frames with sync_cnt from `k` down to 0 on a lane. -/
def sendSync (n join : Nat) : Nat → State → State
  | 0, s => sendFrame n 1 0 join s
  | k + 1, s => sendSync n join k (sendFrame n 1 (k + 1) join s)

/-- With the last lane of the join mask in ACTIVE the active set is that mask (R382, R390). -/
def joinDone (p : Nat) (s : State) : State :=
  let mask := (s.pln p).joinMask
  if mask ≠ 0 ∧ (lanesOf p mask).all (fun m => lstate s m == 5) then
    setActive p mask (s.onPln p fun l => { l with rxMask := mask, farMask := none, firstTrained := none })
  else s

/-- SYNC0: a lane that has sent and received SYNC with sync_cnt = 0 sends codewords and becomes ACTIVE (Table 11-6);
codeword lock starts (R384). -/
def trySync0 (p n : Nat) (s : State) : State :=
  if lstate s n = 4 ∧ (s.lane n).txSync0 ∧ (s.lane n).rxSync0 then
    let s := s.setFld (F.LNE_STATUS_state n) 5
    let s := s.setFlag (F.LNE_STATUS_failed n) false
    let s := s.setFlag (F.LNE_STATUS_cw_lock n) true
    joinDone p (s.onLane n fun l => { l with txSync0 := false, rxSync0 := false, txY := 0, readd := false })
  else s

/-- JOIN on a lane in READY: its four SYNC frames go and it enters SYNC; a margin scan aborts (Table 11-6, R382, R401). -/
def joinLane (p n mask : Nat) (s : State) : State :=
  if lstate s n = 3 then
    let s := sendSync n mask 3 (abortScan n s)
    let s := s.setFld (F.LNE_STATUS_state n) 4
    trySync0 p n (s.onLane n fun l => { l with txSync0 := true })
  else s

/-- A lane leaves the active set (LEAVE of Table 11-6): back to READY, and to DETECT for a change of kind 1 (R396). -/
def leaveLane (n : Nat) (kind : Bool) (s : State) : State :=
  let s :=
    if lstate s n = 5 then
      ((s.setFld (F.LNE_STATUS_state n) 3).setFlag (F.LNE_STATUS_cw_lock n) false).onLane n fun l => { l with ready := true }
    else s
  if kind && lstate s n == 3 then toDetect n s else s

/-! ### The agreed change of the active set (R396) -/

/-- Once both directions have changed, the lanes outside the new set take LEAVE, and RT for kind 1. -/
def finishChange (p : Nat) (s : State) : State :=
  match (s.pln p).chg with
  | c :: rest =>
    if c.txDone && c.rxDone then
      let gone := (portLanes s p).filter fun n => !bitOf c.mask (n - p) && lstate s n == 5
      (forEach gone (fun n s => leaveLane n c.kind s) s).onPln p fun l => { l with chg := rest }
    else s
  | [] => s

/-- Marks the first change of a list that `f` picks out. -/
def markChange (f : Change → Bool) (g : Change → Change) : List Change → List Change
  | [] => []
  | c :: rest => if f c then g c :: rest else c :: markChange f g rest

/-- The transmit direction changes, with GO gone: one SYNC frame with sync_cnt = 0 on every lane that stays, JOIN on every
trained lane that comes, and the following groups over the new set from position 0 (R396). Removed lanes are reported (R398). -/
def txChange (p : Nat) (s : State) : State :=
  match (s.pln p).chg.find? fun c => !c.txDone with
  | some c =>
    let new := lanesOf p c.mask
    let s := s.onPln p fun l =>
      { l with chg := markChange (fun x => !x.txDone) (fun x => { x with txDone := true }) l.chg, joinMask := c.mask }
    let s := forEach new (fun n s =>
      if lstate s n = 5 then sendFrame n 1 0 c.mask s else if trained s n then joinLane p n c.mask s else s) s
    let s := s.onLnk p fun l => { l with slotBase := l.slot }
    let s := (setActive p c.mask s).bump (F.PRT_WIDTH_CHG_CNT_count p)
    let out := (s.pln p).removing.filter fun n => !new.contains n
    let s := forEach out (fun n s =>
      raise Cause.laneRemoved (locLane n) (s.onLane n fun l => { l with removed := true, soak := 0 })) s
    let s := s.onPln p fun l => { l with removing := l.removing.filter new.contains }
    finishChange p s
  | none => s

/-! ### Sending groups on lanes -/

/-- The exit burst of electrical idle on every active lane (R387). -/
def eiExit (p : Nat) (s : State) : State :=
  if s.flag (F.PRT_EI_CFG_tx_ei p) then
    let act := s.fld (F.PRT_LANE_STATUS_active p)
    let s := s.setFlag (F.PRT_EI_CFG_tx_ei p) false
    let s := s.onPln p fun l => { l with quietAt := none, eiSent := false, exitAt := s.now }
    forEach (lanesOf p act) (fun n s =>
      sendSync n act 1 (sendFrame n 0 0 0 (sendFrame n 0 0 0 (s.emit (.laneDrive n true))))) s
  else s

/-- The lane that the next group of a port is dealt to: position (slot − slotBase) mod w of the active set (R88, R390). -/
def slotLane (s : State) (p : Nat) : Option Nat :=
  let act := activeSet s p
  let l := s.lnk p
  act[(l.slot - l.slotBase) % act.length]?

/-- Deals a group to its lane as a codeword and takes a slot (R88, R370 to R372); a transmitter in electrical idle leaves it
first (R387). -/
def dealGroup (p : Nat) (units : List LinkUnit) (s : State) : State :=
  let s := match slotLane s p with
    | some n =>
      let lv := groupLevels (s.lane n).txPrecode (s.lane n).txY units
      (s.emit (.codeword n lv)).onLane n fun l => { l with txY := lv.getLastD 0 }
    | none => s
  s.onLnk p fun l => { l with slot := l.slot + 1 }

end Sys2Proof.Machine
end

