-- ==== Sys2Proof/Machine/Link.lean ====
section
/-! DEFINITION. The link layer of a port (file 03): states (Table 03-11), link-control units, retry (R116 to R123),
credits (R112 to R115), and the assignment of link units to packets (R129, R130). -/

namespace Sys2Proof.Machine

/-- PRT_LL_STATUS.state: 0 DOWN, 1 INIT, 2 UP. -/
def llState (s : State) (p : Nat) : Nat := s.fld (F.PRT_LL_STATUS_state p)
/-- Sets it. -/
def setLl (p n : Nat) (s : State) : State := s.setFld (F.PRT_LL_STATUS_state p) n

/-- PRT_LL_STATUS.unacked and suspended follow the replay buffer and the reassembly slot. -/
def showLink (p : Nat) (s : State) : State :=
  (s.setFld (F.PRT_LL_STATUS_unacked p) (min 4095 (s.lnk p).replay.length)).setFlag (F.PRT_LL_STATUS_suspended p)
    (s.lnk p).rxSlot.isSome

/-- The link-control unit that a port would send now (Table 03-10, R117, R119). While a NAK is outstanding every unit repeats
nak_vld = 1: the spec states it for the unit sent on the bad group alone (DESIGN CHOICE, log 86). -/
def lcuNow (s : State) (p : Nat) : Lcu :=
  let l := s.lnk p
  { txSeq := BitVec.ofNat 16 l.txSeq, ackSeq := BitVec.ofNat 16 (l.rxExp + 65535), nakSeq := BitVec.ofNat 16 (l.nak.getD 0),
    init := llState s p == 1, pseen := llState s p == 1 && l.pseen, ucnt := true, rpl := false, nakVld := l.nak.isSome,
    ackVld := l.ackSeen, lims := l.myLim.map (BitVec.ofNat 16) }

/-- Sends an uncounted group (R108) in the next group slot (R88), out of electrical idle (R387). What R118 measures starts
again. -/
def sendLcu (p : Nat) (u : Lcu) (s : State) : State :=
  let s := (eiExit p s).emit (.lcu p u)
  dealGroup p [{ marker := 3#2, bytes := encodeLcu u }] (s.onLnk p fun l => { l with sinceLcu := 0, advLim := l.myLim })

/-- Sends a counted group, first or again, in the next group slot (R88, R108, R120), out of electrical idle (R387). -/
def sendCounted (p seq : Nat) (units : List LinkUnit) (s : State) : State :=
  let s := (eiExit p s).emit (.group p seq units)
  dealGroup p units (s.onLnk p fun l => { l with sinceLcu := l.sinceLcu + 1 })

/-- A link-control unit is due (R118): 2^lcu_int counted groups have passed since the last one, sent and received ones counted
together (log 87), or a quarter of a queue's allotment has been freed since. -/
def lcuDue (s : State) (p : Nat) : Bool :=
  let l := s.lnk p
  llState s p == 2 &&
    (2 ^ min 10 (s.fld (F.PRT_LL_CFG_lcu_int p)) ≤ l.sinceLcu ||
      (upTo 8).any fun q =>
        let a := s.fld (F.PRT_IG_RES_res p q)
        a != 0 && a ≤ 4 * ((nth l.myLim q + 65536 - nth l.advLim q) % 65536))

/-- Sends a link-control unit when one is due (R118). -/
def sendDue (p : Nat) (s : State) : State := if lcuDue s p then sendLcu p (lcuNow s p) s else s

/-- A full allotment per queue (R114, R185). -/
def allotments (s : State) (p : Nat) : List Nat := (upTo 8).map fun q => s.fld (F.PRT_IG_RES_res p q)

/-- Entry into INIT: slot count, sequence numbers, sent_q and lim_q := 0, full limits advertised (Table 03-11). -/
def enterInit (p : Nat) (pseen : Bool) (s : State) : State :=
  let s := s.onLnk p fun l =>
    { ({} : LinkSt) with initAt := s.now, pseen := pseen, myLim := allotments s p, withhold := l.withhold }
  let s := showLink p (setLl p 1 s)
  sendLcu p (lcuNow s p) s

/-- A copy that was being sent on the port is lost with the link. -/
def dropTx (t : Option TxPkt) (s : State) : State :=
  match t with
  | some x => leaveVers x.copy.vers (forEach (chain s (ceilDiv x.copy.nLu 4 - x.sent / 4) x.cell) readDone s)
  | none => s

/-- Leaving UP: the replay buffer, the packets being received and sent are discarded (R124, R125); a packet being sent on as it
arrived ends stomped (R106). -/
def clearLink (p : Nat) (s : State) : State :=
  let s := abandonLink p s
  let l := s.lnk p
  let s := dropTx l.txSusp (dropTx l.txCur s)
  showLink p (s.onLnk p fun l => { ({} : LinkSt) with withhold := l.withhold, owed := l.owed })

/-- LOSS (Table 03-11): INIT stops sending; UP discards, raises LL_FAIL, flushes. -/
def linkLoss (p : Nat) (s : State) : State :=
  if llState s p = 1 then setLl p 0 s
  else if llState s p = 2 then
    let s := raise Cause.llFail (locPort p) (clearLink p s)
    portDown p (setLl p 0 s)
  else s

/-- The link enters UP: counted groups number from 0, one uncounted group with init = 0 goes (Table 03-11). -/
def enterUp (p : Nat) (s : State) : State :=
  let s := setLl p 2 s
  let s := sendLcu p (lcuNow s p) s
  portUp p (endLive Cause.llFail (locPort p) s)

/-- The peer's limits taken in INIT (Table 03-11). -/
def takeLimits (p : Nat) (u : Lcu) (s : State) : State :=
  s.onLnk p fun l => { l with peerLim := (upTo 8).map fun q => (u.lims.getD q 0).toNat }

/-- The measure of R199 ends for a queue whose head copy the peer's credits cover. -/
def endStarve (p q : Nat) (s : State) : State :=
  match s.eqQ (p * 8 + q) with
  | c :: _ => if c.nLu ≤ creditsOf s p q then s.onQsch (p * 8 + q) fun r => { r with starved := none } else s
  | [] => s

/-- A received lim_q is adopted only when (new − current) mod 2^16 is below 2^15 (R115). -/
def adoptLimits (p : Nat) (u : Lcu) (s : State) : State :=
  forEach (upTo 8) (endStarve p) <| s.onLnk p fun l =>
    { l with peerLim := (upTo 8).map fun q =>
        let new := (u.lims.getD q 0).toNat
        let cur := nth l.peerLim q
        if (new + 65536 - cur) % 65536 < 32768 then new else cur }

/-- `a` equals or lies ahead of `b`, modulo 2^16 (R109). -/
def seqGe (a b : Nat) : Bool := decide ((a + 65536 - b) % 65536 ≤ 32768)

/-- Frees every group up to ack_seq; an ack_seq behind the oldest group is ignored (R117). -/
def takeAck (p ack : Nat) (s : State) : State :=
  let l := s.lnk p
  match l.replay with
  | [] => s
  | (old, _) :: _ =>
    if seqGe ack old then
      showLink p (s.onLnk p fun l =>
        { l with replay := l.replay.filter (fun g => !seqGe ack g.1), replays := 0, ackAt := s.now })
    else s

/-- RLIM in UP (Table 03-11): discard, LL_FAIL, retraining, DOWN. -/
def linkFail (p : Nat) (s : State) : State :=
  let s := raise Cause.llFail (locPort p) (clearLink p s)
  retrainPort p (portDown p (setLl p 0 s))

/-- A replay from number `from_` (R120): an uncounted group with rpl = 1, then the groups from there on as first sent. The
rlim-th in a row without the acknowledgement advancing is RLIM (R124), taken after the replay. -/
def replayFrom (p from_ : Nat) (s : State) : State :=
  let s := s.bump (F.PRT_REPLAY_CNT_count p)
  let s := sendLcu p { lcuNow s p with rpl := true, txSeq := BitVec.ofNat 16 from_ } s
  let gs := (s.lnk p).replay.filter fun g => seqGe g.1 from_
  let s := forEach gs (fun g s => sendCounted p g.1 g.2 s) s
  let s := s.onLnk p fun l => { l with replays := l.replays + 1, ackAt := s.now }
  if max 1 (s.fld (F.PRT_LL_CFG_rlim p)) ≤ (s.lnk p).replays then linkFail p s else s

/-- A bad group in UP (R119): counted, a NAK for the expected number sent unless one is outstanding, counted groups
discarded until a replay. -/
def badGroup (p : Nat) (s : State) : State :=
  if llState s p = 2 then
    let s := s.bump (F.PRT_BAD_CW_CNT_count p)
    let l := s.lnk p
    if l.nak = some l.rxExp then s
    else
      let s := s.onLnk p fun l => { l with nak := some l.rxExp, mode := .waitReplay }
      sendLcu p (lcuNow s p) s
  else s

/-- An uncounted group with rpl = 1 (R122): one that starts ahead is RLIM. -/
def takeReplay (p tx : Nat) (s : State) : State :=
  let l := s.lnk p
  if tx = l.rxExp then s.onLnk p fun l => { l with mode := .take, nak := none }
  else if seqGe tx l.rxExp then linkFail p s
  else s.onLnk p fun l => { l with mode := .skipTo tx, nak := none }

/-- A link-control unit with init = 0 in UP: acknowledgement, NAK, replay and limits (R115 to R122). -/
def applyLcu (p : Nat) (u : Lcu) (s : State) : State :=
  let s := adoptLimits p u s
  let s := if u.ackVld then takeAck p u.ackSeq.toNat s else s
  let s := if u.nakVld then replayFrom p u.nakSeq.toNat s else s
  if u.rpl && llState s p == 2 then takeReplay p u.txSeq.toNat s else s

/-- A good link-control unit with init = 0 (LCU_U of Table 03-11). -/
def lcuZero (p : Nat) (u : Lcu) (s : State) : State :=
  if llState s p = 1 then
    enterUp p ((takeLimits p u s).onLnk p fun l => { l with rxExp := u.txSeq.toNat })
  else if llState s p = 2 then applyLcu p u s
  else s

/-- A good link-control unit with init = 1 (LCU_I of Table 03-11): in UP the peer has restarted. -/
def lcuOne (p : Nat) (u : Lcu) (s : State) : State :=
  if llState s p = 1 then
    let s := takeLimits p u s
    if u.pseen then enterUp p s
    else
      let s := s.onLnk p fun l => { l with pseen := true }
      sendLcu p (lcuNow s p) s
  else if llState s p = 2 then
    let s := raise Cause.llFail (locPort p) (clearLink p s)
    let s := portDown p (setLl p 0 s)
    enterInit p true s
  else s

/-- A link protocol error (R130): packet in progress and slot discarded, what was sent on of them ended stomped, counted,
LL_PROTO raised. -/
def protoError (p : Nat) (s : State) : State :=
  let s := (abandonLink p s).onLnk p fun l => { l with rxCur := none, rxSlot := none, rxDisc := true }
  showLink p (raise Cause.llProto (locPort p) (s.bump (F.PRT_LL_PROTO_CNT_count p)))

/-- Whether a first link unit opens a packet, and how long it is: header kind 0b11 (R91), a control packet with a
reserved kind, a queue other than Q0 and Q1 or more bytes than its body (R101, R102), and Q7 on an endpoint or fabric
port (R204) are link protocol errors. -/
def openUnit (s : State) (p : Nat) (b : List Byte) : Option RxPkt :=
  let w0 := wordAt b 0
  let q := (w0.extractLsb' 22 3).toNat
  if w0.extractLsb' 30 2 = 0#2 then
    let c := decodeCtl b
    if ([1#5, 2#5, 0x10#5, 0x11#5, 0x12#5].contains c.ckind) && q ≤ 1 && c.lenM1.toNat ≤ 47 then
      some { units := [], need := 1, express := true }
    else none
  else
    match luNeed b with
    | none => none
    | some n => if q = 7 && !isSvc s p then none else some { units := [], need := n, express := q ≤ 1 }

/-- Table 03-12: one link unit of a packet. Answers the packet that it completes. The table has no row for a 0b01 of another
queue while the slot is occupied, nor for one during a Q7 packet, which is neither express nor preemptible: both are link
protocol errors here (DESIGN CHOICE, log 88). -/
def rxUnit (p : Nat) (u : LinkUnit) (s : State) : Option RxPkt × State :=
  let l := s.lnk p
  let push (r : RxPkt) (s : State) : Option RxPkt × State :=
    let r := { r with units := r.units ++ [u] }
    if r.need ≤ r.units.length then (some r, s.onLnk p fun l => { l with rxCur := none })
    else (none, s.onLnk p fun l => { l with rxCur := some r })
  if u.marker = 1#2 then
    match openUnit s p u.bytes, l.rxCur with
    | some n, none =>
      if l.rxSlot.isSome && !n.express then (none, protoError p s)
      else push n (s.onLnk p fun l => { l with rxDisc := false })
    | some n, some r =>
      let mirror := (r.units.head?.map fun x => (wordAt x.bytes 0).extractLsb' 22 3) == some 7#3
      if !r.express && !mirror && n.express && l.rxSlot.isNone then
        let x := push n (s.onLnk p fun l => { l with rxSlot := some r })
        (x.1, showLink p x.2)
      else (none, protoError p s)
    | none, _ => (none, protoError p s)
  else if u.marker = 2#2 then
    match l.rxCur, l.rxSlot with
    | some r, _ => push r s
    | none, some r =>
      let x := push r (s.onLnk p fun l => { l with rxSlot := none })
      (x.1, showLink p x.2)
    | none, none => if l.rxDisc then (none, s) else (none, protoError p s)
  else (none, s)

/-- What a port does with the link-control units of a counted group (R107, R108). -/
def rxLcu (p : Nat) (b : List Byte) (s : State) : State :=
  match decodeLcu b with
  | none => s.bump (F.PRT_LCU_ERR_CNT_count p)
  | some u =>
    if u.ucnt then s.bump (F.PRT_LL_PROTO_CNT_count p)
    else if u.init then lcuOne p u s
    else lcuZero p u s

/-! ### The commands of the link layer -/

/-- Codeword lock on every lane of the port: every lane of its active set is ACTIVE with lock (R384, R390). -/
def allLocked (s : State) (p : Nat) : Bool :=
  let act := activeSet s p
  !act.isEmpty && act.all fun n => lstate s n == 5 && s.flag (F.LNE_STATUS_cw_lock n)

/-- LOCK: DOWN goes to INIT (Table 03-11). -/
def lock (p : Nat) (s : State) : State :=
  if portOn s p && llState s p == 0 && allLocked s p then enterInit p false s else s

/-- RTMO: no acknowledgement for rtmo while groups are held; replay from the oldest (R121). -/
def rtmo (p : Nat) (s : State) : State :=
  let l := s.lnk p
  match l.replay with
  | (old, _) :: _ =>
    if llState s p = 2 ∧ l.ackAt + (max 1 (s.fld (F.PRT_LL_CFG_rtmo p))) * 64 ≤ s.now then replayFrom p old s else s
  | [] => s

/-- RLIM (R124, Table 03-11): rlim replays in a row without the acknowledgement advancing. -/
def rlim (p : Nat) (s : State) : State :=
  if llState s p = 2 ∧ max 1 (s.fld (F.PRT_LL_CFG_rlim p)) ≤ (s.lnk p).replays then linkFail p s else s

/-- ITMO: 1 ms in INIT (Table 03-11). -/
def itmo (p : Nat) (s : State) : State :=
  if llState s p = 1 ∧ (s.lnk p).initAt + 1000000 ≤ s.now then
    retrainPort p (setLl p 0 (raise Cause.llFail (locPort p) s))
  else s

/-- LCU_SEND: the receiver sends a link-control unit (R118). -/
def lcuSend (p : Nat) (s : State) : State := if llState s p = 0 then s else sendLcu p (lcuNow s p) s

end Sys2Proof.Machine
end

