-- ==== Sys2Proof/Machine/Disc.lean ====
section
/-! DEFINITION. Discovery (file 04): the state machine of Table 04-2, placement (R140), the join rule (R142), HELLO,
NBR and ASSIGN packets (Table 04-1), endpoint learning's commands, software writes to routing entries (R166, R167). -/

namespace Sys2Proof.Machine

/-- RTE_DISC_STATUS.state: 0 IDLE, 1 ELECT, 2 COLLECT, 3 AWAIT, 4 RUN, 5 UNPLACED. -/
def dstate (s : State) : Nat := s.fld F.RTE_DISC_STATUS_state

/-- Enters a discovery state: vector 6 on a change (Table 14-2); DISC_UNPLACED is live in UNPLACED. -/
def setDisc (n : Nat) (s : State) : State :=
  let old := dstate s
  let s := s.setFld F.RTE_DISC_STATUS_state n
  let s := if n = 5 then beginLive Cause.discUnplaced locNone s else endLive Cause.discUnplaced locNone s
  if old = n then s else raiseInt 6 s

/-- The current root serial. -/
def rootSerial (s : State) : BitVec 64 := s.rd R.RTE_ROOT_SERIAL_HI ++ s.rd R.RTE_ROOT_SERIAL_LO

/-- Sets the current root; is_root follows (R138, R553). -/
def setRoot (v : BitVec 64) (s : State) : State :=
  let s := (s.wr R.RTE_ROOT_SERIAL_LO (lo32 v)).wr R.RTE_ROOT_SERIAL_HI (hi32 v)
  s.setFlag F.RTE_DISC_STATUS_is_root (v == ownSerial s && !s.disc.pinned)

/-- t_quiet in ns: 10 µs × 2^quiet_exp, at most 10 (RTE_DISC_CTL). -/
def tQuiet (s : State) : Nat := 10000 * 2 ^ min 10 (s.fld F.RTE_DISC_CTL_quiet_exp)
/-- t_assign in ns (RTE_DISC_CTL). -/
def tAssign (s : State) : Nat := max 1 (s.fld F.RTE_DISC_CTL_t_assign) * 1000000

/-- The serial of the peer of a port. -/
def peerSerial (s : State) (p : Nat) : BitVec 64 := s.rd (R.PRT_PEER_SERIAL_HI p) ++ s.rd (R.PRT_PEER_SERIAL_LO p)

/-- Fabric ports with a neighbour: a HELLO received, UP, not quarantined (R138). -/
def nbrPorts (s : State) : List Nat :=
  (enabledPorts s).filter fun p => isFab s p && linkUp s p && !quarantined s p && (s.pdisc p).hello

/-- Inserts a serial in ascending order, without repeats. -/
def insSerial (v : BitVec 64) : List (BitVec 64) → List (BitVec 64)
  | [] => [v]
  | w :: rest => if v = w then w :: rest else if v.toNat < w.toNat then v :: w :: rest else w :: insSerial v rest

/-- The serials of the neighbours, ascending (N of R140). -/
def neighbours (s : State) : List (BitVec 64) := (nbrPorts s).foldl (fun l p => insSerial (peerSerial s p) l) []

/-- The lowest port toward a neighbour. -/
def portToward (s : State) (v : BitVec 64) : Option Nat := (nbrPorts s).find? fun p => peerSerial s p == v

/-- nbr_cnt follows the neighbours. -/
def showNbrs (s : State) : State := s.setFld F.RTE_DISC_STATUS_nbr_cnt (min 127 (neighbours s).length)

/-- The lock state of fabric time; a change from locked to unlocked counts (R216). A shed that is open keeps its grant to its end
(R209, R225). -/
def setTimeLocked (b : Bool) (s : State) : State :=
  if s.flag F.SCH_TIME_STATUS_locked == b then s
  else
    let s := s.setFlag F.SCH_TIME_STATUS_locked b
    if b then s
    else
      let s := s.bump F.SCH_TIME_UNLOCK_CNT_count
      { s with sched := { s.sched with
          p := Sparse.mapVals (fun _ => {}) (fun _ r => if r.openShed.isSome then { r with shedHeld := true } else r) s.sched.p } }

/-- The time master is the switch placed at (0, 0), always locked; a switch that is not placed is unlocked (R214). -/
def placeTime (s : State) : State :=
  let m := placed s && ownRow s == 0 && ownCol s == 0
  let s := s.setFlag F.SCH_TIME_STATUS_master m
  if m then setTimeLocked true s else if placed s then s else setTimeLocked false s

/-- The switch takes coordinates and dimensions: placed := 1, RUN (Table 04-2, R154). -/
def takePlace (row col rowsM1 colsM1 : Nat) (s : State) : State :=
  let s := s.setFld F.RTE_DISC_STATUS_row row
  let s := s.setFld F.RTE_DISC_STATUS_col col
  let s := s.setFld F.RTE_DISC_STATUS_rows_m1 rowsM1
  let s := s.setFld F.RTE_DISC_STATUS_cols_m1 colsM1
  let s := s.setFlag F.RTE_DISC_STATUS_placed true
  placeTime (enterRun (setDisc 4 s))

/-- The HELLO the switch sends on a port (Table 04-1, R137, R553). -/
def helloCtl (s : State) (p : Nat) : Ctl :=
  let pl := placed s
  let w2 := dstate s * 2 ^ 29 + ofBool pl * 2 ^ 28 + p
  let w3 := if pl then ownRow s * 2 ^ 27 + ownCol s * 2 ^ 22 + (rowsN s - 1) * 2 ^ 17 + (colsN s - 1) * 2 ^ 12 else 0
  discCtl 1 (ownSerial s) 15 [lo32 (rootSerial s), hi32 (rootSerial s), BitVec.ofNat 32 w2, BitVec.ofNat 32 w3]

/-- Sends HELLO on every fabric port in link state UP. -/
def sendHellos (s : State) : State :=
  forEach (enabledPorts s) (fun p s =>
    if isFab s p && linkUp s p then originate p (.ctl (helloCtl s p)) s else s) s

/-- HELLO_SEND: due every 10 µs in ELECT, COLLECT and AWAIT, every 1 ms in RUN and UNPLACED (R137). -/
def helloSend (s : State) : State :=
  if dstate s = 0 ∨ s.now < s.disc.helloAt then s
  else
    let dt := if 4 ≤ dstate s then 1000000 else 10000
    sendHellos { s with disc := { s.disc with helloAt := s.now + dt } }

/-- EN in IDLE (Table 04-2): pinned coordinates, or the election with the own serial as root. -/
def discEnable (s : State) : State :=
  let s := { s with disc := { s.disc with reports := [], helloAt := s.now } }
  if s.flag F.RTE_COORD_coord_mode then
    let s := { s with disc := { s.disc with pinned := true } }
    let s := setRoot (BitVec.allOnes 64) s
    if s.fld F.RTE_COORD_pin_row ≤ s.fld F.RTE_COORD_pin_rows_m1 ∧ s.fld F.RTE_COORD_pin_col ≤ s.fld F.RTE_COORD_pin_cols_m1 then
      takePlace (s.fld F.RTE_COORD_pin_row) (s.fld F.RTE_COORD_pin_col) (s.fld F.RTE_COORD_pin_rows_m1)
        (s.fld F.RTE_COORD_pin_cols_m1) s
    else raise Cause.discUnplaced locNone (setDisc 5 s)
  else
    let s := { s with disc := { s.disc with pinned := false, quietAt := some (s.now + tQuiet s) } }
    sendHellos (setDisc 1 (setRoot (ownSerial s) s))

/-- DISC_START: a write of start (EN). -/
def discStart (s : State) : State := if dstate s = 0 then discEnable s else s

/-- R144: coordinates, unlocked routes and endpoint assignments are cleared. -/
def clearDiscovery (s : State) : State :=
  let s := s.setFlag F.RTE_DISC_STATUS_placed false
  let s := s.setFld F.RTE_DISC_STATUS_row 0
  let s := s.setFld F.RTE_DISC_STATUS_col 0
  let s := s.setFld F.RTE_DISC_STATUS_rows_m1 0
  let s := s.setFld F.RTE_DISC_STATUS_cols_m1 0
  let s := s.setFlag F.RTE_DISC_STATUS_is_root false
  let s := forEach (upTo 32) (fun i s =>
    let s := if bitOf (rowE s i) 49 then s else hwRoute (R.RTE_ROW_LO i) 0 true s
    if bitOf (colE s i) 49 then s else hwRoute (R.RTE_COL_LO i) 0 true s) s
  let s := forEach (upTo 1024) (fun i s => hwRoute (R.RTE_DEST i) 0 true s) s
  placeTime (forEach (enabledPorts s) portRestart s)

/-- DISC_RESTART: a write of restart (RST): in any state but IDLE, R144, then as IDLE on EN. -/
def discRestart (s : State) : State := if dstate s = 0 then s else discEnable (clearDiscovery s)

/-- LOWER (Table 04-2): a HELLO names a lower root. -/
def lowerRoot (v : BitVec 64) (s : State) : State :=
  let st := dstate s
  if st = 1 ∨ st = 2 ∨ st = 3 then
    if v.toNat < (rootSerial s).toNat then
      let s := { s with disc := { s.disc with quietAt := some (s.now + tQuiet s), assignAt := none } }
      setDisc 1 (setRoot v s)
    else s
  else if st = 4 && s.disc.pinned && v.toNat < (rootSerial s).toNat then setRoot v s
  else s

/-- The fabric ports that reach one peer, beyond the four lowest, are quarantined (excess of Table 04-3). -/
def checkExcess (v : BitVec 64) (s : State) : State :=
  let same := (enabledPorts s).filter fun p => isFab s p && linkUp s p && (s.pdisc p).hello && peerSerial s p == v
  forEach (same.drop 4) (fun p s => quarantine p (F.PRT_DISC_STATUS_excess p) Cause.portExcess s) s

/-- What a HELLO says of the peer of a port is recorded (Table 04-1). -/
def recordPeer (p : Nat) (c : Ctl) (s : State) : State :=
  let w2 := (wordAt c.body 8).toNat
  let w3 := (wordAt c.body 12).toNat
  let s := (s.wr (R.PRT_PEER_SERIAL_LO p) c.w2).wr (R.PRT_PEER_SERIAL_HI p) c.w1
  let s := s.onPdisc p fun d =>
    { d with hello := true, peerState := bits w2 29 3, peerPlaced := bitOf w2 28, peerRow := bits w3 27 5,
             peerCol := bits w3 22 5, peerRows := bits w3 17 5, peerCols := bits w3 12 5 }
  let s := s.setFld (F.PRT_DISC_STATUS_other_port p) (bits w2 0 9)
  s.wr (R.PRT_DISC_ID p) ((switchName (bits w3 27 5) (bits w3 22 5)).setWidth 32)

/-- The peer of a port reports a place that does not fit this switch's (miswire of Table 04-3). -/
def miswired (s : State) (p : Nat) : Bool :=
  let d := s.pdisc p
  dstate s == 4 && d.peerPlaced
    && ((d.peerRow == ownRow s && d.peerCol == ownCol s) || (d.peerRow != ownRow s && d.peerCol != ownCol s))

/-- A HELLO on a fabric port: the root follows it, whatever the port (R138, R553); what the peer says is recorded and the port
checked against every cause, quarantined or not (R145); the entry toward the place that the peer no longer has loses the port,
the one toward the place that it reports gains it (R153). -/
def fabricHello (p : Nat) (c : Ctl) (s : State) : State :=
  let s := lowerRoot (wordAt c.body 4 ++ wordAt c.body 0) s
  if c.w1 ++ c.w2 = ownSerial s then quarantine p (F.PRT_DISC_STATUS_loop p) Cause.portLoop s
  else
    let was := usable s p
    let old := s.pdisc p
    let s := recordPeer p c s
    let s := if linkUp s p && !quarantined s p then setPstate p pActive s else s
    let new := s.pdisc p
    let moved := old.peerRow != new.peerRow || old.peerCol != new.peerCol
    let s := if was && (moved || !usable s p) then usableAt p old.peerRow old.peerCol false s else s
    let s := checkExcess (c.w1 ++ c.w2) s
    let s := if miswired s p then quarantine p (F.PRT_DISC_STATUS_miswire p) Cause.portMiswire s else s
    let s := if usable s p && (moved || !was) then usableChange p true s else s
    showNbrs s

/-- HELLO: on an endpoint port the event ROLE (Table 04-4); a service port takes no part (R134). -/
def hello (p : Nat) (c : Ctl) (s : State) : State :=
  if isEp s p then portRole p s else if isFab s p then fabricHello p c s else s

/-! ### Placement -/

/-- The neighbour list that neighbour `n` reported, all parts. -/
def nbrList (s : State) (n : BitVec 64) : List (BitVec 64) :=
  (s.disc.reports.filter fun r => r.1 == n).flatMap fun r => r.2.2.2

/-- The root holds every part of the report of `n`. -/
def haveReport (s : State) (n : BitVec 64) : Bool :=
  let rs := s.disc.reports.filter fun r => r.1 == n
  match rs with
  | [] => false
  | r :: _ => (upTo (r.2.2.1 + 1)).all fun k => rs.any fun x => x.2.1 == k

/-- NBR_ALL: at least one neighbour, and every neighbour's report is complete (R138). -/
def nbrAll (s : State) : Bool := !(neighbours s).isEmpty && (neighbours s).all (haveReport s)

/-- Sends an ASSIGN (Table 04-1). -/
def sendAssign (port : Nat) (target : BitVec 64) (row col rowsM1 colsM1 : Nat) (relay : Bool) (root : BitVec 64)
    (s : State) : State :=
  let w := row * 2 ^ 27 + col * 2 ^ 22 + rowsM1 * 2 ^ 17 + colsM1 * 2 ^ 12 + ofBool relay * 2 ^ 11
  originate port (.ctl (discCtl 3 (ownSerial s) 19 [lo32 target, hi32 target, BitVec.ofNat 32 w, lo32 root, hi32 root])) s

/-- The places of R140: (serial, row, column) of every switch but the root, before clashes are removed. -/
def places (s : State) (rowset colset : List (BitVec 64)) : List (BitVec 64 × Nat × Nat) :=
  let rs := rowset.zipIdx.map fun x => (x.1, 0, x.2 + 1)
  let cs := colset.zipIdx.map fun x => (x.1, x.2 + 1, 0)
  let n := neighbours s
  let others := (n.foldl (fun l x => (nbrList s x).foldl (fun l v => insSerial v l) l) []).filter fun y =>
    y != ownSerial s && !n.contains y
  let far := others.filterMap fun y =>
    match rowset.filter fun a => (nbrList s a).contains y, colset.filter fun b => (nbrList s b).contains y with
    | [a], [b] =>
      some (y, (cs.find? fun c => c.1 == b).elim 0 (·.2.1), (rs.find? fun r => r.1 == a).elim 0 (·.2.2))
    | _, _ => none
  rs ++ cs ++ far

/-- NBR_ALL or ATMO at the root: the placement of R140, its ASSIGNs, and RUN or UNPLACED. -/
def placement (s : State) : State :=
  match neighbours s with
  | [] => takePlace 0 0 0 0 s
  | x :: _ =>
    let n := neighbours s
    let rowset := n.filter fun v => v == x || (nbrList s x).contains v
    let colset := n.filter fun v => !rowset.contains v
    let cols := 1 + rowset.length
    let rows := 1 + colset.length
    if 32 < rows ∨ 32 < cols then setDisc 5 (raise Cause.loomOversize locNone s)
    else
      let all := places s rowset colset
      let ok := all.filter fun e => (all.filter fun f => f.2 == e.2).length == 1
      let root := ownSerial s
      let s := takePlace 0 0 (rows - 1) (cols - 1) s
      forEach ok (fun e s =>
        if n.contains e.1 then
          match portToward s e.1 with
          | some p => sendAssign p e.1 e.2.1 e.2.2 (rows - 1) (cols - 1) false root s
          | none => s
        else
          match (n.find? fun v => (nbrList s v).contains e.1).bind (portToward s) with
          | some p => sendAssign p e.1 e.2.1 e.2.2 (rows - 1) (cols - 1) true root s
          | none => s) s

/-- NBR_ALL in COLLECT: placement (Table 04-2). It can come with a report, or with the loss of a neighbour's port. -/
def nbrCheck (s : State) : State := if dstate s = 2 ∧ nbrAll s then placement s else s

/-- Splits a list into parts of five. -/
def parts5 : Nat → List (BitVec 64) → List (List (BitVec 64))
  | 0, l => [l]
  | k + 1, l => if l.length ≤ 5 then [l] else l.take 5 :: parts5 k (l.drop 5)

/-- Sends the neighbour report to the root when it is a neighbour (Table 04-2). -/
def sendNbr (s : State) : State :=
  match portToward s (rootSerial s) with
  | none => s
  | some p =>
    let ps := parts5 16 (neighbours s)
    forEach ps.zipIdx (fun x s =>
      let w := x.2 * 2 ^ 28 + (ps.length - 1) % 16 * 2 ^ 24 + x.1.length * 2 ^ 21
      originate p (.ctl (discCtl 2 (ownSerial s) (4 + 8 * x.1.length - 1)
        (BitVec.ofNat 32 w :: x.1.flatMap fun v => [lo32 v, hi32 v]))) s) s

/-- QUIET: t_quiet since the root last changed (Table 04-2). Both timers run to the deadline fixed when they start, whatever is
written to quiet_exp or t_assign meanwhile: the spec does not say (DESIGN CHOICE, log 90). -/
def quiet (s : State) : State :=
  match s.disc.quietAt with
  | some t =>
    if dstate s = 1 ∧ t ≤ s.now then
      let s := { s with disc := { s.disc with quietAt := none, assignAt := some (s.now + tAssign s) } }
      if rootSerial s = ownSerial s then
        nbrCheck (setDisc 2 s)
      else setDisc 3 (sendNbr s)
    else s
  | none => s

/-- NBR: the root takes one part of a neighbour report; with the last one it places the loom. -/
def takeNbr (p : Nat) (c : Ctl) (s : State) : State :=
  if !isFab s p || quarantined s p then s
  else
    let w := (wordAt c.body 0).toNat
    let n := bits w 21 3
    let serial := c.w1 ++ c.w2
    let l := (upTo (min 5 n)).map fun i => wordAt c.body (8 + 8 * i) ++ wordAt c.body (4 + 8 * i)
    let s := { s with disc := { s.disc with
      reports := (s.disc.reports.filter fun r => !(r.1 == serial && r.2.1 == bits w 28 4))
        ++ [(serial, bits w 28 4, bits w 24 4, l)] } }
    nbrCheck s

/-- ASSIGN: the switch's own placement (ASGN), or sent once to the neighbour that it names (R141). -/
def takeAssign (p : Nat) (c : Ctl) (s : State) : State :=
  if !isFab s p || quarantined s p then s
  else
    let target := wordAt c.body 4 ++ wordAt c.body 0
    let w := (wordAt c.body 8).toNat
    let root := wordAt c.body 16 ++ wordAt c.body 12
    if bitOf w 11 then
      match portToward s target with
      | some q => sendAssign q target (bits w 27 5) (bits w 22 5) (bits w 17 5) (bits w 12 5) false root s
      | none => s
    else if target = ownSerial s ∧ root = rootSerial s ∧ (dstate s = 1 ∨ dstate s = 3) then
      takePlace (bits w 27 5) (bits w 22 5) (bits w 17 5) (bits w 12 5) s
    else s

/-- The values that two or more members hold. -/
def heldTwice (l : List Nat) : List Nat := (upTo 32).filter fun v => 2 ≤ (l.filter (· == v)).length

/-- The join rule (R142): the place that the HELLOs of placed neighbours give. -/
def joinRule (s : State) : Option (Nat × Nat × Nat × Nat) :=
  let ns := (neighbours s).filterMap fun v => (portToward s v).map s.pdisc
  let ps := ns.filter (·.peerPlaced)
  match heldTwice (ps.map (·.peerRow)), heldTwice (ps.map (·.peerCol)), ps with
  | [r], [c], d :: _ =>
    if ps.all (fun e => e.peerRows == d.peerRows && e.peerCols == d.peerCols)
        && !ps.any fun e => e.peerRow == r && e.peerCol == c then
      some (r, c, d.peerRows, d.peerCols)
    else none
  | _, _, _ => none

/-- ATMO: t_assign since entry into COLLECT or AWAIT (Table 04-2). -/
def atmo (s : State) : State :=
  match s.disc.assignAt with
  | some t =>
    if t ≤ s.now then
      let s' := { s with disc := { s.disc with assignAt := none } }
      if dstate s = 2 then placement s'
      else if dstate s = 3 then
        match joinRule s with
        | some (r, c, rm, cm) => takePlace r c rm cm s'
        | none => raise Cause.discUnplaced locNone (setDisc 5 s')
      else s
    else s
  | none => s

/-! ### Endpoints -/

/-- EP_HELLO: the learn, or an answer (Table 04-4); on a fabric port the role cause (Table 04-3). One repeated in OFFER, or in
ASSIGNED with the same serial, is answered with the allotment of the EP_HELLO that was learned: the spec does not say whose
tags_m1 counts there (DESIGN CHOICE, log 89). -/
def epHello (p : Nat) (c : Ctl) (s : State) : State :=
  let serial := c.w1 ++ c.w2
  let tags := bits (wordAt c.body 0).toNat 0 12 + 1
  if isFab s p then quarantine p (F.PRT_DISC_STATUS_role p) Cause.portRole s
  else if !isEp s p then s
  else
    let st := pstate s p
    if st = pWait then
      let s := s.onPdisc p fun d => { d with epTags := tags }
      if dstate s = 4 && (localOf s p).isSome then submitLearn p serial s else sendEpAssign p 2 s
    else if st = pOffer then sendEpAssign p 0 s
    else if st = pAssigned then
      if serial = peerSerial s p then sendEpAssign p 0 s
      else
        let s := s.onPdisc p fun d => { d with epTags := tags }
        flushPort p (submitLearn p serial (removeLearn p s))
    else s

/-- LEARN_COMMIT: a die's arbiter commits the waiting learn of its lowest port (R149). -/
def learnCommit (d : Nat) (s : State) : State :=
  match ((upTo 128).map (d * 128 + ·)).find? fun p =>
      pstate s p == pLearn && match (s.pdisc p).learn with | some l => l.stamp.isNone | none => false with
  | some p => commitLearn p s
  | none => s

/-- WIN: 256 ns after its commit a learn that has not lost wins (R149). -/
def win (p : Nat) (s : State) : State :=
  match (s.pdisc p).learn with
  | some l =>
    match l.stamp with
    | some t =>
      if pstate s p = pLearn ∧ t + 256 ≤ s.tbase then
        let s := setPstate p pOffer s
        let s := s.wr (R.PRT_DISC_ID p) (BitVec.ofNat 32 (portEp s p))
        sendEpAssign p 0 s
      else s
    | none => s
  | none => s

/-- EP_ACK: with the port's endpoint ID, OFFER goes to ASSIGNED (Table 04-4). -/
def epAck (p : Nat) (c : Ctl) (s : State) : State :=
  if isEp s p && pstate s p == pOffer && bits (wordAt c.body 0).toNat 0 15 == portEp s p then setPstate p pAssigned s
  else s

/-! ### Routing entries written by software -/

/-- The key of the routing entry that holds BAR offset `off`, when software may write it. -/
def routeKey (off : Nat) : Option Nat :=
  if R.RTE_ROW_LO 0 ≤ off ∧ off < R.RTE_COL_LO 0 + 256 then some (off / 8 * 8)
  else if R.RTE_DEST 0 ≤ off ∧ off < R.RTE_DEST 1024 then some (off / 4 * 4)
  else none

/-- The entry value that the registers of key `k` now hold, the epoch apart. -/
def entryWritten (s : State) (k : Nat) : BitVec 64 :=
  if isWide k then (s.rd (k + 4) &&& 0x00FFFFFF) ++ s.rd k else (s.rd k &&& 0x00FFFFFF).setWidth 64

/-- A software write of a whole entry makes a version; what was staged is part of it, or replaced (R166). -/
def writtenVersion (k : Nat) (s : State) : State :=
  newVersion k (entryWritten s k) true (s.onRver k fun r => { r with staged := none })

/-- A 32-bit software write to a routing entry (R166): the lower half of a 64-bit entry is staged. -/
def routeWrite32 (off : Nat) (v : Word) (s : State) : State :=
  match routeKey off with
  | none => s
  | some k =>
    if isWide k then
      if off = k then (s.storeReg k v).onRver k fun r => { r with staged := some v }
      else
        let lower := (s.rver k).staged.getD ((latest s k).extractLsb' 0 32)
        writtenVersion k ((s.storeReg k lower).storeReg (k + 4) v)
    else writtenVersion k (s.storeReg k v)

/-- ROUTE_WRITE: a software write to a routing entry; a 64-bit write changes a 64-bit entry at once (R166). -/
def routeWrite (off size : Nat) (v : BitVec 64) (s : State) : State :=
  if size = 8 ∧ off % 8 = 0 then
    match routeKey off with
    | some k =>
      if isWide k then
        let s := (s.storeReg k (v.extractLsb' 0 32)).storeReg (k + 4) (v.extractLsb' 32 32)
        writtenVersion k s
      else routeWrite32 (off + 4) (v.extractLsb' 32 32) (routeWrite32 off (v.extractLsb' 0 32) s)
    | none => s
  else if size = 4 ∧ off % 4 = 0 then routeWrite32 off (v.extractLsb' 0 32) s
  else s.emit (.unsupported off)

/-- VERSION_RETIRE: nothing is in flight on the retiring version; a pending write applies in that cycle (R166, R167). -/
def versionRetire (off : Nat) (s : State) : State :=
  let k := if isWide off then off / 8 * 8 else off / 4 * 4
  match (s.rver k).retiring with
  | some (_, 0) =>
    let pend := (s.rver k).pending
    let s := s.onRver k fun r => { r with retiring := none, retiredAt := some s.now, pending := none }
    match pend with
    | some (v, hold) => newVersion k v hold s
    | none => showSettled k s
  | _ => s

end Sys2Proof.Machine
end

