-- ==== Sys2Proof/Machine/Egress.lean ====
section
/-! DEFINITION. Sending (files 05 and 06): the egress arbiter (R205 to R212), cut-through (R191, R192), preemption (R126 to
R128), treadlings (R220 to R226), shapers and the calender (R227 to R231), aging, sampling, the crossbar (R192 to R195), the
credit flush (R199). -/

namespace Sys2Proof.Machine

/-! ### Fabric time -/

/-- Fabric time, a 64-bit count of 1/256 ns (R213): the rate is the core clock's, with a correction slewed over `span` ns
(R216). -/
def ftime (s : State) : Nat :=
  let e := s.now - s.time.upd
  let part : Int := if s.time.span = 0 then s.time.corr else s.time.corr * Int.ofNat (min e s.time.span) / Int.ofNat s.time.span
  ((Int.ofNat (s.time.val + 256 * e) + part) % 2 ^ 64).toNat

/-- Fabric time in whole ns. -/
def ftimeNs (s : State) : Nat := ftime s / 256

/-- The switch's fabric time is locked (R216). -/
def timeLocked (s : State) : Bool := s.flag F.SCH_TIME_STATUS_locked

/-! ### Treadlings -/

/-- Shed `i` of a port (Table 06-3). -/
def shedOf (s : State) (p i : Nat) : Nat :=
  let d := portDie p
  let j := s.fld (F.PRT_TRD_SHEDS_base p) + i
  ((s.rd (R.SCH_SHED_HI d j)) ++ (s.rd (R.SCH_SHED_LO d j))).toNat

/-- start of a shed in ns. -/
def shedStart (v : Nat) : Nat := bits v 0 15 * 32
/-- end of a shed in ns. -/
def shedEnd (v : Nat) : Nat := (bits v 0 15 + bits v 15 15) * 32
/-- ctx of a shed. -/
def shedCtx (v : Nat) : Nat := bits v 30 12

/-- The period of a port's treadling in ns. -/
def trdPeriod (s : State) (p : Nat) : Nat := s.fld (F.PRT_TRD_CFG_period p) * 32

/-- The phase of a port's treadling in ns (R222). -/
def trdPhase (s : State) (p : Nat) : Nat := if trdPeriod s p = 0 then 0 else ftimeNs s % trdPeriod s p

/-- The open shed gives Q1 the port's scheduled grant (R223, R225): the switch is locked, or was within this shed. -/
def shedRules (s : State) (p : Nat) : Bool := timeLocked s || ((s.psch p).openShed.isSome && (s.psch p).shedHeld)

/-- Condition 4 of R205 for a head packet of Q1 (R223, R226); a bad shed entry stops the port's Q1 (R447). -/
def q1Allowed (s : State) (p : Nat) (c : Copy) : Bool :=
  if s.ecc.q1Stop.contains p then false
  else if !s.flag (F.PRT_TRD_CFG_trd_en p) then true
  else if shedRules s p then
    match (s.psch p).openShed with
    | some i =>
      let v := shedOf s p i
      shedStart v ≤ trdPhase s p && (ctxOf c.pkt == some (shedCtx v))
        && trdPhase s p * 100 + ceilDiv (c.nLu * 256) (max 1 (activeLanes s p)) ≤ shedEnd v * 100
    | none => false
  else s.flag (F.PRT_TRD_CFG_unlock_act p)

/-- Q1 runs unlocked at level 4 (R226). -/
def q1Unlocked (s : State) (p : Nat) : Bool := s.flag (F.PRT_TRD_CFG_trd_en p) && !shedRules s p

/-- An open shed with ctl_hold = 1 holds Q0 (R205, R224). -/
def ctlHeld (s : State) (p : Nat) : Bool :=
  match (s.psch p).openShed with
  | some i => s.flag (F.PRT_TRD_CFG_trd_en p) && bitOf (shedOf s p i) 42
  | none => false

/-! ### Eligibility and arbitration -/

/-- The die-to-die link (d, e) has its full 1.6 TB/s (R25). -/
def d2dFull (s : State) (d e : Nat) : Bool :=
  d == e || s.fld (F.FLT_D2D_STAT_failed (d * 4 + e)) ≤ 2

/-- Condition 1 of R205: the last cell is closed and the CRC good, or the copy goes by cut-through and its first cell is closed
(R191). -/
def headReady (s : State) (c : Copy) : Bool :=
  !c.stomp && ((c.cut && (s.cell c.head).closed) || (copyCells s c).all fun x => (s.cell x).closed)

/-- Condition 3 of R205: the queue's shaper allows it (R227). -/
def shaperAllows (s : State) (p q : Nat) : Bool :=
  if 2 ≤ q && s.flag (F.PRT_Q_CFG_shp_en p q) then
    let r := s.qsch (p * 8 + q)
    let b := refill r.bucket s.now (s.fld (F.PRT_SHP_RATE_rate p q)) (s.fld (F.PRT_SHP_BURST_burst p q) * 64)
    0 ≤ b.tok && r.cal.isNone
  else true

/-- Every condition of R205 but the credits, for the head copy of a queue. -/
def otherwiseReady (s : State) (p q : Nat) (c : Copy) : Bool :=
  headReady s c && shaperAllows s p q && (if q = 1 then q1Allowed s p c else true) && (if q = 0 then !ctlHeld s p else true)

/-- A queue is eligible (R205). -/
def eligible (s : State) (p q : Nat) : Bool :=
  match s.eqQ (p * 8 + q) with
  | [] => false
  | c :: _ => otherwiseReady s p q c && c.nLu ≤ creditsOf s p q

/-- The programmable level of Q2 to Q6; 5 to 7 act as 4 (PRT_ARB_PRIO). -/
def prioOf (s : State) (p q : Nat) : Nat := min 4 (bits (s.rd (R.PRT_ARB_PRIO p)).toNat (3 * (q - 2)) 3)

/-- The level of a queue (Table 06-1, R207); 8 stands for below every level. -/
def levelOf (s : State) (p q : Nat) : Nat :=
  if q = 0 then 7
  else if q = 1 then (if q1Unlocked s p then 4 else 6)
  else if (s.qsch (p * 8 + q)).promoted then 5
  else if q = 7 then 8
  else prioOf s p q

/-- The arbitration of R207 among the queues that `among` admits: the granted queue and the pointers after. -/
def arbitrate (s : State) (p : Nat) (among : Nat → Bool) : Option (Nat × List Nat) :=
  let el := (upTo 8).filter fun q => among q && eligible s p q
  let ptr := (s.psch p).ptr
  match [7, 6, 5, 4, 3, 2, 1, 0].find? fun l => el.any fun q => levelOf s p q == l with
  | some l =>
    match ((upTo 8).map fun i => (nth ptr l + i) % 8).find? fun q => el.contains q && levelOf s p q == l with
    | some q => some (q, setAt ptr l ((q + 1) % 8))
    | none => none
  | none => if el.contains 7 then some (7, ptr) else none

/-- The fabric time that a TIME packet takes as it leaves: t1 of a REQ, t3 of an RSP, with the lock state that the switch then
has (R215, R216). -/
def stampTime (pk : Pkt) (s : State) : Pkt × State :=
  match pk with
  | .ctl c =>
    if c.ckind = 0x11#5 then
      let t := leBytes 8 (ftime s)
      if bits c.ks.toNat 12 4 = 1 then
        (.ctl { c with body := padTo 48 t }, { s with time := { s.time with t1 := some (ftime s) } })
      else if bits c.ks.toNat 12 4 = 2 then
        let ks := 2 * 4096 + ofBool (timeLocked s) * 2048 + ofBool (s.flag F.SCH_TIME_STATUS_master) * 1024 + bits c.ks.toNat 0 8
        (.ctl { c with ks := BitVec.ofNat 16 ks, body := padTo 48 (c.body.take 16 ++ t) }, s)
      else (pk, s)
    else (pk, s)
  | .data _ => (pk, s)

/-- The ltype of a LANE packet (R392). -/
def laneType : Pkt → Option Nat
  | .ctl c => if c.ckind = 0x12#5 then some (bits c.ks.toNat 12 4) else none
  | .data _ => none

/-- A GO: the transmit direction changes with it (R396). -/
def isGo (pk : Pkt) : Bool := laneType pk == some 3

/-! ### Sending link units -/

/-- The bytes a copy leaves with: its own CRC, or that xor 0xFFFFFFFF when it is ended stomped (R106). -/
def txBytes (c : Copy) : List Byte :=
  let b := encodePkt c.pkt
  if c.stomp then
    match c.pkt with
    | .data _ => b.take (b.length - 4) ++ (b.drop (b.length - 4)).map fun x => x ^^^ 0xFF#8
    | .ctl _ => b.take 12 ++ ((b.drop 12).take 4).map (fun x => x ^^^ 0xFF#8) ++ b.drop 16
  else b

/-- Sends the link group being filled as a counted group, idle units filling it (R86, R108, R116). -/
def flushGroup (p : Nat) (s : State) : State :=
  let l := s.lnk p
  let units := tenUnits l.part
  let s := sendCounted p l.txSeq units s
  showLink p (s.onLnk p fun l =>
    { l with part := [], txSeq := (l.txSeq + 1) % 65536, replay := l.replay ++ [(l.txSeq, units)],
             ackAt := if l.replay.isEmpty then s.now else l.ackAt })

/-- Sends the group being filled, and the link-control unit that is due with it (R118). -/
def sendGroup (p : Nat) (s : State) : State := sendDue p (flushGroup p s)

/-- Puts one link unit into the group being filled; the tenth sends it. -/
def pushUnit (p : Nat) (u : LinkUnit) (s : State) : State :=
  let s := s.onLnk p fun l => { l with part := l.part ++ [u] }
  if 10 ≤ (s.lnk p).part.length then sendGroup p s else s

/-- Uncounted groups until the slot count is a multiple of 8, before GO (R396). -/
def padSlots (p : Nat) (s : State) : State :=
  let s := if (s.lnk p).part.isEmpty then s else flushGroup p s
  forEach (upTo ((8 - (s.lnk p).slot % 8) % 8)) (fun _ s => sendLcu p (lcuNow s p) s) s

/-- A granted copy leaves its queue: the descriptor is free, its egress mirror sessions take their copies (R201). -/
def takeHead (p q : Nat) (c : Copy) (rest : List Copy) (s : State) : State :=
  let s := pushDescOf c (setQueue (p * 8 + q) rest s)
  forEach c.mir (mirrorOne (c.head / 2 ^ 18) c.head c.rx false c.pkt) s

/-- Debits the shaper of queue `q` for a packet; negative tokens place the queue on the calender (R227, R229). -/
def debitQueue (p q : Nat) (pk : Pkt) (s : State) : State :=
  let k := p * 8 + q
  if 2 ≤ q && s.flag (F.PRT_Q_CFG_shp_en p q) then
    let rate := s.fld (F.PRT_SHP_RATE_rate p q)
    let l := chargedLen (s.fld (F.PRT_SHP_BURST_len_mode p q)) (s.fld (F.PRT_SHP_BURST_ovh p q)) pk
    let s := s.onQsch k fun r =>
      let b := refill r.bucket s.now rate (s.fld (F.PRT_SHP_BURST_burst p q) * 64)
      { r with bucket := { b with tok := b.tok - Int.ofNat (l * 65536) } }
    if (s.qsch k).bucket.tok < 0 then placeCal k (nextEligible (s.qsch k).bucket.tok rate) s else s
  else s

/-- Data after EI_ENTER: the transmitter has to send EI_ENTER again before it stops (R385, R386). -/
def endQuiet (p : Nat) (pk : Pkt) (s : State) : State :=
  if laneType pk == some 4 then s else s.onPln p fun l => { l with quietAt := none, eiSent := false }

/-- Grants queue `q` of port `p` (R207, R209): its head packet starts, its credits are taken (R113), its shaper is
debited (R227, R229), its age and promotion end (R210, R211). A copy whose first cell cannot be corrected is discarded
instead (R175). -/
def grant (p q : Nat) (ptr : List Nat) (s : State) : State :=
  let k := p * 8 + q
  match s.eqQ k with
  | [] => s
  | c :: rest =>
    let s := s.onPsch p fun r => { r with ptr := ptr }
    let s := s.onQsch k fun r => { r with age := 0, granted := true, promoted := false, starved := none }
    let x := readCell c.head s
    if x.1 then discardCopy c (setQueue k rest x.2)
    else
      let s := x.2.onLnk p fun l => { l with sentQ := setAt l.sentQ q ((nth l.sentQ q + c.nLu) % 65536) }
      let s := endQuiet p c.pkt (debitQueue p q c.pkt s)
      let x := if q = 7 then (c.pkt, s) else stampTime c.pkt s
      let c := { c with pkt := x.1 }
      let s := takeHead p q c rest x.2
      let s := if isGo c.pkt then padSlots p s else s
      s.onLnk p fun l => { l with txCur := some ⟨{ c with mir := [] }, 0, c.head, 0, false⟩ }

/-- The last link unit of a packet has left; with GO its group leaves at once and the transmit direction changes (R396). -/
def endPacket (p : Nat) (c : Copy) (s : State) : State :=
  let s := leaveVers c.vers (s.emit (.sent p c.pkt c.stomp))
  let s := s.onLnk p fun l => { l with txCur := none }
  if isGo c.pkt then sendDue p (txChange p (if (s.lnk p).part.isEmpty then s else flushGroup p s)) else s

/-- A reader comes to a cell: an error that cannot be corrected ends the copy stomped (R175); the first cell was read at the
grant. -/
def enterCell (t : TxPkt) (s : State) : TxPkt × State :=
  if t.sent % 4 = 0 && t.sent != 0 then
    let x := readCell t.cell s
    ({ t with copy := { t.copy with stomp := t.copy.stomp || x.1 } }, x.2)
  else (t, s)

/-- Sends one link unit of the packet in progress; a cell not yet closed leaves a gap, filled by an idle unit (R131). The
measure of R199 starts again for its queue. -/
def sendUnit (p : Nat) (s : State) : State :=
  match (s.lnk p).txCur with
  | none => s
  | some t =>
    if !(s.cell t.cell).closed then pushUnit p idleUnit s
    else
      let x := enterCell t s
      let t := x.1
      let s := x.2.onQsch (p * 8 + t.copy.queue % 8) fun r => { r with starved := none }
      let u : LinkUnit :=
        { marker := if t.sent = 0 then 1#2 else 2#2, bytes := ((txBytes t.copy).drop (64 * t.sent)).take 64 }
      let n := t.sent + 1
      let last := t.copy.nLu ≤ n
      let next := (s.cell t.cell).next
      let s := pushUnit p u s
      let s := if last || n % 4 = 0 then readDone t.cell s else s
      if last then endPacket p t.copy s
      else
        s.onLnk p fun l => { l with txCur := some { t with sent := n, cell := if n % 4 = 0 then next else t.cell,
                                                           since := t.since + 1 } }

/-- A preemptible packet in progress may be suspended at this boundary (R126, R127). -/
def mayPreempt (s : State) (p : Nat) (t : TxPkt) : Bool :=
  let q := t.copy.queue % 8
  s.flag (F.PRT_LL_CFG_preempt_en p) && 2 ≤ q && q ≤ 6 && 1 ≤ t.sent && t.sent < t.copy.nLu
    && (!t.resumed || 10 ≤ t.since)

/-- The express queues that may start now; an unlocked Q1 does not preempt (R226). -/
def express (s : State) (p q : Nat) : Bool := q == 0 || (q == 1 && !q1Unlocked s p)

/-- The replay buffer of 64 × w groups has room (R116), w being the active lanes: the spec does not say whether a narrowed port
keeps room for its full width (DESIGN CHOICE, log 91). -/
def replayRoom (s : State) (p : Nat) : Bool := (s.lnk p).replay.length < 64 * activeLanes s p

/-- Marks the queues whose head is ready but for too few credits (R199). -/
def markStarved (p : Nat) (s : State) : State :=
  forEach [2, 3, 4, 5, 6] (fun q s =>
    match s.eqQ (p * 8 + q) with
    | c :: _ =>
      if otherwiseReady s p q c && creditsOf s p q < c.nLu then
        s.onQsch (p * 8 + q) fun r => { r with starved := some (r.starved.getD s.now) }
      else s.onQsch (p * 8 + q) fun r => { r with starved := none }
    | [] => s) s

/-- No link unit of a packet can go: the group being filled goes, or an uncounted group (R111, R116); a transmitter in
electrical idle stays silent (R385). -/
def idleBoundary (p : Nat) (s : State) : State :=
  if !(s.lnk p).part.isEmpty && replayRoom s p then sendGroup p s
  else if s.flag (F.PRT_EI_CFG_tx_ei p) then s
  else sendLcu p (lcuNow s p) s

/-- What a port sends at a link-unit boundary with room in its replay buffer (R126 to R128, R206, R207). -/
def nextUnit (p : Nat) (s : State) : State :=
  match (s.lnk p).txCur, (s.lnk p).txSusp with
  | some t, _ =>
    if mayPreempt s p t then
      match arbitrate s p (express s p) with
      | some (q, ptr) =>
        let s := s.onLnk p fun l => { l with txSusp := some { t with resumed := true, since := 0 }, txCur := none, xpCount := 1 }
        sendUnit p (grant p q ptr (s.bump (F.PRT_PREEMPT_CNT_count p)))
      | none => sendUnit p s
    else sendUnit p s
  | none, some t =>
    let resume (s : State) : State :=
      sendUnit p (s.onLnk p fun l => { l with txCur := some t, txSusp := none, xpCount := 0 })
    if (s.lnk p).xpCount < max 1 (s.fld (F.PRT_LL_CFG_xp_max p)) then
      match arbitrate s p (express s p) with
      | some (q, ptr) => sendUnit p (grant p q ptr (s.onLnk p fun l => { l with xpCount := l.xpCount + 1 }))
      | none => resume s
    else resume s
  | none, none =>
    match arbitrate s p (fun _ => true) with
    | some (q, ptr) => sendUnit p (grant p q ptr s)
    | none => idleBoundary p s

/-- EGRESS_ARBITRATION: one link-unit boundary of a port in UP. -/
def egressBoundary (p : Nat) (s : State) : State :=
  let s := markStarved p s
  if !linkUp s p then s else if replayRoom s p then nextUnit p s else idleBoundary p s

/-! ### Cut-through -/

/-- Condition 2 of R191: the port sends nothing, or the copy may preempt what it sends (R126, R127). -/
def portFree (s : State) (p q : Nat) : Bool :=
  match (s.lnk p).txCur, (s.lnk p).txSusp with
  | none, none => true
  | some t, none => mayPreempt s p t && express s p q
  | none, some _ => express s p q && (s.lnk p).xpCount < max 1 (s.fld (F.PRT_LL_CFG_xp_max p))
  | some _, some _ => false

/-- The copy at the head of queue (p, q), whose first cell has just closed in the slice that sends it, goes by cut-through when
every condition of R191 holds; for one that crossed, the link from its ingress die as well (R192). -/
def tryCut (p q : Nat) (s : State) : State :=
  match s.eqQ (p * 8 + q) with
  | [c] =>
    let t := s.setEq (p * 8 + q) [{ c with cut := true }]
    let idle := (s.lnk p).txCur.isNone && (s.lnk p).txSusp.isNone
    let among : Nat → Bool := fun i => idle || express s p i
    if c.igPort < 512 && portFree s p q && (arbitrate t p among).map (·.1) == some q && activeLanes s p ≤ c.lanes
        && d2dFull s (portDie c.igPort) (portDie p) then t
    else s
  | _ => s

/-! ### Aging, calender, sampling -/

/-- AGE_TICK: a whole-microsecond boundary of the device time base (R210). -/
def ageTick (s : State) : State :=
  if s.tbase < s.sched.ageAt then s
  else
    let keys := (s.core.eq.map (·.1)).filter fun k => 2 ≤ k % 8
    let s1 := forEach keys (fun k s =>
      if eligible s (k / 8) (k % 8) && !(s.qsch k).granted then s.onQsch k fun r => { r with age := r.age + 1 } else s) s
    { s1 with sched := { s1.sched with
        q := Sparse.mapVals (fun _ => {}) (fun _ r => { r with granted := false }) s1.sched.q
        ageAt := s.tbase / 1000 * 1000 + 1000 } }

/-- PROMOTION: the age counter exceeds starve_lim (R211). -/
def promote (p q : Nat) (s : State) : State :=
  let k := p * 8 + q
  let lim := s.fld (F.PRT_Q_CFG_starve_lim p q)
  if 2 ≤ q ∧ lim ≠ 0 ∧ lim < (s.qsch k).age ∧ !(s.qsch k).promoted ∧ !(s.eqQ k).isEmpty then
    (s.onQsch k fun r => { r with promoted := true }).bump (F.PRT_PROMO_CNT_count p q)
  else s

/-- Recomputes a shaped queue's tokens; still negative, it is placed again (R230). -/
def recheckShaper (k : Nat) (s : State) : State :=
  let p := k / 8
  let q := k % 8
  let rate := s.fld (F.PRT_SHP_RATE_rate p q)
  let s := s.onQsch k fun r =>
    { r with cal := none, bucket := refill r.bucket s.now rate (s.fld (F.PRT_SHP_BURST_burst p q) * 64) }
  if (s.qsch k).bucket.tok < 0 then placeCal k (nextEligible (s.qsch k).bucket.tok rate) s else s

/-- The queues of die `d` on a slot of one of its wheels. -/
def onSlot (s : State) (d : Nat) (coarse : Bool) (slot : Nat) : List Nat :=
  (s.sched.q.filter fun e =>
    portDie (e.1 / 8) == d && match e.2.cal with
      | some c => c.coarse == coarse && c.slot == slot
      | none => false).map (·.1)

/-- FINE_SLOT: the fine wheel of a die advances by one slot of 8 ns (R230). -/
def fineSlot (d : Nat) (s : State) : State :=
  if s.now < nth s.sched.fineAt d then s
  else
    let slot := (nth s.sched.fptr d + 1) % 4096
    let s := { s with sched := { s.sched with fptr := setAt s.sched.fptr d slot,
                                              fineAt := setAt s.sched.fineAt d (nth s.sched.fineAt d + 8) } }
    forEach (onSlot s d false slot) recheckShaper s

/-- COARSE_SLOT: the coarse wheel advances by one slot of 32 µs; its entries move to the fine wheel, or are placed
again when their time is still too far (R230). -/
def coarseSlot (d : Nat) (s : State) : State :=
  if s.now < nth s.sched.coarseAt d then s
  else
    let slot := (nth s.sched.cptr d + 1) % 4096
    let s := { s with sched := { s.sched with cptr := setAt s.sched.cptr d slot,
                                              coarseAt := setAt s.sched.coarseAt d (nth s.sched.coarseAt d + 32000) } }
    forEach (onSlot s d true slot) (fun k s =>
      match (s.qsch k).cal with
      | some c => if c.at_ - s.now ≤ 4095 * 8 then placeCal k (c.at_ - s.now) s else recheckShaper k s
      | none => s) s

/-- The bin of a sample (R239). -/
def sampleBin (v : Nat) : Nat := if v = 0 then 0 else min 15 (Nat.log2 v + 1)

/-- SAMPLE: depth and delay of every egress queue of the enabled ports (R239). -/
def sample (s : State) : State :=
  let iv := min 1000 (max 1 (s.fld F.SCH_SAMP_CFG_interval)) * 1000
  if !s.flag F.SCH_SAMP_CFG_samp_en || s.now < s.sched.sampleAt then s
  else
    let s := { s with sched := { s.sched with sampleAt := s.now + iv } }
    forEach (enabledPorts s) (fun p s => forEach (upTo 8) (fun q s =>
      let l := s.eqQ (p * 8 + q)
      let delay := match l with | c :: _ => (s.tbase + 2 ^ 32 - c.stamp) % 2 ^ 32 / 32 | [] => 0
      (s.bump (F.SCH_HIST_DEPTH_count (p * 8 + q) (sampleBin (queueCells l)))).bump
        (F.SCH_HIST_DELAY_count (p * 8 + q) (sampleBin delay))) s) s

/-! ### Sheds -/

/-- SHED_OPEN: shed `i` of the port opens at its phase (R222, R224). -/
def shedOpen (p i : Nat) (s : State) : State :=
  let v := shedOf s p i
  if s.flag (F.PRT_TRD_CFG_trd_en p) && i < s.fld (F.PRT_TRD_SHEDS_count p) && (s.psch p).openShed.isNone
      && shedStart v ≤ trdPhase s p && trdPhase s p < shedEnd v then
    s.onPsch p fun r => { r with openShed := some i }
  else s

/-- The open shed of a port ends; a write to unlock_act that waited takes effect (R225). -/
def endShed (p : Nat) (s : State) : State :=
  if (s.psch p).openShed.isSome then
    let s := match (s.psch p).unlockPend with
      | some b => s.setFlag (F.PRT_TRD_CFG_unlock_act p) b
      | none => s
    s.onPsch p fun r => { r with openShed := none, shedHeld := false, unlockPend := none }
  else s

/-- SHED_CLOSE: the open shed ends at its phase (R222, R225). -/
def shedClose (p : Nat) (s : State) : State :=
  match (s.psch p).openShed with
  | some i =>
    let v := shedOf s p i
    if shedStart v ≤ trdPhase s p ∧ trdPhase s p < shedEnd v then s else endShed p s
  | none => s

/-- Writes a port's shed list into its die's shed RAM from the port's base (R494). -/
def writeSheds (p : Nat) (l : List (BitVec 64)) (s : State) : State :=
  let d := portDie p
  let base := s.fld (F.PRT_TRD_SHEDS_base p)
  let s := forEach l.zipIdx (fun x s =>
    (s.wr (R.SCH_SHED_LO d (base + x.2)) (lo32 x.1)).wr (R.SCH_SHED_HI d (base + x.2)) (hi32 x.1)) s
  s.setFld (F.PRT_TRD_SHEDS_count p) l.length

/-- The period of the port's treadling that runs now, counted from fabric time 0 (R222). -/
def periodNow (s : State) (p : Nat) : Nat := if trdPeriod s p = 0 then 0 else ftimeNs s / trdPeriod s p

/-- TREADLING_HANDOVER: a reloaded treadling takes over at the first period start of the old one after the load; no shed of the
old one is then open (R225). -/
def treadlingHandover (p : Nat) (s : State) : State :=
  match (s.psch p).newTrd with
  | some l =>
    if periodNow s p = (s.psch p).newAfter && trdPeriod s p != 0 then s
    else (writeSheds p l (endShed p s)).onPsch p fun r => { r with newTrd := none }
  | none => s

/-- SCH_LATE: the Q1 head has waited longer than P × 32 ns (R223). -/
def schLate (p : Nat) (s : State) : State :=
  let k := p * 8 + 1
  if s.flag (F.PRT_TRD_CFG_trd_en p) && !(s.eqQ k).isEmpty && !(s.qsch k).lateDone
      && (s.qsch k).headAt + trdPeriod s p < s.now then
    (s.onQsch k fun r => { r with lateDone := true }).bump (F.PRT_SCH_LATE_CNT_count p)
  else s

/-! ### Flush for want of credits -/

/-- HOL_FLUSH: the head of Q2 to Q6 held for too few credits for 2^hol_exp µs; the copies present are flushed (R199). -/
def holFlush (p q : Nat) (s : State) : State :=
  let k := p * 8 + q
  let e := s.fld (F.CBF_HOL_hol_exp (portDie p))
  if 2 ≤ q ∧ q ≤ 6 ∧ e ≤ 20 then
    match s.eqQ k, (s.qsch k).starved with
    | c :: _, some t =>
      if creditsOf s p q < c.nLu ∧ t + 2 ^ e * 1000 ≤ s.now then flushQueue k (fun _ => false) s else s
    | _, _ => s
  else s

/-! ### The die crossbar -/

/-- Transfers in progress on link (d, e). -/
def xfers (s : State) (d e : Nat) : List Transfer := Sparse.get (fun _ => []) s.core.xfer (d * 4 + e)

/-- Sets them. -/
def setXfers (d e : Nat) (l : List Transfer) (s : State) : State :=
  { s with core := { s.core with xfer := Sparse.put (fun _ => []) s.core.xfer (d * 4 + e) l } }

/-- gp of an egress queue: the source die its grant starts from (R194). -/
def gpOf (s : State) (eq : Nat) : Nat := Sparse.get (fun _ => 0) s.core.gp eq
/-- ap of a link: the egress queue its accept starts from, numbered port × 8 + queue within the die. -/
def apOf (s : State) (d e : Nat) : Nat := Sparse.get (fun _ => 0) s.core.ap (d * 4 + e)

/-- The head of crossbar queue (d, eq) requests: no transfer of that queue is in progress and its first cell is closed (R193). -/
def requests (s : State) (d eq : Nat) : Bool :=
  match s.xqQ (d * 4096 + eq) with
  | c :: _ => !(xfers s d (portDie (eq / 8))).any (fun t => t.eq == eq) && (s.cell c.head).closed
  | [] => false

/-- accept(d, e, eq) (R194): the head copy's transfer starts, its cells are taken and charged in the destination slice with a
reader for each egress mirror session, its ingress credits return (R187), its descriptor joins the egress queue (R195). Its
source cells stay charged to its ingress reserve until they have crossed. A failed allocation discards it (R181). -/
def acceptXfer (d e eq acct : Nat) (s : State) : State :=
  match s.xqQ (d * 4096 + eq) with
  | [] => s
  | c :: rest =>
    let s := s.setXq (d * 4096 + eq) rest
    if flushing s (eq / 8) c.pkt then flushCopy c (returnCredits c s)
    else
      let src := copyCells s c
      let mir := if c.queue % 8 = 7 then [] else mirSelect s true (eq / 8) c.pkt
      let own := s.core.nextRx
      match describe e [c] s with
      | some ([c1], s1) =>
        match popCells e src.length s1 with
        | some (dst, s) =>
          let s := pushDescOf c { s with core := { s.core with nextRx := own + 1 } }
          let s := showFree e (charge e acct dst.length (linkCells c.nLu (1 + mir.length) acct false own dst s))
          let s := returnCredits c (debitCtx c s)
          let c' := { c1 with head := dst.headD 0, acct := acct - 1, cred := 0, mir := mir, xid := own, cut := false }
          let s := setXfers d e (xfers s d e ++ [⟨eq, src, dst, c', own⟩]) s
          let nxt := (d + 1) % 4
          let s := { s with core := { s.core with
            gp := Sparse.put (fun _ => 0) s.core.gp eq (if nxt = e then (nxt + 1) % 4 else nxt) } }
          enqueue c' s
        | none => discardCopy c (returnCredits c (pushDescOf c1 (allocFail e s1)))
      | _ => discardCopy c (returnCredits c (allocFail e s))

/-- A head that may be granted: source die, egress queue, copy. -/
def candidates (s : State) (e : Nat) : List (Nat × Nat × Copy) :=
  let eqs := (s.core.xq.map fun x => x.1 % 4096).dedup.filter fun eq => portDie (eq / 8) == e
  eqs.filterMap fun eq =>
    (((upTo 4).map fun i => (gpOf s eq + i) % 4).find? fun d => d != e && requests s d eq).bind fun d =>
      (s.xqQ (d * 4096 + eq)).head?.map fun c => (d, eq, c)

/-- What a list of heads leaves of the context shapers: those that pass, each seeing the debits before it (R233, R234). -/
def passShapers : List (Nat × Nat × Copy) → State → List (Nat × Nat × Copy)
  | [], _ => []
  | x :: rest, s =>
    if ctxAllows s x.2.2 then x :: passShapers rest (debitCtx x.2.2 s) else passShapers rest s

/-- What R188 admits of a list of heads into die `e`, each seeing the cells reserved before it (R194). -/
def reserve (e : Nat) : List (Nat × Nat × Copy) → State → List (Nat × Nat × Nat)
  | [], _ => []
  | (d, eq, c) :: rest, s =>
    match admitTo s e [c] with
    | some a => (d, eq, a) :: reserve e rest (charge e a (ceilDiv c.nLu 4) s)
    | none => reserve e rest s

/-- The grant stage of die `e`: for each of its egress queues that some die requests, the first source die at or after gp whose
head R188 admits and its context shaper lets pass (R194). Heads reach a shaper by ingress port (R234); they are admitted Q0
first, then Q1, then the others, within each by ingress port (R188). -/
def grants (s : State) (e : Nat) : List (Nat × Nat × Nat) :=
  let byPort := (candidates s e).mergeSort fun x y => x.2.2.igPort ≤ y.2.2.igPort
  let pass := passShapers byPort s
  let rank (c : Copy) : Nat := min 2 (c.queue % 8) * 1024 + c.igPort
  reserve e (pass.mergeSort fun x y => rank x.2.2 ≤ rank y.2.2) s

/-- Accepts a list of granted queues on link (d, e) with their accounts; `turn` moves the accept pointer (R194). -/
def acceptList (d e : Nat) (turn : Bool) (l : List (Nat × Nat)) (s : State) : State :=
  forEach l (fun x s =>
    let s := acceptXfer d e x.1 x.2 s
    if turn then { s with core := { s.core with ap := Sparse.put (fun _ => 0) s.core.ap (d * 4 + e) ((x.1 % 1024 + 1) % 1024) } }
    else s) s

/-- The accept stage of link (d, e) (R194): express first, then from ap on; what is not accepted is granted afresh. -/
def acceptStage (gs : List (Nat × Nat × Nat)) (d e : Nat) (s : State) : State :=
  let mine := ((gs.filter fun g => g.1 == d).map fun g => g.2).mergeSort fun x y => x.1 ≤ y.1
  let lim f g := max 1 (s.fld (f g))
  let free := min 8 (lim F.CBF_XB_CFG_max_xfer d) - (xfers s d e).length
  let acc := min free (lim F.CBF_XB_CFG_max_acc d)
  let first := (mine.filter fun x => x.1 % 8 ≤ 1).take (min acc (lim F.CBF_XB_CFG_max_exp d))
  let ap := apOf s d e
  let rest := mine.filter fun x => !first.contains x
  let order := rest.filter (fun x => ap ≤ x.1 % 1024) ++ rest.filter fun x => x.1 % 1024 < ap
  acceptList d e true (order.take (acc - first.length)) (acceptList d e false first s)

/-- A transfer has ended: a copy that cannot be sent whole is discarded (R106, R175), one toward a port that flushes is flushed
(R199), each unless it has begun to leave. -/
def endXfer (t : Transfer) (s : State) : State :=
  match (s.eqQ t.eq).find? fun c => c.xid == t.own with
  | some c =>
    let stay := (s.eqQ t.eq).filter fun x => x.xid != t.own
    if c.stomp && c.rx == 0 then discardCopy c (setQueue t.eq stay s)
    else if flushing s (t.eq / 8) c.pkt then flushCopy c (setQueue t.eq stay s)
    else s
  | none => s

/-- Moves the next cell of the first transfer of link (d, e) whose source cell is closed; that transfer, and those skipped, go
to the end of the rotation (R193, R195). An error in the cell ends the copy stomped (R175). -/
def moveCell (d e : Nat) (s : State) : State :=
  let l := xfers s d e
  let ready (t : Transfer) : Bool := match t.src with | a :: _ => (s.cell a).closed | [] => true
  let skipped := l.takeWhile fun t => !ready t
  match l.dropWhile fun t => !ready t with
  | [] => s
  | t :: rest =>
    match t.src, t.dst with
    | a :: src, b :: dst =>
      let x := readCell a s
      let s := closeCells t.own [b] x.2
      let s := if x.1 then mapCopies (fun c => if c.xid = t.own then { c with stomp := true } else c) s else s
      let s := readDone a s
      let s := if b = t.copy.head then tryCut (t.eq / 8) (t.eq % 8) s else s
      if src.isEmpty then endXfer t (setXfers d e (rest ++ skipped) s)
      else setXfers d e (rest ++ skipped ++ [{ t with src := src, dst := dst }]) s
    | _, _ => endXfer t (setXfers d e (rest ++ skipped) s)

/-- `n` cell positions of a link. -/
def moveCells (d e : Nat) : Nat → State → State
  | 0, s => s
  | n + 1, s => moveCells d e n (moveCell d e s)

/-- One slot of link (d, e): half a cell for each of its up to 32 working channels, spares included (R24, R25); the half cell
that an odd count leaves goes to the next slot. -/
def slotMove (d e : Nat) (s : State) : State :=
  let k := d * 4 + e
  let halves := min 32 (34 - s.fld (F.FLT_D2D_STAT_failed k)) + Sparse.get (fun _ => 0) s.core.half k
  moveCells d e (halves / 2) { s with core := { s.core with half := Sparse.put (fun _ => 0) s.core.half k (halves % 2) } }

/-- The keys of the crossbar queues toward die `e` whose head requests and passes its context shaper, but is not admitted. -/
def refusedHeads (s : State) (e : Nat) : List Nat :=
  (s.core.xq.map (·.1)).filter fun k =>
    portDie (k % 4096 / 8) == e && requests s (k / 4096) (k % 4096) &&
      match s.xqQ k with
      | c :: _ => ctxAllows s c && (admitTo s e [c]).isNone
      | [] => false

/-- Crossbar queues in Q6 or Q7 whose head is not admitted lose it (R188, R198, R202). -/
def dropUnadmitted (e : Nat) (s : State) : State :=
  forEach ((refusedHeads s e).filter fun k => 6 ≤ k % 8) (fun k s =>
    match s.xqQ k with
    | c :: rest => discardUnadmitted { copies := [c] } (s.setXq k rest)
    | [] => s) s

/-- Q0 to Q5 heads that a slice does not admit push out its Q6 and Q7 packets, one a cycle (R197). -/
def pushForCrossing (e : Nat) (s : State) : State :=
  if (refusedHeads s e).any fun k => k % 8 ≤ 5 then pushOut e s else s

/-- Heads that their context shaper holds at the crossing count once (R233). -/
def countCrossing (s : State) : State :=
  forEach (s.core.xq.map (·.1)) (fun k s =>
    match s.xqQ k with
    | c :: rest =>
      if requests s (k / 4096) (k % 4096) && !ctxAllows s c && !c.waited then
        (countHeld c.pkt s).setXq k ({ c with waited := true } :: rest)
      else s
    | [] => s) s

/-- CROSSBAR_SLOT: one slot of the central scheduler on every link (R193 to R195). -/
def crossbarSlot (s : State) : State :=
  let s := countCrossing s
  let s := forEach (upTo 4) (fun e s => pushForCrossing e (dropUnadmitted e s)) s
  let s := forEach (upTo 4) (fun e s =>
    let gs := grants s e
    forEach ((upTo 4).filter (· != e)) (fun d s => acceptStage gs d e s) s) s
  forEach (upTo 4) (fun d s => forEach ((upTo 4).filter (· != d)) (fun e s => slotMove d e s) s) s

end Sys2Proof.Machine
end

