-- ==== Sys2Proof/Machine/Send.lean ====
section
/-! DEFINITION. Packets that the switch sends, the outstanding-request table (R51 to R53, R63 to R68), completions at
their leaf (R66, R257), held packets (R168). -/

namespace Sys2Proof.Machine

/-! ### Streams and targets -/

/-- The switch a data packet is bound for, as row and column: of the switch its dst names, or of its endpoint or window. -/
def dstSwitch (p : Packet) : Nat × Nat := (idRow (dstEpOf p), idCol (dstEpOf p))

/-- The packet is bound for this switch. -/
def forHere (s : State) (p : Packet) : Bool := dstSwitch p == (ownRow s, ownCol s)

/-- The stream of a data packet (R156). -/
def streamOf (p : Packet) : Stream :=
  let q := p.queue.toNat
  if isGroupPkt p then ⟨p.src.toNat, q, 2, groupCtx p.address * 16384 + groupId p.address⟩
  else if p.dsw || isWindowPkt p then ⟨p.src.toNat, q, 1, idRow (dstEpOf p) * 32 + idCol (dstEpOf p)⟩
  else ⟨p.src.toNat, q, 0, dstEpOf p⟩

/-- An ordered packet (R157). -/
def isOrdered (p : Packet) : Bool := p.ord || p.queue.toNat ≤ 1

/-- The same of any packet: control packets travel in Q0 and Q1. -/
def orderedPkt : Pkt → Bool
  | .data p => isOrdered p
  | .ctl _ => true

/-! ### Sending from the switch -/

/-- Where a packet with stream hash `h` for the switch at (r, c) goes from port `ig` (R155 to R160, R165, R168); none for want of
a route. `src` is the endpoint port of a packet at its source leaf that may take a non-minimal hop. -/
def farTarget (ig : Nat) (ordered : Bool) (src : Option Nat) (pk : Pkt) (h r c : Nat) (s : State) : Option Target × State :=
  match routeTo h (qOf pk) ordered src r c s with
  | (none, s) => (none, s)
  | (some o, s) =>
    let pk := match pk with | .data p => if o.nm then .data { p with nm := true } else pk | .ctl _ => pk
    (some { port := o.port, q := qOf pk, hops := o.hops, hdr := 0, pkt := pk, vers := captured s o.keys,
            hold := if ordered then heldBy s ig (qOf pk) h r c else none, route := (h, r, c) }, s)

/-- Sends a packet of this switch toward the switch at (r, c), or counts that it has no route (R155). -/
def sendToward (ordered : Bool) (pk : Pkt) (h r c : Nat) (s : State) : State :=
  match farTarget 0x3FF ordered none pk h r c s with
  | (none, s) => s.bump F.RTE_UNREACH_CNT_count
  | (some t, s) => sendOwn [t] s

/-- A packet of the switch for another switch: routed, held, or discarded and counted for want of a route (R155). -/
def sendFar (p : Packet) (s : State) : State :=
  let rc := dstSwitch p
  sendToward (isOrdered p) (.data p) (streamHash s (streamOf p)) rc.1 rc.2 s

/-! ### The outstanding-request table -/

/-- The outstanding-request entry of tag `t` of a port (R53). -/
def ortIndex (s : State) (port t : Nat) : Nat := s.fld (F.PRT_TAG_CFG_ort_base port) + t

/-- Every generation of an entry is stale (R68). -/
def allStale (e : OrtEntry) : Bool := (upTo 16).all fun g => e.stale.any (·.1 == g)

/-- The generation of the next allocation: the next one that is not stale (R52, R68). -/
def nextGen (e : OrtEntry) : Nat :=
  (((upTo 16).map fun i => (e.gen + 1 + i) % 16).find? fun g => !e.stale.any (·.1 == g)).getD ((e.gen + 1) % 16)

/-- The source of a completion is the one its entry recorded (R66). -/
def fromDst (e : OrtEntry) (p : Packet) : Bool :=
  if p.status = .unreach then p.ssw
  else if e.dstSw then
    p.ssw && p.src == switchName (idRow e.dst) (idCol e.dst)
  else !p.ssw && p.src.toNat == e.dst

/-- A late completion is discarded and counted for its entry's context (R66); without an entry, or with one never
allocated, it is counted for the completion's own context (the spec names none: log entry 38). -/
def lateCpl (e : Option OrtEntry) (p : Packet) (s : State) : State :=
  s.bump (F.CTX_LATE_CPL_count (match e with
    | some e => if e = {} then p.ctx.toNat else e.ctx
    | none => p.ctx.toNat))

/-- A completion with dsw = 0 for an endpoint of this switch meets its entry (R66): the port to deliver it on and the
packet delivered (R98), or nothing when it is late or has no port. -/
def matchCpl (p : Packet) (s : State) : Option (Nat × Packet) × State :=
  match localPort s (idLocal (dstEpOf p)) with
  | none => (none, s.bump F.RTE_UNREACH_CNT_count)
  | some port =>
    let tag := p.ftag.toNat % 4096
    let i := ortIndex s port tag
    let e := s.ortE i
    let mine := decide (tag ≤ s.fld (F.PRT_TAG_CFG_tags_m1 port))
    if mine && e.busy && e.gen == p.ftag.toNat / 4096 && fromDst e p then
      (some (port, { p with ftag := BitVec.ofNat 16 tag }), s.setOrt i { e with busy := false })
    else (none, lateCpl (if mine then some e else none) p s)

/-- A packet of this switch for its own local port `k` goes out on `port`, which RTE_LOCAL gave (R161, R165, R168). -/
def sendLocal (k port : Nat) (pk : Pkt) (s : State) : State :=
  sendOwn [localTarget s 0x3FF (orderedPkt pk) k port 0 pk] s

/-- Sends a completion that the switch produced (R97). -/
def sendCpl (p : Packet) (s : State) : State :=
  if forHere s p then
    if p.dsw then { s with fab := { s.fab with self := s.fab.self ++ [p] } }
    else match matchCpl p s with
      | (some (port, q), s) => sendLocal (idLocal (dstEpOf p)) port (.data q) s
      | (none, s) => s
  else sendFar p s

/-- Sends a request of the switch, INV or RCL, to an endpoint or a switch (R547). -/
def sendReq (p : Packet) (s : State) : State :=
  if forHere s p then
    if p.dsw then { s with fab := { s.fab with self := s.fab.self ++ [p] } }
    else match localPort s (idLocal p.dst.toNat) with
      | some port => sendLocal (idLocal p.dst.toNat) port (.data p) s
      | none => s.bump F.RTE_UNREACH_CNT_count
  else sendFar p s

/-- Sends the return-to-sender NACKs that are due (R200). -/
def sendNacks (s : State) : State :=
  let l := s.core.nacks
  forEach l sendCpl { s with core := { s.core with nacks := [] } }

/-- A rejection at the leaf (R55): a completion with the operation's own tag on its ingress port. The operation's cells and
credits are given up when the completion is admitted (R550). -/
def rejectCpl (port : Nat) (p : Packet) (st : Status) (cells : List Nat) (s : State) : State :=
  originateFor port [] (some (port, p.queue.toNat, nLuOf (.data p), cells))
    (.data { switchCpl s p st none with ftag := BitVec.ofNat 16 (p.ftag.toNat % 4096) }) s

/-- The completion that a leaf sends for an outstanding entry itself: TIMEOUT, or ACCESS of a context reset. -/
def entryCpl (s : State) (e : OrtEntry) (st : Status) : Packet :=
  { blankPacket with
    queue := BitVec.ofNat 3 e.queue, ord := e.ord, status := st, ssw := true, src := ownName s,
    ftag := BitVec.ofNat 16 e.tag, dst := BitVec.ofNat 15 (portEp s e.port), ctx := BitVec.ofNat 12 e.ctx }

/-- Ends an outstanding entry: its completion goes to the requester, the entry enters quarantine for 4 × T and its
generation stays stale for 128 × T (R65, R67, R68, R462). -/
def endEntry (i : Nat) (st : Status) (s : State) : State :=
  let e := s.ortE i
  let t := tmoNs s e.ctx
  let s := s.setOrt i { e with busy := false, quarUntil := some (s.now + 4 * t),
                               stale := (e.stale.filter (·.1 != e.gen)) ++ [(e.gen, s.now + 128 * t)] }
  originate e.port (.data (entryCpl s e st)) s

/-- TIMEOUT: an entry's timer has passed T (R63, R65). In the cycle in which it reaches T a completion comes first, so the
report is made from the next cycle on, within the 1 µs that R63 leaves (R64). -/
def ortTimeout (i : Nat) (s : State) : State :=
  let e := s.ortE i
  if e.busy && e.deadline < s.now then endEntry i .timeout (s.bump (F.CTX_TIMEOUT_CNT_count e.ctx)) else s

/-- QUARANTINE_END: the entry becomes free 4 × T after the report (R65, R68). -/
def quarantineDone (i : Nat) (s : State) : State :=
  let e := s.ortE i
  match e.quarUntil with
  | some t => if t ≤ s.now then s.setOrt i { e with quarUntil := none } else s
  | none => s

/-- STALE_EXPIRE: a stale mark ends 128 × T after the report (R68). -/
def staleDone (i g : Nat) (s : State) : State :=
  let e := s.ortE i
  s.setOrt i { e with stale := e.stale.filter fun x => !(x.1 == g && x.2 ≤ s.now) }

/-! ### Copies that wait too long (R69) -/

/-- Operations of Table 02-4 other than ACC. -/
def isTimedOp : Op → Bool
  | .acc | .reserved _ => false
  | _ => true

/-- A copy has waited longer than 8 × T of its context or 2 s (R69). -/
def waitedOut (s : State) (c : Copy) : Bool :=
  match c.pkt with
  | .data p => isTimedOp p.op && decide (min (8 * tmoNs s p.ctx.toNat) 2000000000 < (s.tbase + 2 ^ 32 - c.stamp) % 2 ^ 32)
  | .ctl _ => false

/-- The copies for egress queue `k` that wait in this switch: in the queue, in the crossbar queues toward it in die order, for
admission, and held on a route change. -/
def waitingFor (s : State) (k : Nat) : List Copy :=
  s.eqQ k ++ (upTo 4).flatMap (fun d => s.xqQ (d * 4096 + k))
    ++ s.core.wait.flatMap (fun x => x.2.flatMap fun w => w.copies.filter fun c => c.queue == k)
    ++ s.rte.held.filterMap fun h => h.copy.filter fun c => c.queue == k

/-- WAIT_DISCARD: copy `i` of those that wait for an egress queue has waited too long, counted from its stamp; it is discarded,
counted and answered as R69 and R200 say. A copy that crosses from another die finishes its crossing first (R195). -/
def waitDiscard (port q i : Nat) (s : State) : State :=
  match (waitingFor s (port * 8 + q))[i]? with
  | some c =>
    if waitedOut s c && !crossing s c then
      let same (x : Copy) : Bool := x.head == c.head && x.queue == c.queue && x.desc == c.desc
      let s := nackFor port c.pkt (s.bump (F.PRT_FLUSH_CNT_count port))
      removeHeld (fun h => h.copy.any same) (dropQueued same (dropWaiting same s))
    else s
  | none => s

/-! ### Held packets -/

/-- A packet that a route change held goes on, under the versions that its lookup captured (R165, R168). -/
def goOn (h : Held) (s : State) : State :=
  match h.copy with
  | some c => placeCopies (c.head / 2 ^ 18) (if h.port < 512 then h.port * 8 + h.target.q else originKey h.target.port h.target.q) none [c] s
  | none => placeOwn [h.target] s

/-- ORD_HOLD_RELEASE: once the old version has retired and ord_settle has passed, the packets that the entry holds go on in
order of arrival (R168). -/
def releaseHeld (k : Nat) (s : State) : State :=
  if holding s k then s
  else
    let go := s.rte.held.filter fun h => h.entry == k
    let s := { s with rte := { s.rte with held := s.rte.held.filter fun h => h.entry != k } }
    let s := s.onRver k fun r => { r with old := none, retiredAt := none }
    showSettled k (forEach go goOn s)

end Sys2Proof.Machine
end

