-- ==== Sys2Proof/Machine/Shuttles.lean ====
section
/-! DEFINITION. Shuttles (file 09): the spare map, power states and wakes (R337 to R339), descriptor queues (R316 to
R319), ream shares (R310, R312), sheets. -/

namespace Sys2Proof.Machine

/-- SHT_STATUS.pstate: 0 RUN, 1 PARK, 2 OFF, 3 WAKING. -/
def shtP (s : State) (p : Nat) : Nat := s.fld (F.SHT_STATUS_pstate p)
/-- Sets it. -/
def setShtP (p n : Nat) (s : State) : State := s.setFld (F.SHT_STATUS_pstate p) n
/-- SHT_STATUS.role: 0 SPARE, 1 ACTIVE, 2 DRAINING, 3 FAILED. -/
def shtRole (s : State) (p : Nat) : Nat := s.fld (F.SHT_STATUS_role p)
/-- Sets it. -/
def setRole (p n : Nat) (s : State) : State := s.setFld (F.SHT_STATUS_role p) n

/-- A weave die whose logic runs: neither in die reset nor in die standby (R27, R412, R469). -/
def dieRuns (s : State) (d : Nat) : Bool :=
  !inReset s d && !s.flag (F.PWR_DIE_STATUS_standby d)

/-- The physical shuttle of logical shuttle L, by die × 136 + number (R309); none when unmapped (R341) or its die does
not run (R469). -/
def physOf (s : State) (L : Nat) : Option Nat :=
  if s.flag (F.GLB_SHT_MAP_valid L) && dieRuns s (L / 128) then some (L / 128 * 136 + s.fld (F.GLB_SHT_MAP_phys L))
  else none

/-- The global sheet number of a sheet on a physical shuttle. -/
def sheetNo (p sheet : Nat) : Nat := p * 256 + sheet
/-- The memory key of a byte of a sheet. -/
def sheetKey (p sheet b : Nat) : Nat := sheetNo p sheet * 4096 + b

/-! ### Scratchpad words (R315) -/

/-- The erroneous words of the scratchpads that hold one of `n` bytes from `a`. -/
def errWords (s : State) (a n : Nat) : List (Nat × Option Bool) :=
  s.ecc.words.filter fun w => n != 0 && decide (a / 8 ≤ w.1 ∧ w.1 ≤ (a + n - 1) / 8)

/-- A shuttle reads `n` bytes of its scratchpad from key `a`: each corrected error is counted and raises ECC_CE; an
uncorrectable one raises SHT_ECC_UE, and the answer is true (R315, R446). -/
def readSheets (a n : Nat) (s : State) : Bool × State :=
  let p := a / (256 * 4096)
  let hit := errWords s a n
  let s := forEach (hit.filter fun w => w.2 == some false) (fun _ s =>
    raise Cause.eccCe (locDie (p / 136) 0) (s.bump (F.SHT_ECC_CORR_CNT_count p))) s
  if hit.any fun w => w.2 == some true then (true, raise Cause.shtEccUe (locSht p) s) else (false, s)

/-- Words written whole by `n` bytes from `a` hold no error (R446). -/
def clearWords (a n : Nat) (s : State) : State :=
  { s with ecc := { s.ecc with words := s.ecc.words.filter fun w => !decide (a ≤ 8 * w.1 ∧ 8 * w.1 + 8 ≤ a + n) } }

/-- The parts of `n` bytes from `a` that lie in a 64-bit word not written whole: a write of them reads that word. -/
def partWords (a n : Nat) : List (Nat × Nat) :=
  let z := a + n
  (if a % 8 ≠ 0 ∨ n < 8 then [(a, 1)] else []) ++ if z % 8 ≠ 0 ∧ a / 8 ≠ z / 8 then [(z - 1, 1)] else []

/-- A shuttle reads what a write of `n` bytes from `a` keeps of its words (R315); the answer is true when it cannot. -/
def readEdges (a n : Nat) (s : State) : Bool × State :=
  (partWords a n).foldl (fun x w => let y := readSheets w.1 w.2 x.2; (x.1 || y.1, y.2)) (false, s)

/-- Sets bytes [a, b) of the memory of the sheets to 0. -/
def zeroRange (a b : Nat) (s : State) : State :=
  clearWords a (b - a) { s with mem := { s.mem with sheets := eraseCells (fun x => a ≤ x && x < b) s.mem.sheets } }

/-- Copies `n` sheets between physical shuttles. A word that cannot be corrected is one at its new place too. -/
def copySheets (p i q j n : Nat) (s : State) : State :=
  let a := sheetKey p i 0
  let b := sheetKey q j 0
  let moved := s.mem.sheets.filter fun c => a ≤ c.1 && c.1 < a + n * 4096
  let bad := (errWords s a (n * 4096)).filter fun w => w.2 == some true
  let s := zeroRange b (b + n * 4096) s
  let s := forEach moved (fun c s => s.setSheetByte (b + (c.1 - a)) c.2) s
  forEach bad (fun w s => s.setWordErr (b / 8 + (w.1 - a / 8)) w.2) s

/-! ### Wakes -/

/-- Work arrives at a shuttle, software wakes it, or a migration names it (R338): PARK and OFF become WAKING and are
counted; a wake from OFF waits for a power-up place (R339). A FAILED shuttle stays off (R459), and so does one on a die that does not
run (R438). -/
def wakeSht (p : Nat) (s : State) : State :=
  let st := shtP s p
  if shtRole s p = 3 || !dieRuns s (p / 136) then s
  else if st = 1 then
    let s := s.onSht p fun r => { r with fromOff := false, placed := true, wakeAt := s.now }
    (setShtP p 3 s).bump (F.SHT_WAKE_PARK_CNT_count p)
  else if st = 2 then
    let s := s.onSht p fun r => { r with fromOff := true, placed := false, wakeAt := s.now }
    (setShtP p 3 s).bump (F.SHT_WAKE_OFF_CNT_count p)
  else s.onSht p fun r => { r with idleAt := s.now }

/-! ### Descriptors (Table 09-3) -/

/-- dop. -/
def dDop (d : Desc) : Nat := bits d.w0.toNat 27 5
/-- src. -/
def dSrc (d : Desc) : Nat := bits d.w0.toNat 25 2
/-- ctx. -/
def dCtx (d : Desc) : Nat := bits d.w0.toNat 12 12
/-- trk. -/
def dTrk (d : Desc) : Nat := bits d.w0.toNat 0 12

/-- Descriptors that start now, in queue order: none whose trk matches one in progress or one ahead, and with those in progress
at most four (R318); an emission that waits for DRAIN neither starts nor holds back others (R345). -/
def startable (l : List Desc) : List Nat :=
  let busy := l.filter fun d => d.startAt.isSome
  ((upTo l.length).filter fun i =>
    match l[i]? with
    | some d =>
      !d.hold && d.startAt.isNone && busy.all (fun e => dTrk e != dTrk d)
        && (l.take i).all fun e => e.hold || dTrk e != dTrk d
    | none => false).take (4 - busy.length)

/-- Descriptors of a running shuttle that may start are in progress from now on; their command timers run (R458). In a power-down no
further one starts (Table 12-7, step 2). -/
def startDescs (p : Nat) (s : State) : State :=
  if shtP s p = 0 && s.fld F.PWR_STATUS_seq != 3 then
    let idx := startable ((s.sht p).dq.take 64)
    s.onSht p fun r => { r with
      dq := r.dq.zipIdx.map fun x =>
        if idx.contains x.2 then { x.1 with startAt := some s.now } else x.1 }
  else s

/-- The shuttle takes the descriptors that stand in its 64 entries: their ingress credits return (R185, R318). -/
def takeCredits (p : Nat) (s : State) : State :=
  let mine := (s.sht p).dq.take 64
  let s := s.onSht p fun r => { r with dq := r.dq.zipIdx.map fun x => if x.2 < 64 then { x.1 with credit := none } else x.1 }
  forEach mine (fun d s => match d.credit with
    | some (port, q, n) => if port < 512 then giveCredits port q n s else s
    | none => s) s

/-- Free software entries (R318). -/
def softFree (s : State) (p : Nat) : Nat := 8 - ((s.sht p).dq.filter fun d => dSrc d == 1).length

/-- A descriptor is queued at a shuttle; beyond 64 entries it waits in the network-on-chip (R318). -/
def pushDesc (p : Nat) (d : Desc) (s : State) : State :=
  let s := s.onSht p fun r => { r with dq := r.dq ++ [d] }
  let s := takeCredits p (wakeSht p s)
  (startDescs p s).setFld (F.SHT_DQ_STATUS_free p) (softFree s p)

/-- A descriptor leaves its queue: the next ones are taken and may start. -/
def dropDesc (p i : Nat) (s : State) : State :=
  let s := s.onSht p fun r => { r with dq := r.dq.take i ++ r.dq.drop (i + 1), idleAt := s.now }
  let s := takeCredits p s
  (startDescs p s).setFld (F.SHT_DQ_STATUS_free p) (softFree s p)

/-- The first descriptor in progress with a dop among `dops`: its place in the queue. -/
def inProgress (s : State) (p : Nat) (dops : List Nat) (ok : Desc → Bool) : Option (Nat × Desc) :=
  if shtP s p = 0 then
    ((s.sht p).dq.zipIdx.find? fun x => x.1.startAt.isSome && dops.contains (dDop x.1) && ok x.1).map fun x => (x.2, x.1)
  else none

/-- A software descriptor ends with a status (SHT_DQ_STATUS): 0 OK, 1 QFULL, 2 ECC, 3 BAD_DOP. -/
def softDone (p st : Nat) (s : State) : State :=
  let s := s.setFld (F.SHT_DQ_STATUS_last_status p) st
  s.setFld (F.SHT_DQ_STATUS_done p) ((s.fld (F.SHT_DQ_STATUS_done p) + 1) % 65536)

/-- A write of push (R319): the staged words are queued with src = 1, or the push is ignored with QFULL. -/
def pushSoft (p : Nat) (s : State) : State :=
  if softFree s p = 0 then s.setFld (F.SHT_DQ_STATUS_last_status p) 1
  else
    let w0 := putBits (s.rd (R.SHT_DQ_W p 0)) 25 2 1
    pushDesc p { w0 := w0, w1 := s.rd (R.SHT_DQ_W p 1), w2 := s.rd (R.SHT_DQ_W p 2), w3 := s.rd (R.SHT_DQ_W p 3) } s

/-- UNLOAD: a write of unload clears the loaded context (R336). -/
def unloadSht (p : Nat) (s : State) : State := (s.setFlag (F.SHT_STATUS_ctx_vld p) false).setFld (F.SHT_STATUS_ctx p) 0

/-! ### Ream shares (R310, R312) -/

/-- The first sheet of a context's share. -/
def shareBase (s : State) (c : Nat) : Nat := 32 + ((upTo c).map fun x => s.fld (F.CTX_REAM_ream_sh x)).sum

/-- The free sheets' record of context `c` on logical shuttle `L`. -/
def shareOf (s : State) (L c : Nat) : Share := Sparse.get (fun _ => {}) s.grp.share (L * 4096 + c)

/-- Sets it. -/
def setShare (L c : Nat) (v : Share) (s : State) : State :=
  { s with grp := { s.grp with share := Sparse.put (fun _ => {}) s.grp.share (L * 4096 + c) v } }

/-- Takes `n` sheets from a share at once, or none (R261): the pushed back first, then the initial stack, lowest first. -/
def takeSheets (L c n : Nat) (s : State) : Option (List Nat × State) :=
  let sh := shareOf s L c
  let size := s.fld (F.CTX_REAM_ream_sh c)
  if n ≤ sh.pushed.length + (size - sh.popped) then
    let a := sh.pushed.take n
    let k := n - a.length
    let base := shareBase s c + sh.popped
    some (a ++ (upTo k).map (base + ·), setShare L c { popped := sh.popped + k, pushed := sh.pushed.drop n } s)
  else none

/-- Pushes sheets back, in allocation order. -/
def returnSheets (L c : Nat) (l : List Nat) (s : State) : State :=
  if l.isEmpty then s
  else
    let sh := shareOf s L c
    setShare L c { sh with pushed := l.reverse ++ sh.pushed } s

/-! ### The home table (R258, R259) -/

/-- One step of the weighted rotation: adds the weights, takes the largest, the lowest on ties. -/
def homeStep (w : List Int) (total : Int) (cur : List Int) : Nat × List Int :=
  let cur := List.zipWith (· + ·) cur w
  let best := cur.zipIdx.foldl (fun (b : Nat × Int) x => if b.2 < x.1 then (x.2, x.1) else b) (0, cur.headD 0)
  (best.1, cur.set best.1 (best.2 - total))

/-- `n` entries of the home table. -/
def homeEntries (w : List Int) (total : Int) : Nat → List Int → List Nat
  | 0, _ => []
  | n + 1, cur =>
    let r := homeStep w total cur
    r.1 :: homeEntries w total n r.2

/-- The home table built from the weights; empty when every weight is 0 (R259). -/
def buildHome (s : State) : List Nat :=
  let w := (upTo 512).map fun L => Int.ofNat (s.fld (F.GLB_SHT_MAP_w L))
  let total := w.sum
  if total = 0 then [] else homeEntries w total 4096 (List.replicate 512 0)

/-- HOME_TAB_REBUILD: the rebuild that a weight change started finishes. -/
def homeRebuild (s : State) : State :=
  if s.grp.tabDue then { s with grp := { s.grp with homeTab := buildHome s, tabDue := false } } else s

/-- Sets the weight of L; a change starts the rebuild (R259, R350). -/
def setWeight (L w : Nat) (s : State) : State :=
  if s.fld (F.GLB_SHT_MAP_w L) = w then s
  else
    let s := s.setFld (F.GLB_SHT_MAP_w L) w
    { s with grp := { s.grp with tabDue := true } }

/-- The weight of L outside a reweighting (R350): 0 unmapped; wmax with auto = 0, before the die's first reweighting and while
rw_int = 0; otherwise what the last reweighting set. -/
def refreshWeight (L : Nat) (s : State) : State :=
  if !s.flag (F.GLB_SHT_MAP_valid L) then setWeight L 0 s
  else if !s.flag (F.GLB_SHT_MAP_auto L) || !s.shts.rwDone.getD (L / 128) false || s.fld F.GLB_SHT_RW_CFG_rw_int == 0 then
    setWeight L (s.fld (F.GLB_SHT_MAP_wmax L)) s
  else s

/-- Every weight after a change of rw_int; with 0 written no die counts as reweighted any more (R350, log 93). -/
def refreshWeights (s : State) : State :=
  let s := if s.fld F.GLB_SHT_RW_CFG_rw_int = 0 then
      { s with shts := { s.shts with rwDone := [false, false, false, false] } }
    else s
  forEach (upTo 512) refreshWeight s

/-! ### Power states -/

/-- Shuttles of a die that hold a power-up place (R339). -/
def placesUsed (s : State) (d : Nat) : Nat :=
  ((upTo 136).filter fun i => shtP s (d * 136 + i) == 3 && (s.sht (d * 136 + i)).fromOff && (s.sht (d * 136 + i)).placed).length

/-- POWER_UP_PLACE: the lowest waiting wake from OFF obtains one of the die's eight places (R339). -/
def powerUpPlace (d : Nat) (s : State) : State :=
  if placesUsed s d < 8 then
    match (upTo 136).find? fun i => shtP s (d * 136 + i) == 3 && (s.sht (d * 136 + i)).fromOff && !(s.sht (d * 136 + i)).placed with
    | some i => s.onSht (d * 136 + i) fun r => { r with placed := true, wakeAt := s.now }
    | none => s
  else s

/-- PARK: a running shuttle with park_en whose queue is empty and window port idle for park_idle × 32 ns (R337). -/
def parkSht (p : Nat) (s : State) : State :=
  let r := s.sht p
  if shtP s p = 0 && s.flag (F.SHT_CTL_park_en p) && r.dq.isEmpty && r.stub.isEmpty
      && r.idleAt + max 1 (s.fld (F.SHT_CTL_park_idle p)) * 32 ≤ s.now then
    setShtP p 1 (s.onSht p fun r => { r with idleAt := s.now })
  else s

/-- OFF: a parked shuttle with off_en after off_idle µs (R337). -/
def offSht (p : Nat) (s : State) : State :=
  if shtP s p = 1 && s.flag (F.SHT_CTL_off_en p) && (s.sht p).idleAt + s.fld (F.SHT_CTL_off_idle p) * 1000 ≤ s.now then
    setShtP p 2 s
  else s

/-! ### Software descriptors -/

/-- FILL: writes the pattern to every word of the sheets (Table 09-4). -/
def fillSht (p : Nat) (s : State) : State :=
  match inProgress s p [0x10] (fun _ => true) with
  | none => s
  | some (i, d) =>
    let sheet := bits d.w2.toNat 16 8
    let n := min (bits d.w2.toNat 0 8 + 1) (256 - sheet)
    let a := sheetKey p sheet 0
    let s := if d.w3 = 0 then zeroRange a (a + n * 4096) s
      else writeBytes State.setSheetByte a ((upTo (n * 1024)).flatMap fun _ => wordBytes d.w3) (clearWords a (n * 4096) s)
    dropDesc p i (softDone p 0 s)

/-- COPY: copies sheets to physical shuttle dst of the same die (Table 09-4); a copy toward no shuttle of the die, or
past the last sheet, takes only what exists. A word that cannot be corrected ends it with ECC (R446). -/
def copySht (p : Nat) (s : State) : State :=
  match inProgress s p [0x11] (fun _ => true) with
  | none => s
  | some (i, d) =>
    let sheet := bits d.w2.toNat 16 8
    let dst := bits d.w2.toNat 8 8
    let dstSheet := bits d.w3.toNat 0 8
    let n := min (bits d.w2.toNat 0 8 + 1) (min (256 - sheet) (256 - dstSheet))
    let x := readSheets (sheetKey p sheet 0) (n * 4096) s
    if x.1 then dropDesc p i (softDone p 2 x.2)
    else
      let s := if dst < 136 then copySheets p sheet (p / 136 * 136 + dst) dstSheet n x.2 else x.2
      dropDesc p i (softDone p 0 s)

/-- A software descriptor in progress whose dop is reserved, or is not software's, ends with BAD_DOP (R317). -/
def badDops (p : Nat) (s : State) : State :=
  match inProgress s p ((upTo 32).filter fun d => !([0x10, 0x11].contains d)) (fun d => dSrc d == 1) with
  | some (i, _) => dropDesc p i (softDone p 3 s)
  | none => s

/-! ### Reweighting (R350, R351) -/

/-- Rate in addends per ns × 64 (SHT_RATE). -/
def rate64 (addends busy : Nat) : Nat := if busy = 0 then 0 else min 65535 (addends * 64 / busy)

/-- The weight that a measured rate gives: min(wmax, max(1, ceil(wmax × rate / 51.2))). -/
def newWeight (wmax addends busy : Nat) : Nat := min wmax (max 1 (ceilDiv (wmax * addends * 10) (busy * 512)))

/-- REWEIGHT: at the end of an interval a die reweights its logical shuttles; `busy` lists the busy time in ns of its
physical shuttles. -/
def reweight (d : Nat) (busy : List Nat) (s : State) : State :=
  let iv := s.fld F.GLB_SHT_RW_CFG_rw_int * 1000
  if iv = 0 ∨ s.now < nth s.shts.rwAt d + iv then s
  else
    let s := { s with shts := { s.shts with
      rwAt := setAt s.shts.rwAt d s.now, rwDone := setAt s.shts.rwDone d true } }
    let s := forEach (upTo 128) (fun i s =>
      let L := d * 128 + i
      match physOf s L with
      | none => s
      | some p =>
        let b := nth busy (p % 136)
        let s := if s.flag (F.GLB_SHT_MAP_auto L) && iv ≤ b * 100 && b ≠ 0 then
            setWeight L (newWeight (s.fld (F.GLB_SHT_MAP_wmax L)) (s.sht p).addends b) s
          else s
        s) s
    forEach (upTo 136) (fun i s =>
      let p := d * 136 + i
      let s := s.setFld (F.SHT_RATE_rate p) (rate64 (s.sht p).addends (nth busy i))
      s.onSht p fun r => { r with addends := 0 }) s

end Sys2Proof.Machine
end

