-- ==== Sys2Proof/Machine/Window.lean ====
section
/-! DEFINITION. The switch window and its coherent sub-window (file 02): operations on window bytes (R42, R70 to R73),
the directory (R74 to R85, Tables 02-11 and 02-12), the fan-out of INV (R548). -/

namespace Sys2Proof.Machine

/-! ### Window bytes -/

/-- Bytes of the switch window; a win_size above 32, for which the spec states nothing, acts as 32 (log entry 85). -/
def winSize (s : State) : Nat := min 32 (s.fld F.GLB_WIN_CFG_win_size) * 2097152
/-- Bytes of the coherent sub-window; a coh_size above 64 or win_size × 32, for which the spec states nothing, acts as the
largest that its range allows, so that no line passes 65,535 (R74; log entry 85). -/
def cohSize (s : State) : Nat :=
  min (min 64 (32 * min 32 (s.fld F.GLB_WIN_CFG_win_size))) (s.fld F.GLB_WIN_CFG_coh_size) * 65536
/-- The home shuttle of a window offset (Table 02-10). -/
def winHome (off : Nat) : Nat := bits off 12 9
/-- The memory key of a window offset on physical shuttle `p` (Tables 02-10 and 09-2). -/
def winKey (p off : Nat) : Nat := sheetKey p (bits off 21 5) (bits off 0 12)

/-- `n` bytes of the window from `off`, on physical shuttle `p`. -/
def winRead (s : State) (p off n : Nat) : List Byte := readBytes s.sheetByte (winKey p off) n
/-- Writes bytes of the window; the words that hold them are written anew (R446). -/
def winWrite (p off : Nat) (l : List Byte) (s : State) : State :=
  let a := winKey p off
  clearWords (a / 8 * 8) (ceilDiv (a + l.length) 8 * 8 - a / 8 * 8) (writeBytes State.setSheetByte a l s)

/-- The bytes that an operation names. -/
def opSize (p : Packet) : Nat :=
  match p.op with
  | .rdS | .rdM | .upg | .wb => 64
  | _ => pktLen p

/-- Performs a LOAD, STORE or atomic on window bytes (R42, R43): the completion's data, and the state after. -/
def performWin (ph : Nat) (p : Packet) (s : State) : Option (List Byte) × State :=
  let off := windowOff p.address
  let n := pktLen p
  let old := winRead s ph off n
  match p.op with
  | .load => (some old, s)
  | .store => (none, winWrite ph off (p.payload.take n) s)
  | .fadd => (some old, winWrite ph off (leBytes n (ofLe old + ofLe (p.payload.take n))) s)
  | .swap => (some old, winWrite ph off (p.payload.take n) s)
  | .cas =>
    (some old, if old = p.payload.take n then winWrite ph off ((p.payload.drop n).take n) s else s)
  | _ => (none, s)

/-- A window operation at the scratchpad's code (R315, R446): a read of a word that cannot be corrected answers POISON; so do an
atomic, and a write of part of such a word, which R446 does not name: neither writes anything (DESIGN CHOICE, log 94). -/
def winAccess (ph : Nat) (p : Packet) (s : State) : Status × Option (List Byte) × State :=
  let a := winKey ph (windowOff p.address)
  let x := if p.op = .store then readEdges a (pktLen p) s else readSheets a (pktLen p) s
  if x.1 then (.poison, none, x.2) else (.ok, performWin ph p x.2)

/-- The credits of a request that a shuttle has taken, or that was answered, return (R185). -/
def takeReq (r : Req) (s : State) : State :=
  if r.port < 512 then giveCredits r.port r.p.queue.toNat (nLuOf (.data r.p)) s else s

/-- Answers a request. -/
def answer (r : Req) (st : Status) (data : Option (List Byte)) (s : State) : State :=
  sendCpl (switchCpl s r.p st data) s

/-! ### The directory: records -/

/-- The line of a request. -/
def lineOf (p : Packet) : Nat := windowOff p.address / 64
/-- The home shuttle of a line. -/
def lineHome (n : Nat) : Nat := winHome (n * 64)
/-- The physical shuttle location of a line's faults. -/
def lineLoc (s : State) (n : Nat) : Word := locSht ((physOf s (lineHome n)).getD 0)

/-- Changes a directory entry. -/
def onDir (n : Nat) (f : DirEntry → DirEntry) (s : State) : State := s.setDir n (f (s.dirE n))

/-- Reads a line: POISON for one that holds an error that cannot be corrected (R446), ADDR_ERR for one whose home has been
unmapped (R341). -/
def lineRead (n : Nat) (s : State) : Status × List Byte × State :=
  match physOf s (lineHome n) with
  | some p =>
    let x := readSheets (winKey p (n * 64)) 64 s
    if x.1 then (.poison, [], x.2) else (.ok, winRead x.2 p (n * 64) 64, x.2)
  | none => (.addrErr, [], s)
/-- Writes a line. -/
def lineWrite (n : Nat) (l : List Byte) (s : State) : State :=
  match physOf s (lineHome n) with | some p => winWrite p (n * 64) (padTo 64 l) s | none => s

/-- poison := 1; the change from 0 counts (R85). -/
def poisonLine (n : Nat) (s : State) : State :=
  if (s.dirE n).poison then s else onDir n (fun d => { d with poison := true }) (s.bump F.GLB_COH_POISON_CNT_count)

/-- A protocol error (R82): one completion, counted, COH_PROTO raised. -/
def cohProto (n : Nat) (r : Req) (st : Status) (s : State) : State :=
  raiseFor Cause.cohProto (lineLoc s n) r.p.ctx.toNat ((answer r st none s).bump F.GLB_COH_PROTO_CNT_count)

/-- A stray completion is discarded and counted (R82). -/
def stray (s : State) : State := s.bump F.GLB_COH_STRAY_CNT_count

/-- The sharer record with one more sharer (R77). -/
def addSharer (e : Nat) (d : DirEntry) : DirEntry :=
  if d.coarse then
    { d with rows := d.rows ||| BitVec.ofNat 32 (2 ^ idRow e), cols := d.cols ||| BitVec.ofNat 32 (2 ^ idCol e) }
  else if d.ptrs.contains e then d
  else if d.ptrs.length < 4 then { d with ptrs := d.ptrs ++ [e] }
  else
    let l := d.ptrs ++ [e]
    { d with coarse := true, ptrs := [],
             rows := l.foldl (fun m x => m ||| BitVec.ofNat 32 (2 ^ idRow x)) 0,
             cols := l.foldl (fun m x => m ||| BitVec.ofNat 32 (2 ^ idCol x)) 0 }

/-- A directory entry with no sharers, in pointer mode (R77). -/
def noSharers (d : DirEntry) : DirEntry := { d with coarse := false, ptrs := [], rows := 0, cols := 0 }

/-- An INV or RCL of line `n` (R547): target, whether it names a switch, context, tag and offset. -/
def invPacket (s : State) (op : Op) (dst : BitVec 15) (dsw : Bool) (ctx ftag off : Nat) : Packet :=
  { blankPacket with
    op := op, ord := true, ssw := true, src := ownName s, dst := dst, dsw := dsw, lenM1 := 63,
    ctx := BitVec.ofNat 12 ctx, ftag := BitVec.ofNat 16 ftag, offset := BitVec.ofNat 32 off }

/-- The switches that a coarse record names (R78). -/
def coarseSwitches (d : DirEntry) : List (BitVec 15) :=
  (upTo 1024).filterMap fun i =>
    if d.rows.getLsbD (i / 32) && d.cols.getLsbD (i % 32) then some (switchName (i / 32) (i % 32)) else none

/-! ### The directory: transitions -/

/-- A 64-byte STORE, which clears poison (R85). -/
def isFullStore (p : Packet) : Bool := p.op == .store && pktLen p == 64

/-- A request that its line cannot serve ends with a status: the line is held by nobody, and POISON poisons it (R85, R446). -/
def failLine (n : Nat) (r : Req) (st : Status) (s : State) : State :=
  let s := onDir n (fun d => { noSharers d with st := .i, pend := none }) s
  answer r st none (if st = .poison then poisonLine n s else s)

/-- Grants the line with its data; the entry changes by `f`. -/
def grantData (n : Nat) (r : Req) (f : DirEntry → DirEntry) (s : State) : State :=
  match lineRead n s with
  | (.ok, b, s) => answer r .ok (some b) (onDir n f s)
  | (st, _, s) => failLine n r st s

/-- Grants the line (Table 02-11): S adds the requester as the only sharer, M makes it the owner. -/
def grantS (n : Nat) (r : Req) (s : State) : State :=
  grantData n r (fun d => addSharer r.p.src.toNat { noSharers d with st := .s, pend := none }) s

/-- Grant M, with the line or without data. -/
def grantM (n : Nat) (r : Req) (data : Bool) (s : State) : State :=
  let f (d : DirEntry) : DirEntry := { noSharers d with st := .m, owner := r.p.src.toNat, pend := none }
  if data then grantData n r f s else answer r .ok none (onDir n f s)

/-- Performs an uncached operation on a line and completes it; the entry goes to `st`, and a full STORE has cleared its poison
(R85). -/
def performUnc (n : Nat) (r : Req) (st : DirSt) (s : State) : State :=
  match physOf s (lineHome n) with
  | none => failLine n r .addrErr s
  | some ph =>
    match winAccess ph r.p s with
    | (.ok, b, s) =>
      answer r .ok b (onDir n (fun d =>
        { (if st = .s then d else noSharers d) with st := st, pend := none, poison := d.poison && !isFullStore r.p }) s)
    | (st, _, s) => failLine n r st s

/-- An uncached read (UNC_RD). -/
def isUncRead (p : Packet) : Bool := p.op == .load

/-- Completes the pending request (Table 02-11): `fromS` says that the transient state was entered from S. -/
def completeP (n : Nat) (s : State) : State :=
  let d := s.dirE n
  match d.pend with
  | none => onDir n (fun d => { noSharers d with st := .i }) s
  | some r =>
    let req := r.p.src.toNat
    match r.p.op with
    | .rdS => grantS n r s
    | .rdM => grantM n r true s
    | .upg => grantM n r (d.coarse || !d.ptrs.contains req || !d.fromS) s
    | .load => performUnc n r (if d.fromS then .s else .i) s
    | _ => performUnc n r .i s

/-- Sends the INVs of a request to the sharers of its line and waits for their answers; with none to send the request
completes (R78, R84). -/
def invalidate (n : Nat) (r : Req) (keep : Bool) (s : State) : State :=
  let d := s.dirE n
  let req := r.p.src.toNat
  let targets : List (BitVec 15 × Bool) :=
    if d.coarse then (coarseSwitches d).map fun x => (x, true)
    else (d.ptrs.filter fun e => !keep || e != req).map fun e => (BitVec.ofNat 15 e, false)
  let t := tmoNs s r.p.ctx.toNat
  let s := onDir n (fun d =>
    { d with st := .sInv, pend := some r, fromS := true, count := targets.length, deadline := s.now + t }) s
  let s := forEach targets (fun x s => sendReq (invPacket s .inv x.1 x.2 r.p.ctx.toNat n (n * 64)) s) s
  if targets.isEmpty then completeP n s else s

/-- Recalls the line from its owner (R84). -/
def recallOwner (n : Nat) (r : Req) (s : State) : State :=
  let d := s.dirE n
  let t := tmoNs s r.p.ctx.toNat
  let s := onDir n (fun d =>
    { d with st := .mRcl, pend := some r, fromS := false, wbSeen := false, deadline := s.now + t }) s
  sendReq (invPacket s .rcl (BitVec.ofNat 15 d.owner) false r.p.ctx.toNat n (n * 64)) s

/-- A request of an entry in I, S or M (Table 02-12). -/
def serveStable (n : Nat) (r : Req) (s : State) : State :=
  let d := s.dirE n
  let req := r.p.src.toNat
  let others := (d.ptrs.filter (· != req)).isEmpty
  match d.st, r.p.op with
  | .i, .rdS => if d.poison then answer r .poison none s else grantS n r s
  | .i, .rdM | .i, .upg => if d.poison then answer r .poison none s else grantM n r true s
  | .i, .load => if d.poison then answer r .poison none s else performUnc n r .i s
  | .i, _ =>
    if d.poison && !isFullStore r.p then answer r .poison none s
    else performUnc n r .i s
  | .s, .rdS => grantData n r (addSharer req) s
  | .s, .rdM => if !d.coarse && others then grantM n r true s else invalidate n r true s
  | .s, .upg =>
    if !d.coarse && d.ptrs.contains req && others then grantM n r false s
    else if !d.coarse && others then grantM n r true s
    else invalidate n r true s
  | .s, .load => performUnc n r .s s
  | .s, _ => invalidate n r false s
  | .m, .rdS | .m, .rdM =>
    if req = d.owner then
      cohProto n r .poison (poisonLine n (onDir n (fun d => { noSharers d with st := .i }) s))
    else recallOwner n r s
  | .m, .upg => if req = d.owner then answer r .ok none s else recallOwner n r s
  | .m, _ => recallOwner n r s
  | .sInv, _ | .mRcl, _ => s

/-- A writeback (Table 02-12). -/
def serveWb (n : Nat) (r : Req) (s : State) : State :=
  let d := s.dirE n
  let own := r.p.src.toNat = d.owner
  match d.st with
  | .m =>
    if own then answer r .ok none (onDir n (fun d => { noSharers d with st := .i }) (lineWrite n r.p.payload s))
    else cohProto n r .access s
  | .mRcl =>
    if own then answer r .ok none (onDir n (fun d => { d with wbSeen := true }) (lineWrite n r.p.payload s))
    else cohProto n r .access s
  | .i | .s | .sInv => cohProto n r .access s

/-- An entry is transient. -/
def transient (d : DirEntry) : Bool := d.st == .sInv || d.st == .mRcl

/-- The ingress pointer moves past a served request's port (R80). -/
def served (n : Nat) (r : Req) (s : State) : State :=
  if r.port < 512 then onDir n (fun d => { d with ptr := (r.port + 1) % 512 }) s else s

/-- Takes the due head of a line's wait list (R81). -/
def takeDueHead (n : Nat) (s : State) : State :=
  let d := s.dirE n
  match d.wait with
  | [] => s
  | r :: rest =>
    if transient d then s else serveStable n r (served n r (onDir n (fun d => { d with wait := rest }) s))

/-- Entries of the wait-list store of home shuttle `L` in use (R82). -/
def waitUsed (s : State) (L : Nat) : Nat :=
  (s.fab.dir.map fun e => if lineHome e.1 = L then e.2.wait.length else 0).sum

/-- Due heads are taken before a new request (R81), as many times as the list was long. -/
def takeDueHeads (n : Nat) : Nat → State → State
  | 0, s => s
  | k + 1, s => takeDueHeads n k (takeDueHead n s)

/-- A new request that the directory takes: served, or placed on the wait list (R81). -/
def takeNew (n : Nat) (r : Req) (s : State) : State :=
  let s := takeDueHeads n (s.dirE n).wait.length s
  let d := s.dirE n
  let s := takeReq r s
  if transient d || !d.wait.isEmpty then onDir n (fun d => { d with wait := d.wait ++ [r] }) s
  else serveStable n r (served n r s)

/-- How far the line's rotating pointer is from a request's ingress port (R80). -/
def turnOf (s : State) (n : Nat) (r : Req) : Nat := (r.port + 512 - (s.dirE n).ptr) % 512

/-- Of the requests for the line of `r` that are ready, the one that the rotating pointer reaches first; those of one
port in arrival order (R80). -/
def firstTurn (s : State) (r : Req) (l : List Req) : Req :=
  let n := lineOf r.p
  (l.filter fun x => lineOf x.p == n).foldl (fun b x => if turnOf s n x < turnOf s n b then x else b) r

/-- A migration whose window freeze holds the operations of `L` (R343). -/
def freezes (L : Nat) (m : Mig) : Bool := m.logical == L && m.cleared && !m.force

/-- The window of `L` is frozen, by a migration or by one of a SHUTTLES panel (R343, Table 14-10). -/
def frozen (s : State) (L : Nat) : Bool := s.shts.mig.toList.any (freezes L) || s.shts.panel.any (freezes L)

/-- Requests of `L` that the full wait-list store held in the network-on-chip are taken while entries are free (R82), each
line's in the order of its rotating pointer (R80). -/
def drainNoc (L : Nat) : Nat → State → State
  | 0, s => s
  | k + 1, s =>
    if waitUsed s L < 256 && !frozen s L then
      match s.fab.noc.find? fun x => x.1 == L with
      | some x =>
        let r := firstTurn s x.2 ((s.fab.noc.filter fun y => y.1 == L).map (·.2))
        let s := { s with fab := { s.fab with noc := s.fab.noc.erase (L, r) } }
        drainNoc L k (takeNew (lineOf r.p) r s)
      | none => s
    else s

/-- Every home shuttle takes what its freed wait-list entries let in (R82). -/
def drainNocs (s : State) : State :=
  forEach (s.fab.noc.map (·.1)).dedup (fun L s => drainNoc L s.fab.noc.length s) s

/-- A request at the directory of its home shuttle (R80 to R84): WB is always taken; others wait in the network-on-chip
while the wait-list store is full. -/
def dirRequest (r : Req) (s : State) : State :=
  let n := lineOf r.p
  let L := lineHome n
  if r.p.op = .wb then serveWb n r (takeReq r s)
  else if 256 ≤ waitUsed s L ∨ s.fab.noc.any (·.1 == L) then
    { s with fab := { s.fab with noc := s.fab.noc ++ [(L, r)] } }
  else takeNew n r s

/-- A completion at the directory (Table 02-12): INV_ACK, RCL_DATA or RCL_ACK. Any other completion is stray. -/
def dirCompletion (p : Packet) (s : State) : State :=
  let n := p.ftag.toNat
  let d := s.dirE n
  if cohSize s ≤ n * 64 then stray s
  else if p.dat then
    if d.st = .mRcl ∧ p.src.toNat = d.owner ∧ !p.ssw then completeP n (lineWrite n p.payload s) else stray s
  else if p.status = .notHeld then
    if d.st = .mRcl ∧ p.src.toNat = d.owner ∧ !p.ssw then
      if d.wbSeen then completeP n s
      else
        let s := poisonLine n (onDir n (fun d => { noSharers d with st := .i, pend := none }) s)
        match d.pend with
        | some r => cohProto n r .poison s
        | none => s
    else stray s
  else if p.status = .ok ∧ d.st = .sInv then
    if d.count ≤ 1 then completeP n s else onDir n (fun d => { d with count := d.count - 1 }) s
  else stray s

/-- An event for the directory of `L` reaches its home: a shuttle in RUN acts on it; one that sleeps is woken and keeps
it in its stub (R338). -/
def atHome (L : Nat) (e : StubEv) (act : State → State) (s : State) : State :=
  match physOf s L with
  | none => act s
  | some p =>
    let s := wakeSht p s
    if shtP s p = 0 then act s
    else s.onSht p fun x => if x.stub.any fun y => y.1 == e then x else { x with stub := x.stub ++ [(e, s.now)] }

/-- The expiry of a transient line (Table 02-12). -/
def expireLine (n : Nat) (s : State) : State :=
  let d := s.dirE n
  if !transient d then s
  else
    let s := (raiseCause Cause.cohTimeout (lineLoc s n) (d.pend.map fun r => r.p.ctx.toNat) 0 s).bump F.GLB_COH_TMO_CNT_count
    if d.st = .sInv then completeP n s
    else
      let s := poisonLine n (onDir n (fun d => { noSharers d with st := .i, pend := none }) s)
      match d.pend with
      | some r => answer r .poison none s
      | none => s

/-- EXPIRE: the pending request's timer has passed T; in the cycle in which it reaches T every other event of the line
comes first (R80, Table 02-12). A home that sleeps keeps the expiry in its stub (R338). -/
def dirExpire (n : Nat) (s : State) : State :=
  let d := s.dirE n
  if transient d && d.deadline < s.now then atHome (lineHome n) (.expire n) (expireLine n) s else s

/-- WAIT_LIST_HEAD: the due head of a line's wait list is taken (R81); a home that sleeps is woken first. -/
def waitListHead (n : Nat) (s : State) : State :=
  match physOf s (lineHome n) with
  | none => takeDueHead n s
  | some p =>
    if (s.dirE n).wait.isEmpty then s
    else
      let s := wakeSht p s
      if shtP s p = 0 then takeDueHead n s else s

/-! ### Fan-out (R548) -/

/-- The endpoint ports that an INV fans out to: ASSIGNED, and enabled for some context with coh_en = 1. -/
def fanPorts (s : State) : List Nat :=
  let ctxs := (upTo 4096).filter fun c => s.flag (F.CTX_MEM_CTL_coh_en c)
  (upTo 512).filter fun p => assigned s p && ctxs.any fun c => ctxPortEn s c p

/-- The completion that a fan-out record returns to the home switch. -/
def fanDone (s : State) (f : Fanout) : Packet :=
  { blankPacket with
    ord := true, ssw := true, src := ownName s, dst := f.home, dsw := true, ctx := f.ctx, ftag := f.ftag,
    offset := f.offset }

/-- The lowest free fan-out record. -/
def freeFan (s : State) : Option Nat := (upTo 4096).find? fun r => (s.fanE r).isNone

/-- Takes an INV with dsw = 1 into record `r`: sends the INVs, or completes at once. -/
def fanTake (r : Nat) (p : Packet) (s : State) : State :=
  let ports := fanPorts s
  let f : Fanout := { home := p.src, ftag := p.ftag, ctx := p.ctx, offset := p.offset, count := ports.length,
                      deadline := s.now + 2 * tmoNs s p.ctx.toNat }
  if ports.isEmpty then sendCpl (fanDone s f) s
  else
    forEach ports (fun port s =>
      sendReq (invPacket s .inv (BitVec.ofNat 15 (portEp s port)) false p.ctx.toNat r (2147483648 + p.offset.toNat)) s)
      (s.setFan r (some f))

/-- An INV naming this switch: a record takes it, or it waits for one with its credits withheld (R548). -/
def fanInv (p : Packet) (port : Nat) (s : State) : State :=
  match freeFan s, s.fab.fanWait with
  | some r, [] => fanTake r p (takeReq ⟨p, port⟩ s)
  | _, _ => { s with fab := { s.fab with fanWait := s.fab.fanWait ++ [(p, port)] } }

/-- FANOUT_ADMIT: a waiting INV takes a record that has freed (R548). -/
def fanAdmit (s : State) : State :=
  match freeFan s, s.fab.fanWait with
  | some r, (p, port) :: rest => fanTake r p (takeReq ⟨p, port⟩ { s with fab := { s.fab with fanWait := rest } })
  | _, _ => s

/-- FANOUT_EXPIRE: a record whose count has not reached 0 within 2 × T frees without an answer (R548). -/
def fanExpire (r : Nat) (s : State) : State :=
  match s.fanE r with
  | some f => if f.deadline ≤ s.now then s.setFan r none else s
  | none => s

/-- An endpoint's answer to a fan-out INV (R548). -/
def fanAnswer (p : Packet) (s : State) : State :=
  let r := p.ftag.toNat
  match s.fanE r with
  | some f =>
    if f.count ≤ 1 then sendCpl (fanDone s f) (s.setFan r none)
    else s.setFan r (some { f with count := f.count - 1 })
  | none => stray s

/-! ### Operations at the target switch -/

/-- Every byte of the operation lies inside the context's region (R38). -/
def inRegion (s : State) (c off n : Nat) : Bool :=
  s.flag (F.CTX_MEM_CTL_win_en c) && decide (s.fld (F.CTX_WIN_RANGE_base c) * 65536 ≤ off)
    && decide (off + n ≤ s.fld (F.CTX_WIN_RANGE_limit c) * 65536)

/-- A coherence request. -/
def isCohOp : Op → Bool
  | .rdS | .rdM | .upg | .wb => true
  | _ => false

/-- The checks of the target switch, in order: R70, R38, R75 (R546), and an unmapped home (R341, R469). -/
def windowCheck (s : State) (p : Packet) : Option Status :=
  let off := windowOff p.address
  let n := opSize p
  if winSize s < off + n then some .addrErr
  else if !inRegion s p.ctx.toNat off n then some .access
  else if isCohOp p.op && (off % 64 ≠ 0 || cohSize s ≤ off) then some .unsup
  else if !isCohOp p.op && decide (off < cohSize s) && decide (64 < off % 64 + n) then some .align
  else if (physOf s (winHome off)).isNone then some .addrErr
  else none

/-- A window operation at a running home shuttle: the directory takes it inside the coherent sub-window (R75), otherwise
the window port performs it (R73). -/
def windowPerform (r : Req) (s : State) : State :=
  let off := windowOff r.p.address
  match physOf s (winHome off) with
  | none => answer r .addrErr none (takeReq r s)
  | some ph =>
    if off < cohSize s then dirRequest r s
    else
      let x := winAccess ph r.p (takeReq r s)
      answer r x.1 x.2.1 x.2.2

/-- A frozen operation waits in the network-on-chip (R343). -/
def holdOp (L : Nat) (r : Req) (s : State) : State :=
  let add (m : Mig) : Mig := if freezes L m then { m with frozen := m.frozen ++ [r] } else m
  { s with shts := { s.shts with mig := s.shts.mig.map add, panel := s.shts.panel.map add } }

/-- A window operation reaches its home shuttle: frozen operations wait in the network-on-chip (R343), those of a
shuttle that sleeps wait in its stub (R338). -/
def homeArrive (r : Req) (s : State) : State :=
  let L := winHome (windowOff r.p.address)
  if frozen s L then holdOp L r s
  else
    match physOf s L with
    | none => answer r .addrErr none (takeReq r s)
    | some ph =>
      let s := wakeSht ph s
      if shtP s ph = 0 then windowPerform r s
      else s.onSht ph fun x => { x with stub := x.stub ++ [(.op r, s.now)] }

/-- The operations among stub events. -/
def stubOps (l : List (StubEv × Nat)) : List Req :=
  l.filterMap fun x => match x.1 with | .op r => some r | _ => none

/-- Window operations of this switch that have arrived and are not performed: in stubs, frozen, held in the
network-on-chip, on wait lists, or pending. -/
def waitingWin (s : State) : List Req :=
  (s.shts.sht.flatMap fun x => stubOps x.2.stub) ++ ((s.shts.mig.toList ++ s.shts.panel).flatMap fun m => m.frozen)
    ++ s.fab.noc.map (·.2) ++ s.fab.dir.flatMap fun x => x.2.pend.toList ++ x.2.wait

/-- Two operations of one ordering stream of which both are ordered (Table 02-8); their destination is this switch. -/
def sameStream (a b : Packet) : Bool :=
  a.src == b.src && a.ssw == b.ssw && a.queue == b.queue && isOrdered a && isOrdered b

/-- An ordered operation waits while an earlier one of its stream is not performed (R56). A WB never waits: its home takes
it at once (R80, R82). -/
def mustWait (s : State) (r : Req) : Bool :=
  r.p.op != .wb && isOrdered r.p && (waitingWin s ++ s.fab.ordWait).any fun x => sameStream x.p r.p

/-- A window operation in its stream's order (R56): it goes to its home, or waits behind an earlier one. -/
def windowArrive (r : Req) (s : State) : State :=
  if mustWait s r then { s with fab := { s.fab with ordWait := s.fab.ordWait ++ [r] } } else homeArrive r s

/-- Operations that had been taken from the network-on-chip reach it again, in front of those that came after them. -/
def windowBack (l : List Req) (s : State) : State := { s with fab := { s.fab with ordWait := l ++ s.fab.ordWait } }

/-- The operations that waited for their stream's order go on as far as that order lets them (R56). -/
def drainOrdered (s : State) : State :=
  forEach s.fab.ordWait windowArrive { s with fab := { s.fab with ordWait := [] } }

/-- A switch-window operation at its target switch. -/
def windowOp (r : Req) (s : State) : State :=
  match windowCheck s r.p with
  | some st => answer r st none (takeReq r s)
  | none => windowArrive r s

/-- A completion for the switch itself (R161, R547): offset bit 31 names a fan-out record, otherwise a line, whose home
keeps it in its stub while it sleeps (R338). -/
def selfCpl (p : Packet) (s : State) : State :=
  if p.offset.getLsbD 31 then fanAnswer p s
  else if cohSize s ≤ p.ftag.toNat * 64 then stray s
  else atHome (lineHome p.ftag.toNat) (.cpl p) (dirCompletion p) s

/-- A packet that this switch sent to itself. -/
def selfPacket (p : Packet) (s : State) : State :=
  match p.op with
  | .cpl => selfCpl p s
  | .inv => fanInv p 0x3FF s
  | _ => s

/-- Takes the packets that this switch sent to itself, `n` rounds of them: an INV's fan-out may complete at once. -/
def drainSelf : Nat → State → State
  | 0, s => s
  | n + 1, s =>
    let l := s.fab.self
    if l.isEmpty then s else drainSelf n (forEach l selfPacket { s with fab := { s.fab with self := [] } })

/-- The place of a stub event among those ready in one cycle (R80): WB and data, other completions, requests, expiries. -/
def stubRank : StubEv → Nat
  | .op r => if r.p.op = .wb then 0 else 2
  | .cpl p => if p.dat then 0 else 1
  | .expire _ => 3

/-- A directory event that waited in a stub. -/
def takeEvent (e : StubEv) (s : State) : State :=
  match e with
  | .op r => windowPerform r s
  | .cpl p => dirCompletion p s
  | .expire n => expireLine n s

/-- The requests that waited in a stub, in arrival order but for the rotating pointer of each coherent line (R73, R80). -/
def takeStubOps : Nat → List Req → State → State
  | 0, _, s => s
  | k + 1, l, s =>
    match l with
    | [] => s
    | r :: _ =>
      let r := if windowOff r.p.address < cohSize s then firstTurn s r l else r
      takeStubOps k (l.erase r) (windowPerform r s)

/-- What waited in a stub is taken in the order of R80. -/
def takeStub (l : List (StubEv × Nat)) (s : State) : State :=
  let rank (k : Nat) : List StubEv := (l.map (·.1)).filter fun e => stubRank e == k
  let s := forEach (rank 0 ++ rank 1) takeEvent s
  let ops := (rank 2).filterMap fun e => match e with | .op r => some r | _ => none
  forEach (rank 3) takeEvent (takeStubOps ops.length ops s)

/-- WAKE_DONE: WAKING ends; the shuttle enters RUN and takes its waiting work (R338). A wake from OFF needs its
power-up place (R339) and clears the loaded context (R336, Table 09-10). -/
def wakeDone (p : Nat) (s : State) : State :=
  let r := s.sht p
  if shtP s p = 3 && r.placed then
    let s := if r.fromOff then unloadSht p s else s
    let s := s.onSht p fun x => { x with stub := [], placed := false, fromOff := false, idleAt := s.now }
    takeStub r.stub (startDescs p (setShtP p 0 s))
  else s

end Sys2Proof.Machine
end

