-- ==== Sys2Proof/Machine/Groups.lean ====
section
/-! DEFINITION. The group table (file 07): entry versions (R243, R244, R271), members (R246), picks (R249), trees and
roles (R251, R253), element layouts (R247, R322 to R328), the checks of a contribution (R551). -/

namespace Sys2Proof.Machine

/-! ### Fields of a version -/

/-- Word `i` of a version. -/
def vw (v : GrpVer) (i : Nat) : Nat := (v.words.getD i 0).toNat
/-- valid. -/
def vValid (v : GrpVer) : Bool := bitOf (vw v 0) 31
/-- mode: fixed-tree. -/
def vFixed (v : GrpVer) : Bool := bitOf (vw v 0) 30
/-- short. -/
def vShort (v : GrpVer) : Bool := bitOf (vw v 0) 29
/-- trees: 0 both, 1 A only, 2 B only; 3 acts as 0. -/
def vTrees (v : GrpVer) : Nat := bits (vw v 0) 27 2 % 3
/-- The queue of result stores and PCPLs; Q0 when the entry is not valid (R242). -/
def vResQ (v : GrpVer) : Nat := if vValid v then bits (vw v 0) 26 1 else 0
/-- The queue of partials and results; 6 and 7 act as 5. -/
def vPartQ (v : GrpVer) : Nat := min 5 (bits (vw v 0) 23 3)
/-- epoch. -/
def vEpoch (v : GrpVer) : Nat := bits (vw v 0) 0 16
/-- operator. -/
def vOp (v : GrpVer) : Operator := operatorOf (BitVec.ofNat 4 (bits (vw v 1) 28 4))
/-- in_fmt. -/
def vIn (v : GrpVer) : Format := formatOf (BitVec.ofNat 4 (bits (vw v 1) 24 4))
/-- out_fmt. -/
def vOut (v : GrpVer) : Format := formatOf (BitVec.ofNat 4 (bits (vw v 1) 20 4))
/-- pick_exp. -/
def vPickExp (v : GrpVer) : Nat := bits (vw v 1) 16 4
/-- round: stochastic. -/
def vStoch (v : GrpVer) : Bool := bitOf (vw v 1) 15
/-- rq_en. -/
def vRq (v : GrpVer) : Bool := bitOf (vw v 1) 14
/-- norm_en. -/
def vNorm (v : GrpVer) : Bool := bitOf (vw v 1) 13
/-- Pick timer in ns. -/
def vTmo (v : GrpVer) : Nat := 2 ^ min 20 (bits (vw v 1) 0 5) * 1000
/-- n_elem. -/
def vN (v : GrpVer) : Nat := vw v 2 + bits (vw v 3) 0 5 * 2 ^ 32 + 1
/-- buf_off in bytes. -/
def vBuf (v : GrpVer) : Nat := bits (vw v 4) 0 25 * 4096
/-- mbr_cnt. -/
def vMbrCnt (v : GrpVer) : Nat := bits (vw v 5) 17 6
/-- mbr_base. -/
def vMbrBase (v : GrpVer) : Nat := bits (vw v 5) 0 17
/-- Rotation field at bit `lo`. -/
def vRot (v : GrpVer) (lo : Nat) : Nat := bits (vw v 12) lo 5
/-- seed. -/
def vSeed (v : GrpVer) : Nat := vw v 14

/-- The row length d of a context (R322). -/
def smgD (s : State) (ctx : Nat) : Nat :=
  let e := s.fld (F.CTX_EGR_smg_dexp ctx)
  2 ^ (if 9 ≤ e then 8 else e)

/-! ### Layouts -/

/-- A layout: elements and bytes of one unit: an element, an MX block, or a softmax row. -/
structure Layout where
  elems : Nat
  bytes : Nat
  deriving DecidableEq, Repr

/-- bytes(f, n) of a layout. -/
def Layout.size (l : Layout) (n : Nat) : Nat := n / l.elems * l.bytes

/-- The contribution layout (R247, R323). -/
def inLayout (v : GrpVer) (d : Nat) : Layout :=
  if vOp v = .smerge then ⟨d, 16 + d * unitBytes (vIn v)⟩ else ⟨unitElems (vIn v), unitBytes (vIn v)⟩

/-- The output layout (R247, R328). -/
def outLayout (v : GrpVer) (d : Nat) : Layout :=
  if vOp v = .smerge then
    if vNorm v then ⟨d, d * unitBytes (vOut v)⟩ else ⟨d, 8 + d * unitBytes (vOut v)⟩
  else ⟨unitElems (vOut v), unitBytes (vOut v)⟩

/-- Elements of a full pick: E, or all of a short group (R249). -/
def pickE (v : GrpVer) : Nat := if vShort v then vN v else 2 ^ vPickExp v

/-- E_p. -/
def pickN (v : GrpVer) (p : Nat) : Nat := min ((p + 1) * pickE v) (vN v) - p * pickE v

/-- The group address of the first byte of element `i` in the contribution layout. -/
def elemAddr (v : GrpVer) (d ctx g i : Nat) : BitVec 64 := mkGroupAddr ctx g (vBuf v + (inLayout v d).size i)

/-! ### Accumulator slots (R260, R321, R324) -/

/-- Operators whose slots are Oropel accumulators. -/
def isWide8 (v : GrpVer) : Bool := vOp v == .sum || vOp v == .smerge
/-- Bytes of a slot (Table 07-4). -/
def slotBytes (v : GrpVer) : Nat := if isWide8 v then 40 else 8
/-- Slots of a sheet. -/
def slotsPerSheet (v : GrpVer) : Nat := if isWide8 v then 102 else 512
/-- Slots of `n` elements (R324). -/
def slotsOf (v : GrpVer) (d n : Nat) : Nat := if vOp v = .smerge then n / d * (d + 3) else n
/-- Sheets of a tracker (Table 07-4). -/
def sheetsOf (v : GrpVer) (d n : Nat) : Nat := if vShort v then 1 else ceilDiv (slotsOf v d n) (slotsPerSheet v)

/-- The initial value of slot `j` (Table 09-6, R324), as stored. -/
def slotInit (v : GrpVer) (d j : Nat) : Nat :=
  match vOp v with
  | .sum => 0
  | .smerge => if j % (d + 3) = 0 then accBits .ninf else if j % (d + 3) = 1 then accBits .pinf else 0
  | .min => if isInt (vIn v) then 2 ^ 63 - 1 else f64Bits .pinf
  | .max => if isInt (vIn v) then 2 ^ 63 else f64Bits .ninf
  | .and => 2 ^ 64 - 1
  | _ => 0

/-- Combines a value into slot `j` (R321, R324, R327); the flag says that the accumulator overflowed (R286). -/
def slotCombine (v : GrpVer) (d j old x : Nat) : Nat × Bool :=
  match vOp v with
  | .sum => let r := numAdd (accOf old) (accOf x); (accBits r.1, r.2)
  | .smerge =>
    if j % (d + 3) = 0 then (accBits (numMax (accOf old) (accOf x)), false)
    else if j % (d + 3) = 1 then (accBits (numMin (accOf old) (accOf x)), false)
    else let r := numAdd (accOf old) (accOf x); (accBits r.1, r.2)
  | .min =>
    if isInt (vIn v) then (if signedOf 64 old ≤ signedOf 64 x then old else x, false)
    else (f64Bits (numMin ((f64Of old).getD .nan) ((f64Of x).getD .nan)), false)
  | .max =>
    if isInt (vIn v) then (if signedOf 64 old ≤ signedOf 64 x then x else old, false)
    else (f64Bits (numMax ((f64Of old).getD .nan) ((f64Of x).getD .nan)), false)
  | .and => (Nat.land old x, false)
  | .or => (Nat.lor old x, false)
  | .xor => (Nat.xor old x, false)
  | .reserved _ => (old, false)

/-! ### Contexts, entries, members -/

/-- The group-table entry of group `g` of a context; none at or above grp_cnt (R241). -/
def entryOf (s : State) (ctx g : Nat) : Option Nat :=
  if g < s.fld (F.CTX_GRP_grp_cnt ctx) then some ((s.fld (F.CTX_GRP_grp_base ctx) + g) % 16384) else none

/-- The context and group ID of a group-table entry (R241): the context whose range holds it. -/
def groupOf (s : State) (e : Nat) : Option (Nat × Nat) :=
  ((upTo 4096).find? fun c =>
    let b := s.fld (F.CTX_GRP_grp_base c)
    b ≤ e && e < b + s.fld (F.CTX_GRP_grp_cnt c)).map fun c => (c, e - s.fld (F.CTX_GRP_grp_base c))

/-- A member of a version at this switch: its place in the slot range, its slot, local port, result buffer. -/
structure Member where
  bit : Nat
  slot : Nat
  local_ : Nat
  res : Nat
  deriving DecidableEq, Repr

/-- The active members of a version (R246). -/
def members (s : State) (v : GrpVer) : List Member :=
  (upTo (min 32 (vMbrCnt v))).filterMap fun i =>
    let n := vMbrBase v + i
    if s.flag (F.MBR_SLOT_HI_active n) then
      some ⟨i, n, s.fld (F.MBR_SLOT_HI_local n),
        s.fld (F.MBR_SLOT_HI_res_base n) * 2 ^ 32 + s.fld (F.MBR_SLOT_LO_res_base n) * 4096⟩
    else none

/-- The staged words of an entry, GRP_ENTRY_CTL to GRP_SEED. -/
def stagedWords (s : State) (e : Nat) : List Word := (upTo 15).map fun i => s.rd (R.GRP_ENTRY_CTL e + 4 * i)

/-- A version has something in flight: an input that captured it or a tracker opened under it (R271). -/
def verBusy (s : State) (e vn : Nat) : Bool :=
  s.grp.transit.any (fun x => x.entry == e && x.ver.vn == vn)
    || s.grp.trk.any fun x => match x.2 with | some t => t.entry == e && t.ver.vn == vn | none => false

/-- Trackers of an entry that are not FREE. -/
def openCount (s : State) (e : Nat) : Nat :=
  (s.grp.trk.filter fun x => match x.2 with | some t => t.entry == e | none => false).length

/-- GRP_STATUS and GLB_GRP_UPD_STATUS follow the entry (R271). -/
def showEntry (e : Nat) (s : State) : State :=
  let g := s.grpE e
  let s := s.setFlag (F.GRP_STATUS_settled e) (g.retiring.isNone && g.pending.isNone)
  let s := s.setFlag (F.GRP_STATUS_pending e) g.pending.isSome
  let s := s.setFld (F.GRP_STATUS_open e) (min 8191 (openCount s e))
  let s := s.setFld (F.GRP_STATUS_act_epoch e) (vEpoch g.active)
  s.setFlag F.GLB_GRP_UPD_STATUS_settled (s.grp.ent.all fun x => x.2.retiring.isNone && x.2.pending.isNone)

/-- Makes the words a new version of the entry; the old one retires, or stays as the retiring one (R243, R271). -/
def newVer (e : Nat) (words : List Word) (s : State) : State :=
  let g := s.grpE e
  let vn := s.grp.nextVn
  let retiring := if verBusy s e g.active.vn then some (g.active.vn, vEpoch g.active) else none
  let s := s.setGrpE e { active := ⟨words, vn⟩, retiring := retiring, pending := none }
  showEntry e { s with grp := { s.grp with nextVn := vn + 1 } }

/-! ### The checks of a commit (Table 07-1, R320, R322, R354) -/

/-- The pairs of Table 02-5. -/
def opFmtOk (o : Operator) (f : Format) : Bool :=
  match o with
  | .sum | .min | .max => (formOf f).isSome
  | .and | .or | .xor => isInt f
  | .smerge => f == .fp32 || f == .bf16 || f == .fp16
  | .reserved _ => false

/-- A floating-point or MX format. -/
def isReal (f : Format) : Bool := isFloat f || isMx f

/-- The rows of Table 09-5. -/
def comboOk (v : GrpVer) : Bool :=
  match vOp v with
  | .sum =>
    if isInt (vIn v) then isInt (vOut v) && !vRq v && !vNorm v
    else isReal (vIn v) && isReal (vOut v) && (!vRq v || isMx (vOut v)) && !vNorm v
  | .min | .max =>
    (if isInt (vIn v) then isInt (vOut v) else isReal (vIn v) && isReal (vOut v)) && !vRq v && !vNorm v
  | .and | .or | .xor => isInt (vIn v) && isInt (vOut v) && !vRq v && !vNorm v
  | .smerge => opFmtOk .smerge (vIn v) && opFmtOk .smerge (vOut v) && !vRq v && !vShort v
  | .reserved _ => false

/-- Table 07-1's checks of the staged words, epoch apart. -/
def commitOk (s : State) (ctx : Nat) (v : GrpVer) : Bool :=
  let d := smgD s ctx
  let e := 2 ^ vPickExp v
  let ms := (members s v).map (·.local_)
  decide (5 ≤ vPickExp v ∧ vPickExp v ≤ 14) && decide ((outLayout v d).size e ≤ 16384)
    && decide (vN v ≤ 2 ^ 23 * e) && decide (vBuf v + (inLayout v d).size (vN v) ≤ 2 ^ 37)
    && (!(isMx (vIn v) || isMx (vOut v)) || vN v % 32 == 0)
    && opFmtOk (vOp v) (vIn v) && comboOk v
    && (vOp v != .smerge || (vN v % d == 0 && decide (d ≤ e)))
    && decide (vMbrCnt v ≤ 32) && decide (vMbrBase v + vMbrCnt v ≤ 131072) && (ms.eraseDups.length == ms.length)
    && (!(vShort v || vTrees v != 2) || (vw v 10 != 0 && vw v 6 != 0))
    && (!(!vShort v && vTrees v != 1) || (vw v 11 != 0 && vw v 7 != 0))
    && (!vShort v || (decide ((inLayout v d).size (vN v) ≤ 48) && decide ((outLayout v d).size (vN v) ≤ 48)
        && decide (vPartQ v ≤ 1)))

/-- The fields that strict operation keeps while a tracker is open (R354 item 2). -/
def strictFields (v : GrpVer) : List Nat :=
  [bits (vw v 1) 13 19, vN v, vBuf v, ofBool (vShort v), vTrees v, vSeed v]

/-- Whether a commit is accepted (R244, R354). -/
def commitAccepted (s : State) (e : Nat) (words : List Word) : Bool :=
  let g := s.grpE e
  let v : GrpVer := ⟨words, 0⟩
  let epochs := [vEpoch g.active] ++ (g.retiring.map (·.2)).toList ++ (g.pending.map fun w => vEpoch ⟨w, 0⟩).toList
  !vValid v || (!epochs.contains (vEpoch v) && commitOk s ((groupOf s e).getD (0, 0)).1 v
    && !(s.flag F.GLB_DET_CTL_strict && openCount s e != 0 && strictFields v != strictFields g.active))

/-- GROUP_COMMIT: a write of GRP_ENTRY_CTL; with commit = 1 the staged words become a new or pending version, or the
commit is refused (R243, R244, R271). -/
def groupCommit (e : Nat) (val : Word) (s : State) : State :=
  let s := s.storeReg (R.GRP_ENTRY_CTL e) val
  if !bitOf val.toNat 16 then s
  else
    let words := stagedWords s e
    if commitAccepted s e words then
      let s := s.setFlag (F.GRP_STATUS_cfg_err e) false
      if (s.grpE e).retiring.isSome then
        showEntry e (s.setGrpE e { s.grpE e with pending := some words })
      else newVer e words s
    else s.setFlag (F.GRP_STATUS_cfg_err e) true

/-- GROUP_VERSION_RETIRE: nothing is in flight on the retiring version any more; a pending commit applies (R271). -/
def groupRetire (e : Nat) (s : State) : State :=
  let g := s.grpE e
  match g.retiring with
  | some (vn, _) =>
    if verBusy s e vn then s
    else
      let s := s.setGrpE e { g with retiring := none, pending := none }
      match g.pending with
      | some w => newVer e w s
      | none => showEntry e s
  | none => s

/-! ### Trees and roles (R251, R253) -/

/-- The bit position of the k-th set bit of a mask. -/
def nthBit (mask k : Nat) : Nat := (((upTo 32).filter (bitOf mask)).getD k 0)
/-- popcount. -/
def popc (mask : Nat) : Nat := ((upTo 32).filter (bitOf mask)).length

/-- Tree B, pivot and root (pr, pc) of a pick (R251). -/
def treeOf (v : GrpVer) (p : Nat) : Bool × Nat × Nat :=
  let onA := vShort v || vTrees v == 1 || (vTrees v == 0 && p % 2 == 0)
  let j := if vShort v || vTrees v != 0 then p else p / 2
  if onA then
    let nA := max 1 (popc (vw v 10))
    let nR := max 1 (popc (vw v 6))
    (false, nthBit (vw v 6) ((j / nA + vRot v 5) % nR), nthBit (vw v 10) ((j + vRot v 0) % nA))
  else
    let nB := max 1 (popc (vw v 11))
    let nC := max 1 (popc (vw v 7))
    (true, nthBit (vw v 11) ((j + vRot v 10) % nB), nthBit (vw v 7) ((j / nB + vRot v 15) % nC))

/-- The roles of this switch for a pick (Table 07-2): leaf, line stage, root. -/
def rolesOf (s : State) (v : GrpVer) (p : Nat) : Bool × Bool × Bool :=
  let t := treeOf v p
  let line := if t.1 then ownRow s == t.2.1 else ownCol s == t.2.2
  (!(members s v).isEmpty, line, line && ownRow s == t.2.1 && ownCol s == t.2.2)

/-- A mask without bit `i`. -/
def without (mask i : Nat) : Nat := if bitOf mask i then mask - 2 ^ i else mask

/-- Leaf partials that the line stage waits for (Table 07-2), as a mask over the other coordinate. -/
def lineMask (s : State) (v : GrpVer) (b : Bool) : Nat := if b then without (vw v 9) (ownRow s) else without (vw v 8) (ownCol s)
/-- Line partials that the root waits for. -/
def rootMask (s : State) (v : GrpVer) (b : Bool) : Nat := if b then without (vw v 7) (ownCol s) else without (vw v 6) (ownRow s)

/-- Inputs of all roles for a pick (R253). -/
def inputCount (s : State) (v : GrpVer) (p : Nat) : Nat :=
  let r := rolesOf s v p
  let b := (treeOf v p).1
  (members s v).length + (if r.2.1 then popc (lineMask s v b) else 0) + (if r.2.2 then popc (rootMask s v b) else 0)

/-- The switch at (r, c) is an input of this switch for the pick (Table 07-2). -/
def isInput (s : State) (v : GrpVer) (p r c : Nat) : Bool :=
  let roles := rolesOf s v p
  let b := (treeOf v p).1
  let line := roles.2.1 && (if b then c == ownCol s && bitOf (lineMask s v b) r else r == ownRow s && bitOf (lineMask s v b) c)
  let root := roles.2.2 && (if b then r == ownRow s && bitOf (rootMask s v b) c else c == ownCol s && bitOf (rootMask s v b) r)
  line || root

/-! ### Inputs -/

/-- The group address of an ACC or SACC, its context, operator, format and payload. -/
structure GrpPkt where
  addr : BitVec 64
  ctx : Nat
  op : Operator
  fmt : Format
  stage : Nat
  tree : Bool
  lclass : Nat
  pick : Nat
  epoch : Nat
  short : Bool
  index : Nat
  payload : List Byte
  deriving DecidableEq, Repr

/-- Reads an ACC in a data header, or a SACC (Table 03-9, R296). -/
def grpPkt : Pkt → GrpPkt
  | .data p =>
    { addr := p.address, ctx := p.ctx.toNat, op := p.operator, fmt := p.format, stage := p.stage.toNat, tree := p.tree,
      lclass := p.lclass.toNat, pick := p.pick.toNat, epoch := p.epoch.toNat, short := false, index := 0,
      payload := p.payload.take (pktLen p) }
  | .ctl c =>
    let ks := c.ks.toNat
    let a := c.w1 ++ c.w2
    let st := bits ks 6 2
    let len := c.lenM1.toNat + 1
    let word := (wordAt c.body 0).toNat
    let partialForm := st == 1 || st == 2
    { addr := a, ctx := groupCtx a, op := operatorOf (BitVec.ofNat 4 (bits ks 12 4)),
      fmt := formatOf (BitVec.ofNat 4 (bits ks 8 4)), stage := st, tree := bitOf ks 5,
      lclass := if partialForm then bits word 28 4 else 0, pick := 0, epoch := 0, short := true,
      index := if partialForm then bits word 0 6 else 0,
      payload := if partialForm then (c.body.drop 4).take (len - 4) else c.body.take len }

/-- The first element and the element count of a contribution, and its pick; none when it breaks R249 or R323 (the
status says how). -/
def contribElems (v : GrpVer) (d : Nat) (g : GrpPkt) : Except Status (Nat × Nat × Nat) :=
  let l := inLayout v d
  let off := groupOff g.addr
  let n := g.payload.length
  if off < vBuf v ∨ (inLayout v d).size (vN v) < off - vBuf v + n then .error .addrErr
  else
    let rel := off - vBuf v
    if rel % l.bytes ≠ 0 ∨ n % l.bytes ≠ 0 ∨ n = 0 then .error .align
    else
      let i := rel / l.bytes * l.elems
      let k := n / l.bytes * l.elems
      if i / pickE v ≠ (i + k - 1) / pickE v then .error .align else .ok (i, k, i / pickE v)

/-- The checks of R551 on a contribution that passed steps 1 to 5 of R546: the entry and version captured, or a rejection. R100 has
every endpoint send the collective words as zero, and R551 rejects a SACC with a stage or a tree; neither says what becomes of a
direct ACC with nonzero words: a stage or a tree is rejected like a SACC's, the other words are ignored (DESIGN CHOICE, log 99). -/
def contribCheck (s : State) (g : GrpPkt) : Except Status (Nat × GrpVer) :=
  if !opFmtOk g.op g.fmt then .error .unsup
  else match entryOf s g.ctx (groupId g.addr) with
    | none => .error .access
    | some e =>
      let v := (s.grpE e).active
      if !vValid v then .error .access
      else if g.short != vShort v || g.stage != 0 || g.tree then .error .unsup
      else if g.op ≠ vOp v ∨ g.fmt ≠ vIn v then .error .opMismatch
      else match contribElems v (smgD s g.ctx) g with
        | .error st => .error st
        | .ok _ => .ok (e, v)

end Sys2Proof.Machine
end

