-- ==== Sys2Proof/Machine/Trackers.lean ====
section
/-! DEFINITION. Stream trackers (file 07, Table 07-6): homes (R258), opening (R261, R552), inputs (R262), emissions,
pick completions (R267, R268), the pick commit (R266), timers, aborts (R274), stragglers (R273). -/

namespace Sys2Proof.Machine

/-! ### Pick completions -/

/-- The status that word 0 of a PCPL carries with an outcome (Table 07-8); a rejection carries its own. -/
def outcomeStatus (o : Nat) : Status := if o = 0 then .ok else if o = 5 then .access else .unreach

/-- A PCPL (R267, Table 07-7). -/
def pcpl (q : Nat) (addr : BitVec 64) (st : Status) (outcome : Nat) (tree : Bool) (pick leaf root : Nat) (check : Word) : Pkt :=
  let body := wordBytes (BitVec.ofNat 32 (outcome * 2 ^ 28 + ofBool tree * 2 ^ 27 + pick % 2 ^ 23))
    ++ wordBytes (BitVec.ofNat 32 (leaf % 65536 * 65536 + root % 65536)) ++ wordBytes check
  .ctl (mkCtl 2 q ((statusCode st).toNat * 4096) (addr.extractLsb' 32 32) (addr.extractLsb' 0 32) 11 body)

/-- The group address of a pick (R249). -/
def pickAddr (v : GrpVer) (d ctx g p : Nat) : BitVec 64 := elemAddr v d ctx g (p * pickE v)

/-- The PCPL of a rejected ACC or SACC (R242, R267, R268): in Q0 when the entry that its address names is not valid, pick
0x7F_FFFF when the address names no pick of the group. `rel` is what the rejected packet holds until its PCPL is admitted
(R550). -/
def rejectAcc (port : Nat) (rel : Option (Nat × Nat × Nat × List Nat)) (g : GrpPkt) (st : Status) (s : State) : State :=
  let e := if isGroupAddr g.addr then entryOf s (groupCtx g.addr) (groupId g.addr) else none
  let v : GrpVer := match e with | some i => (s.grpE i).active | none => {}
  let q := if vValid v then vResQ v else 0
  let l := inLayout v (smgD s (groupCtx g.addr))
  let off := groupOff g.addr
  let named := vValid v && decide (vBuf v ≤ off ∧ off < vBuf v + l.size (vN v))
  let p := (off - vBuf v) / l.bytes * l.elems / pickE v
  originateFor port [] rel
    (if named then pcpl q g.addr st 1 (treeOf v p).1 p (vEpoch v) 0 0 else pcpl q g.addr st 1 false 0x7FFFFF (vEpoch v) 0 0) s

/-- Sends an outcome to the members of a list that have not been told, and marks them told. -/
def tell (ms : List Member) (outcome : Nat) (check : Word) (t : Tracker) (s : State) : Tracker × State :=
  ms.foldl (fun (x : Tracker × State) m =>
    if bitOf x.1.told m.bit then x
    else
      let t := { x.1 with told := x.1.told + 2 ^ m.bit }
      let v := t.ver
      let root := if outcome = 0 && !vShort v then t.rootEpoch else 0
      match localPort x.2 m.local_ with
      | some port =>
        (t, sendLocal m.local_ port (pcpl (vResQ v) (pickAddr v (smgD x.2 t.ctx) t.ctx t.group t.pick)
              (outcomeStatus outcome) outcome t.treeB t.pick (vEpoch v) root check) x.2)
      | none => (t, x.2)) (t, s)

/-- The local members of a tracker. -/
def trkMembers (s : State) (t : Tracker) : List Member := members s t.ver
/-- Its contributing members. -/
def contributors (s : State) (t : Tracker) : List Member := (trkMembers s t).filter fun m => bitOf t.contrib m.bit

/-! ### Trackers -/

/-- The open tracker of a pick. -/
def findTrk (s : State) (ctx g p : Nat) : Option (Nat × Tracker) :=
  s.grp.trk.findSome? fun x =>
    match x.2 with
    | some t => if t.ctx == ctx && t.group == g && t.pick == p then some (x.1, t) else none
    | none => none

/-- The descriptors of an ended run leave the queues they stand in, with the credits they hold: their sheets are no
longer the tracker's (R313). -/
def dropRun (i run : Nat) (s : State) : State :=
  let mine (d : Desc) : Bool := dSrc d != 1 && d.trk == i && d.run == run
  forEach s.shts.sht (fun x s =>
    if x.2.dq.any mine then
      let s := s.onSht x.1 fun r => { r with dq := r.dq.filter fun d => !mine d, idleAt := s.now }
      let s := forEach (x.2.dq.filter mine) (fun d s => match d.credit with
        | some (port, q, n) => if port < 512 then giveCredits port q n s else s
        | none => s) s
      startDescs x.1 (takeCredits x.1 s)
    else s) s

/-- Returns a tracker's sheets to its share (R261); what is still queued of its run goes. -/
def freeSheets (i : Nat) (t : Tracker) (s : State) : State := returnSheets t.home t.ctx t.sheets (dropRun i t.run s)

/-- A tracker becomes FREE. -/
def freeTrk (i : Nat) (t : Tracker) (s : State) : State := showEntry t.entry (s.setTrk i none)

/-- The pick timer starts (R263). -/
def withTimer (s : State) (t : Tracker) : Tracker := { t with deadline := some (s.now + vTmo t.ver) }

/-- Whether partials of a tracker are Oropel partials: SUM in exact mode or of integers, SMERGE in exact mode
(Table 08-6, R327). -/
def oropelForm (v : GrpVer) (exact : Bool) : Bool :=
  match vOp v with
  | .sum => exact || isInt (vIn v)
  | .smerge => exact
  | _ => false

/-- Bytes of a partial element at a length class (Table 08-6). -/
def partWidth (v : GrpVer) (exact : Bool) (L : Nat) : Nat :=
  if oropelForm v exact then 4 * L else if vOp v == .sum || vOp v == .smerge then 4 else 8

/-- The accumulator slots of a pick. -/
def pickSlots (v : GrpVer) (d p : Nat) : Nat := slotsOf v d (pickN v p)

/-- The first slot that a partial names (R254, R296, R327). -/
def partFirst (v : GrpVer) (d p : Nat) (g : GrpPkt) : Nat :=
  if g.short then g.index
  else
    let l := inLayout v d
    let rel := groupOff g.addr - vBuf v
    let row := rel / l.bytes
    if vOp v = .smerge then
      let o := rel % l.bytes
      let k := if o < 16 then 0 else 3 + (o - 16) / unitBytes (vIn v)
      (row - p * pickE v / d) * (d + 3) + k
    else row * l.elems - p * pickE v

/-- The values of a partial's elements as slot contents, none when an element is malformed (R293). -/
def partValues (v : GrpVer) (exact : Bool) (g : GrpPkt) : Option (List Nat) :=
  let w := partWidth v exact g.lclass
  (chunks w g.payload.length g.payload).mapM fun c =>
    if oropelForm v exact then (oropelOf (vOp v == .sum && isInt (vIn v)) g.lclass c).map accBits
    else if w = 4 then some (accBits (decodeFloat fp32 0 (ofLe c)))
    else if (vOp v == .min || vOp v == .max) && !isInt (vIn v) then (f64Of (ofLe c)).map fun _ => ofLe c
    else some (ofLe c)

/-- A partial that is not malformed (R293): its first slot and how many it carries. -/
def partPlace (v : GrpVer) (exact : Bool) (d p : Nat) (g : GrpPkt) : Option (Nat × Nat) :=
  let classOk := if oropelForm v exact then decide (1 ≤ g.lclass ∧ g.lclass ≤ 11) else g.lclass == 0
  let w := partWidth v exact g.lclass
  let n := g.payload.length / max 1 w
  let first := partFirst v d p g
  if classOk && g.payload.length % max 1 w == 0 && decide (0 < n) && decide (vBuf v ≤ groupOff g.addr)
      && decide (g.short ∨ (p * pickE v ≤ (groupOff g.addr - vBuf v) / (inLayout v d).bytes * (inLayout v d).elems))
      && decide (first + n ≤ pickSlots v d p) && (partValues v exact g).isSome then some (first, n)
  else none

/-- Elements that `n` slots from `first` count as arrived: the O slots of SMERGE (R327). -/
def slotElems (v : GrpVer) (d first n : Nat) : Nat :=
  if vOp v = .smerge then ((upTo n).filter fun i => decide (3 ≤ (first + i) % (d + 3))).length else n

/-! ### Descriptors of the tracker logic -/

/-- Words 0x00 and 0x04 of a tracker's descriptor (Table 09-3). -/
def trkDesc (s : State) (i : Nat) (t : Tracker) (dop src lclass stage w2 : Nat) : Desc :=
  let v := t.ver
  let e := s.fld (F.CTX_EGR_smg_dexp t.ctx)
  { w0 := BitVec.ofNat 32 (dop * 2 ^ 27 + src * 2 ^ 25 + t.ctx * 4096 + i % 4096)
    w1 := operatorCode (vOp v) ++ formatCode (vIn v) ++ formatCode (vOut v) ++ BitVec.ofNat 4 lclass ++ bit1 (!t.exact)
      ++ bit1 (vStoch v) ++ bit1 (vRq v) ++ bit1 (vNorm v) ++ BitVec.ofNat 2 stage ++ BitVec.ofNat 4 e ++ 0#6
    w2 := BitVec.ofNat 32 w2, w3 := BitVec.ofNat 32 t.pick, trk := i, run := t.run }

/-- Where a tracker that is not the root sends its partial: stage, row, column (R254). -/
def partTarget (s : State) (t : Tracker) : Nat × Nat × Nat :=
  let r := (treeOf t.ver t.pick).2
  if t.line then (2, r.1, r.2)
  else if t.treeB then (1, r.1, ownCol s) else (1, ownRow s, r.2)

/-- FULL: the timer stops and the emission starts (R264); a tracker recorded on a draining shuttle is forwarded first,
and its emission waits for DRAIN (R345). -/
def startEmission (i : Nat) (t : Tracker) (s : State) : State :=
  let q := (physOf s t.home).getD t.phys
  let moved := q != t.phys
  let t := { t with st := .emit, deadline := none, draining := moved }
  let s := s.setTrk i (some t)
  let d :=
    if t.root then trkDesc s i t 3 0 0 3 0
    else
      let g := partTarget s t
      trkDesc s i t 2 0 0 g.1 (g.2.1 * 2 ^ 27 + g.2.2 * 2 ^ 22)
  let s := pushDesc q { d with hold := moved } s
  if moved then pushDesc t.phys (trkDesc s i t 4 2 0 0 (q % 136)) s else s

/-! ### Inputs -/

/-- An input discarded at its tracker returns its credits at once. -/
def dropInput (x : Input) (s : State) : State :=
  if x.port < 512 then giveCredits x.port (qOf x.pkt) (nLuOf x.pkt) s else s

/-- Adds an accepted input: one ADD descriptor (R316); arrived reaching expected is FULL. -/
def addInput (i : Nat) (t : Tracker) (x : Input) (g : GrpPkt) (first count elems : Nat) (s : State) : State :=
  let t := { t with arrived := t.arrived + elems }
  let s := s.setTrk i (some t)
  let d := trkDesc s i t 1 0 g.lclass g.stage (first % 2 ^ 14 * 2 ^ 16 + (count - 1) % 2 ^ 14)
  let s := pushDesc t.phys { d with pkt := some x.pkt, first := first,
                                    credit := some (x.port, qOf x.pkt, nLuOf x.pkt) } s
  if t.arrived = t.expected then startEmission i t s else s

/-- The home shuttle of a pick (R258, R259). -/
def homeOf (s : State) (ctx g p : Nat) : Option Nat :=
  s.grp.homeTab[(p * 2647 + g * 1021 + ctx * 1706 + s.fld F.GLB_GRP_HOME_salt) % 4096]?

/-- The lowest free tracker of a die; none when all 4,096 are in use (R552). -/
def freeIndex (s : State) (die : Nat) : Option Nat :=
  ((upTo 4096).find? fun i => (s.trkE (die * 4096 + i)).isNone).map (die * 4096 + ·)

/-- A tracker as it opens under version `v`, before its sheets (Table 07-5). -/
def newTracker (s : State) (e : Nat) (v : GrpVer) (ctx g p home phys : Nat) : Tracker :=
  let r := rolesOf s v p
  withTimer s
    { ctx := ctx, group := g, pick := p, entry := e, ver := v, exact := !vFixed v || s.flag F.GLB_DET_CTL_strict,
      treeB := (treeOf v p).1, leaf := r.1, line := r.2.1, root := r.2.2, home := home, phys := phys, sheets := [],
      expected := inputCount s v p * pickN v p, st := .acc, run := s.grp.nextRun }

/-- Slots that start at other than 0 take their initial value (Table 09-6, R324). -/
def initSlots (t : Tracker) (s : State) : State :=
  let d := smgD s t.ctx
  let per := slotsPerSheet t.ver
  let w := slotBytes t.ver
  let s := forEach t.sheets (fun sh s => zeroRange (sheetKey t.phys sh 0) (sheetKey t.phys sh 0 + 4096) s) s
  forEach (upTo (pickSlots t.ver d t.pick)) (fun j s =>
    if slotInit t.ver d j = 0 then s
    else writeBytes State.setSheetByte (sheetKey t.phys (nth t.sheets (j / per)) (j % per * w))
      (leBytes w (slotInit t.ver d j)) s) s

/-- What an input is to a version: the member's slot bit of a contribution, or a partial's sender accepted; `none`: not
accepted (R262). -/
def acceptedAs (s : State) (v : GrpVer) (x : Input) (g : GrpPkt) (p : Nat) : Option (Option Nat) :=
  if g.stage = 0 then
    match localOf s x.port with
    | some k => ((members s v).find? fun m => m.local_ == k).map fun m => some m.bit
    | none => none
  else
    let d := s.pdisc x.port
    if isInput s v p d.peerRow d.peerCol then some none else none

/-- An input that is not accepted (Table 07-6): NOT_MEMBER to a contributor, or one stray partial. -/
def notAccepted (x : Input) (g : GrpPkt) (p : Nat) (s : State) : State :=
  let s := dropInput x s
  if g.stage = 0 then
    originate x.port (pcpl (vResQ x.ver) (pickAddr x.ver (smgD s g.ctx) g.ctx (groupId g.addr) p) .access 5
      (treeOf x.ver p).1 p (vEpoch x.ver) 0 0) s
  else s.bump F.GLB_GRP_STRAY_CNT_count

/-- The slots and elements of an input under a tracker's version; none for a malformed partial (R293). -/
def inputPlace (s : State) (v : GrpVer) (exact : Bool) (x : Input) (g : GrpPkt) (p : Nat) : Option (Nat × Nat × Nat) :=
  let d := smgD s g.ctx
  if g.stage = 0 then
    match contribElems x.ver d g with
    | .ok (i, k, _) =>
      let first := i - p * pickE x.ver
      if vOp v = .smerge then some (first / d * (d + 3), slotsOf v d k, k) else some (first, k, k)
    | .error _ => some (0, 0, 0)
  else (partPlace v exact d p g).map fun fc => (fc.1, fc.2, slotElems v d fc.1 fc.2)

/-- The outcome of an input that finds no free tracker (R552). -/
def noTracker (x : Input) (g : GrpPkt) (v : GrpVer) (p : Nat) (s : State) : State :=
  let s := (dropInput x s).bump (F.CTX_REAM_FAIL_CNT_count g.ctx)
  if g.stage = 0 then
    originate x.port (pcpl (vResQ v) (pickAddr v (smgD s g.ctx) g.ctx (groupId g.addr) p) .unreach 4 (treeOf v p).1 p
      (vEpoch v) 0 0) s
  else s

/-- A malformed partial is discarded whole (R293). -/
def malformed (x : Input) (s : State) : State :=
  raiseFor Cause.orpBad (locPort x.port) (grpPkt x.pkt).ctx ((dropInput x s).bump F.GLB_ORP_BAD_CNT_count)

/-- IN at a FREE tracker (Table 07-6). -/
def inFree (x : Input) (g : GrpPkt) (p : Nat) (s : State) : State :=
  let grp := groupId g.addr
  let v := (s.grpE x.entry).active
  match (if vValid v then acceptedAs s v x g p else none) with
  | none => notAccepted x g p s
  | some who =>
    let exact := !vFixed v || s.flag F.GLB_DET_CTL_strict
    match inputPlace s v exact x g p with
    | none => malformed x s
    | some (first, count, elems) =>
      let home := homeOf s g.ctx grp p
      let ph := home.bind (physOf s)
      let L := home.getD 0
      match freeIndex s (L / 128) with
      | none => noTracker x g v p s
      | some i =>
        let t := newTracker s x.entry v g.ctx grp p L (ph.getD (L / 128 * 136))
        let t := match who with | some b => { t with contrib := 2 ^ b } | none => t
        let s := { s with grp := { s.grp with nextRun := s.grp.nextRun + 1 } }
        let need := sheetsOf v (smgD s g.ctx) (pickN v p)
        match (if ph.isSome then takeSheets L g.ctx need s else none) with
        | some (sheets, s) =>
          let t := { t with sheets := sheets }
          let s := initSlots t s
          if t.expected < elems then
            let s := raiseFor Cause.grpOvercount (locGroup g.ctx grp) g.ctx ((dropInput x s).bump F.GLB_GRP_OVER_CNT_count)
            let r := tell (contributors s t) 6 0 t (freeSheets i t s)
            showEntry x.entry (r.2.setTrk i (some { r.1 with st := .failed, fail := 6, sheets := [] }))
          else showEntry x.entry (addInput i t x g first count elems s)
        | none =>
          let s := (dropInput x s).bump (F.CTX_REAM_FAIL_CNT_count g.ctx)
          let r := tell (contributors s t) 4 0 t s
          showEntry x.entry (r.2.setTrk i (some { r.1 with st := .failed, fail := 4 }))

/-- The excess row of ACC (Table 07-6): the tracker fails with OVERCOUNT. -/
def overcount (i : Nat) (t : Tracker) (s : State) : State :=
  let s := raiseFor Cause.grpOvercount (locGroup t.ctx t.group) t.ctx (s.bump F.GLB_GRP_OVER_CNT_count)
  let r := tell (contributors s t) 6 0 t (freeSheets i t s)
  r.2.setTrk i (some { r.1 with st := .failed, fail := 6, sheets := [] })

/-- IN at an open tracker (Table 07-6). -/
def inOpen (i : Nat) (t : Tracker) (x : Input) (g : GrpPkt) (s : State) : State :=
  match acceptedAs s t.ver x g t.pick with
  | none => notAccepted x g t.pick s
  | some who =>
    match inputPlace s t.ver t.exact x g t.pick with
    | none => malformed x s
    | some (first, count, elems) =>
      let t := match who with
        | some b => if bitOf t.contrib b then t else { t with contrib := t.contrib + 2 ^ b }
        | none => t
      match t.st with
      | .acc =>
        if t.expected < t.arrived + elems then overcount i t (dropInput x s)
        else addInput i t x g first count elems s
      | .failed =>
        let r := tell (match who with | some b => (trkMembers s t).filter (·.bit == b) | none => []) t.fail 0 t (dropInput x s)
        r.2.setTrk i (some r.1)
      | .emit | .wait | .write =>
        raiseFor Cause.grpOvercount (locGroup t.ctx t.group) t.ctx
          (((dropInput x s).setTrk i (some t)).bump F.GLB_GRP_OVER_CNT_count)

/-- The pick that an input names. -/
def inputPick (s : State) (x : Input) (g : GrpPkt) : Nat :=
  if g.stage = 0 then
    match contribElems x.ver (smgD s g.ctx) g with | .ok (_, _, p) => p | .error _ => 0
  else g.pick

/-- IN: the i-th input in transit reaches its tracker, unless it waits for its context shaper (R233). -/
def inArrive (i : Nat) (s : State) : State :=
  match s.grp.transit[i]? with
  | none => s
  | some x =>
    if x.shaped != 0 then s else
    let s := { s with grp := { s.grp with transit := s.grp.transit.eraseIdx i } }
    let g := grpPkt x.pkt
    let p := inputPick s x g
    match findTrk s g.ctx (groupId g.addr) p with
    | some (t, r) => inOpen t r x g s
    | none => inFree x g p s

/-! ### Result stores that have not been enqueued -/

/-- A packet is a result store of a tracker (Table 07-3). -/
def isStoreOf (s : State) (t : Tracker) (pk : Pkt) : Bool :=
  match pk with
  | .data p =>
    p.op == .store && p.form == .direct && p.ctx.toNat == t.ctx && p.src.toNat == addrEp p.address
      && (trkMembers s t).any fun m =>
        let d := smgD s t.ctx
        let lo := m.res + (outLayout t.ver d).size (t.pick * pickE t.ver)
        epId s m.local_ == p.src.toNat && decide (lo ≤ addrOff p.address)
          && decide (addrOff p.address < lo + (outLayout t.ver d).size (pickN t.ver t.pick))
  | .ctl _ => false

/-- A packet that a tracker sent: its partial or result. -/
def isOutOf (s : State) (t : Tracker) (pk : Pkt) : Bool :=
  let g := grpPkt pk
  (match pk with
   | .data p => p.op == .acc && p.ssw && p.src == ownName s
   | .ctl c => c.ckind == 1#5)
    && g.stage != 0 && g.ctx == t.ctx && groupId g.addr == t.group && g.pick == t.pick

/-- A copy that the tracker's shuttle wrote of its partial or result. -/
def outCopy (s : State) (t : Tracker) (c : Copy) : Bool := c.igPort == 0x3FF && isOutOf s t c.pkt

/-- Some copy that waits for admission or in a crossbar queue satisfies `f`. -/
def waitingCopy (s : State) (f : Copy → Bool) : Bool :=
  (s.core.wait.any fun x => x.2.any fun w => w.copies.any f) || s.core.xq.any fun x => x.2.any f

/-- A held packet that the tracker's shuttle wrote. -/
def heldOut (s : State) (t : Tracker) (h : Held) : Bool := h.port == 0x3FF && isOutOf s t h.target.pkt

/-- A tracker in EMIT sends no packet of its emission that is not enqueued yet; one in WRITE enqueues no further result store
(Table 07-6; log 95). -/
def stopOut (t : Tracker) (s : State) : State :=
  match t.st with
  | .write => dropWaiting (fun c => isStoreOf s t c.pkt) s
  | .emit =>
    removeHeld (heldOut s t)
      (dropWaiting (fun c => outCopy s t c || (c.igPort == 0x3FF && isStoreOf s t c.pkt)) s)
  | _ => s

/-! ### Commit, timers, aborts -/

/-- The result bytes that a tracker has seen, in ascending order of place. -/
def resultBytes (t : Tracker) : List Byte := t.results.flatMap (·.2)

/-- The check value of a tracker's result (R358, R359). -/
def checkValue (t : Tracker) : Word := crc32c (resultBytes t)

/-- The last result store of a tracker in WRITE has been enqueued (R266). -/
def commitReady (s : State) (t : Tracker) : Bool :=
  t.st == .write && (resultBytes t).length == (outLayout t.ver (smgD s t.ctx)).size (pickN t.ver t.pick)
    && !waitingCopy s (fun c => isStoreOf s t c.pkt)

/-- COMMIT: PCPL DONE to every local member; the tracker frees (R266). -/
def commitTrk (i : Nat) (t : Tracker) (s : State) : State :=
  let r := tell (trkMembers s t) 0 (checkValue t) t s
  freeTrk i t r.2

/-- Commits every tracker that is ready. -/
def commits (s : State) : State :=
  forEach s.grp.trk (fun x s =>
    match x.2 with
    | some t => if commitReady s t then commitTrk x.1 t s else s
    | none => s) s

/-- A tracker ends in ACC, EMIT, WAIT or WRITE with an outcome for its members (the ABORT and TMO rows). -/
def endTrk (i : Nat) (t : Tracker) (outcome : Nat) (s : State) : State :=
  let ms := if t.st == .acc then contributors s t else if t.st == .failed then [] else trkMembers s t
  let s := freeSheets i t (stopOut t s)
  freeTrk i t (tell ms outcome 0 t s).2

/-- TMO: the pick timer has expired (Table 07-6). Every other event of the cycle in which it expires comes first, so it acts from
the next cycle on (R265). -/
def trkTimeout (i : Nat) (s : State) : State :=
  match s.trkE i with
  | none => s
  | some t =>
    match t.deadline with
    | none => s
    | some due =>
      if s.now ≤ due then s
      else if t.st == .failed then freeTrk i t s
      else if t.st == .emit then s
      else (endTrk i t 3 s).bump (F.CTX_PICK_TMO_CNT_count t.ctx)

/-! ### Stragglers (R273) -/

/-- A tracker in ACC holds an input from another local member and none from the one on local port `k`, each under the tracker's
own version, whose slots may differ from another version's (R248). -/
def lagsBehind (s : State) (t : Tracker) (k : Nat) : Bool :=
  let by_ := (contributors s t).map (·.local_)
  t.st == .acc && !by_.isEmpty && !by_.contains k

/-- lag(m) of the member of an entry on local port `k`. -/
def lagOf (s : State) (e k : Nat) : Nat :=
  (s.grp.trk.filter fun x => match x.2 with
    | some t => t.entry == e && lagsBehind s t k
    | none => false).length

/-- Key of a member's lag. -/
def lagKey (e slot : Nat) : Nat := e * 131072 + slot

/-- The lag record of a member. -/
def lagRec (s : State) (k : Nat) : Option Lag := Sparse.get (fun _ => none) s.grp.lag k

/-- Brings the lag records of an entry up to date. -/
def followLag (e : Nat) (s : State) : State :=
  let v := (s.grpE e).active
  let limit := bits (vw v 13) 0 16
  forEach (members s v) (fun m s =>
    let k := lagKey e m.slot
    let high := bits (vw v 13) 16 16 != 0 && decide (limit < lagOf s e m.local_)
    let r := if high then some ((lagRec s k).getD ⟨s.now, false⟩) else none
    { s with grp := { s.grp with lag := Sparse.put (fun _ => none) s.grp.lag k r } }) s

/-- Brings every lag record up to date. -/
def followLags (s : State) : State :=
  let open_ : List Nat := s.grp.trk.filterMap fun (x : Nat × Option Tracker) => x.2.map (·.entry)
  let known : List Nat := s.grp.lag.map fun (x : Nat × Option Lag) => x.1 / 131072
  forEach (open_ ++ known).eraseDups followLag s

/-- STRAGGLER: lag(m) has stayed above the limit for strag_time (R273). -/
def stragglerAt (e slot : Nat) (s : State) : State :=
  let v := (s.grpE e).active
  let t := bits (vw v 13) 16 16
  match lagRec s (lagKey e slot), groupOf s e, (members s v).find? (·.slot == slot) with
  | some r, some (ctx, g), some m =>
    if t = 0 ∨ r.raised ∨ s.now < r.since + t * 1000 then s
    else
      let s := { s with grp := { s.grp with lag := Sparse.put (fun _ => none) s.grp.lag (lagKey e slot) (some { r with raised := true }) } }
      let s :=
        if s.flag F.GLB_GRP_STRAG_LOG0_valid then s
        else
          let s := s.wr R.GLB_GRP_STRAG_LOG0 (BitVec.ofNat 32 (2 ^ 31 + ctx * 2 ^ 14 + g))
          s.wr R.GLB_GRP_STRAG_LOG1 (BitVec.ofNat 32 (epId s m.local_ * 2 ^ 17 + slot))
      raiseFor Cause.grpStraggler (locGroup ctx g) ctx s
  | _, _, _ => s

end Sys2Proof.Machine
end

