-- ==== Sys2Proof/Machine/Reduce.lean ====
section
/-! DEFINITION. Descriptors of the tracker logic at a shuttle (files 08 to 10): ADD, PART, RESULT, FORWARD, DRAIN, the
packets of partials and results (R254 to R256, R292, R296), the loaded context (R334), SENT, watermarks (R358 to R365). -/

namespace Sys2Proof.Machine

/-! ### Slots in sheets (R260) -/

/-- The memory key of slot `j` of a tracker. -/
def slotKey (t : Tracker) (j : Nat) : Nat :=
  sheetKey t.phys (nth t.sheets (j / slotsPerSheet t.ver)) (j % slotsPerSheet t.ver * slotBytes t.ver)

/-- Slot `j`. -/
def slotGet (s : State) (t : Tracker) (j : Nat) : Nat := ofLe (readBytes s.sheetByte (slotKey t j) (slotBytes t.ver))

/-- A shuttle reads `n` slots from `j` (R315); the answer is true when it finds an error that it cannot correct. -/
def readSlots (t : Tracker) (j n : Nat) (s : State) : Bool × State :=
  (upTo n).foldl (fun x i => let y := readSheets (slotKey t (j + i)) (slotBytes t.ver) x.2; (x.1 || y.1, y.2)) (false, s)

/-- Combines a value into slot `j`; an overflow counts (R286). -/
def slotAdd (t : Tracker) (d j x : Nat) (s : State) : State :=
  let r := slotCombine t.ver d j (slotGet s t j) x
  let s := writeBytes State.setSheetByte (slotKey t j) (leBytes (slotBytes t.ver) r.1)
    (clearWords (slotKey t j) (slotBytes t.ver) s)
  if r.2 then s.bump F.GLB_NUM_OVF_CNT_count else s

/-! ### ADD -/

/-- The slot values of one softmax contribution row (R325, R326). -/
def smgRow (f : Format) (row : List Byte) : List Nat :=
  let word (a : Nat) : Val := decodeFloat fp32 0 (wordAt row a).toNat
  let ref := word 4
  let w := smgWeight (word 0) ref
  (ref :: ref :: mulFp32 (word 8) w :: (decodeElems f (row.drop 16)).map fun o => mulFp32 o w).map accBits

/-- The slot values of a contribution's payload (R282, R295, R321, R323). -/
def contribValues (v : GrpVer) (d : Nat) (g : GrpPkt) : List Nat :=
  match vOp v with
  | .sum => (decodeElems g.fmt g.payload).map accBits
  | .smerge => (chunks (inLayout v d).bytes g.payload.length g.payload).flatMap (smgRow g.fmt)
  | .min | .max =>
    if isInt g.fmt then
      (chunks (unitBytes g.fmt) g.payload.length g.payload).map fun c =>
        (signedOf (8 * unitBytes g.fmt) (ofLe c) % 2 ^ 64).toNat
    else (decodeElems g.fmt g.payload).map f64Bits
  | _ => (chunks (unitBytes g.fmt) g.payload.length g.payload).map ofLe

/-- The slot values of an input. -/
def inputValues (v : GrpVer) (exact : Bool) (d : Nat) (g : GrpPkt) : List Nat :=
  if g.stage = 0 then contribValues v d g else (partValues v exact g).getD []

/-- The tracker that a descriptor serves, when its run is still open. -/
def trkOf (s : State) (d : Desc) : Option Tracker :=
  match s.trkE d.trk with
  | some t => if t.run = d.run then some t else none
  | none => none

/-- An error that a descriptor of a tracker cannot correct ends the descriptor, and the tracker as the ABORT rows (R446). -/
def eccEnd (i : Nat) (t : Tracker) (s : State) : State := endTrk i t 2 s

/-- ADD: the shuttle combines an input into its tracker's slots (Table 09-4); a slot outside the tracker's sheets is an
isolation refusal that ends the tracker (R313). -/
def addAt (p : Nat) (s : State) : State :=
  match inProgress s p [1] (fun d => dSrc d != 1) with
  | none => s
  | some (i, d) =>
    match trkOf s d, d.pkt with
    | some t, some pk =>
      let dd := smgD s t.ctx
      let vals := inputValues t.ver t.exact dd (grpPkt pk)
      let s := dropDesc p i s
      if t.sheets.length ≤ (d.first + vals.length - 1) / slotsPerSheet t.ver then
        overcount d.trk t (raiseFor Cause.shtIso (locSht p) t.ctx (s.bump (F.SHT_ISO_CNT_count p)))
      else
        let x := readSlots t d.first vals.length s
        if x.1 then eccEnd d.trk t x.2
        else
          let s := x.2.onSht p fun r => { r with addends := r.addends + vals.length }
          forEach vals.zipIdx (fun x s => slotAdd t dd (d.first + x.2) x.1 s) s
    | _, _ => dropDesc p i s

/-! ### Packets between switches -/

/-- The stream of a group's packets from this switch (R156). -/
def groupHash (s : State) (v : GrpVer) (ctx g : Nat) : Nat :=
  streamHash s ⟨(ownName s).toNat, vPartQ v, 2, ctx * 16384 + g⟩

/-- A partial or result packet between switches (R254, R255, R276, R296). -/
def groupPacket (s : State) (t : Tracker) (stage lclass index : Nat) (f : Format) (addr : BitVec 64) (pay : List Byte) : Pkt :=
  let v := t.ver
  if vShort v then
    let word := wordBytes (BitVec.ofNat 32 (lclass * 2 ^ 28 + index % 64))
    let body := if stage = 3 then pay else word ++ pay
    let ks := (operatorCode (vOp v)).toNat * 4096 + (formatCode f).toNat * 256 + stage * 64 + ofBool t.treeB * 32
    .ctl (mkCtl 1 (vPartQ v) ks (addr.extractLsb' 32 32) (addr.extractLsb' 0 32) (body.length - 1) body)
  else
    .data { blankPacket with
      form := .direct, op := .acc, queue := BitVec.ofNat 3 (vPartQ v), ord := true, ssw := true, src := ownName s,
      lenM1 := BitVec.ofNat 12 (pay.length - 1), ctx := BitVec.ofNat 12 t.ctx, operator := vOp v, format := f,
      address := addr, epoch := BitVec.ofNat 16 (vEpoch v), tree := t.treeB, stage := BitVec.ofNat 2 stage,
      lclass := BitVec.ofNat 4 lclass, pick := BitVec.ofNat 23 t.pick, payload := pay }

/-! ### PART -/

/-- Units that a cut never splits, of some slots and a class each, cut into packets of at most `cap` bytes (R292): the
slots and the class of each packet. -/
def cutUnits (cap : Nat) : List (Nat × Nat) → Option (Nat × Nat) → List (Nat × Nat)
  | [], none => []
  | [], some c => [c]
  | u :: rest, none => cutUnits cap rest (some u)
  | u :: rest, some c =>
    let n := c.1 + u.1
    let L := max c.2 u.2
    if cap < n * 4 * L then c :: cutUnits cap rest (some u) else cutUnits cap rest (some (n, L))

/-- The sizes in slots of the units of a pick's partial: 32 for MX data packets, a softmax row's first four slots
together, otherwise 1 (R292, R327). -/
def partUnits (v : GrpVer) (d n : Nat) : List Nat :=
  if vOp v = .smerge then (upTo (n / (d + 3))).flatMap fun _ => 4 :: List.replicate (d - 1) 1
  else if isMx (vIn v) && !vShort v then List.replicate (n / 32) 32
  else List.replicate n 1

/-- The largest class among classes `[a, a + n)`. -/
def maxClass (cls : List Nat) (a n : Nat) : Nat := ((cls.drop a).take n).foldl max 1

/-- Starts of consecutive pieces of the given sizes. -/
def starts : Nat → List Nat → List Nat
  | _, [] => []
  | a, n :: rest => a :: starts (a + n) rest

/-- The group address of slot `j` of a pick's partial (R254, R327). -/
def partAddr (v : GrpVer) (d ctx g p j : Nat) : BitVec 64 :=
  if vOp v = .smerge then
    let k := j % (d + 3)
    elemAddr v d ctx g (p * pickE v + j / (d + 3) * d) + BitVec.ofNat 64 (if k = 0 then 0 else 16 + (k - 3) * unitBytes (vIn v))
  else elemAddr v d ctx g (p * pickE v + j)

/-- One partial element at class L: its bytes and whether it overflowed FP32 (R288 to R295). -/
def partElem (t : Tracker) (L raw : Nat) : List Byte × Bool :=
  if oropelForm t.ver t.exact then (oropelBytes L (accOf raw), false)
  else if isWide8 t.ver then
    let c := fp32Partial (accOf raw)
    (leBytes 4 c.code, c.ovf)
  else (leBytes 8 raw, false)

/-- The packets of a tracker's partial: first slot, class, payload; and the overflows. -/
def partPackets (s : State) (t : Tracker) : List (Nat × Nat × List Byte) × Nat :=
  let d := smgD s t.ctx
  let n := pickSlots t.ver d t.pick
  let raws := (upTo n).map (slotGet s t)
  let oro := oropelForm t.ver t.exact
  let cls := raws.map fun r => if oro then classOf (accOf r) else if isWide8 t.ver then 1 else 2
  let sizes := partUnits t.ver d n
  let units := (List.zip (starts 0 sizes) sizes).map fun x => (x.2, maxClass cls x.1 x.2)
  let cuts := cutUnits (if vShort t.ver then 44 else 4096) units none
  let elems := List.zip (starts 0 (cuts.map (·.1))) cuts
  let packs := elems.map fun x =>
    let es := ((raws.drop x.1).take x.2.1).map (partElem t x.2.2)
    (x.1, (if oro then x.2.2 else 0), es.flatMap (·.1), (es.filter (·.2)).length)
  (packs.map fun x => (x.1, x.2.1, x.2.2.1), (packs.map fun x => x.2.2.2).sum)

/-- PART: the shuttle emits its tracker's partial to the switch that the descriptor names (Table 09-4). -/
def partAt (p : Nat) (s : State) : State :=
  match inProgress s p [2] (fun d => dSrc d != 1) with
  | none => s
  | some (i, d) =>
    let s := dropDesc p i s
    match trkOf s d with
    | none => s
    | some t =>
      let dd := smgD s t.ctx
      let x := readSlots t 0 (pickSlots t.ver dd t.pick) s
      if x.1 then eccEnd d.trk t x.2 else
      let s := x.2
      let r := bits d.w2.toNat 27 5
      let c := bits d.w2.toNat 22 5
      let ps := partPackets s t
      let h := groupHash s t.ver t.ctx t.group
      let s := s.bumpBy F.GLB_NUM_OVF_CNT_count ps.2
      let stage := bits d.w1.toNat 10 2
      let s := forEach ps.1 (fun x s =>
        sendToward true (groupPacket s t stage x.2.1 x.1 (vIn t.ver) (partAddr t.ver dd t.ctx t.group t.pick x.1) x.2.2) h r c s) s
      s.setTrk d.trk (some { t with emitted := true })

/-! ### The loaded context (R334 to R336) -/

/-- A RESULT of a context that is not loaded loads its matrix slot and its CTX_EGR fields. -/
def loadContext (p ctx : Nat) (s : State) : State :=
  if s.flag (F.SHT_STATUS_ctx_vld p) && s.fld (F.SHT_STATUS_ctx p) == ctx then s
  else
    let slot := s.fld (F.CTX_EGR_mtx ctx)
    let s := s.onSht p fun r => { r with
      egr := s.rd (R.CTX_EGR ctx), mtx := (upTo 1024).map fun k => s.rd (R.GLB_RQ_MTX slot k) }
    let s := (s.setFlag (F.SHT_STATUS_ctx_vld p) true).setFld (F.SHT_STATUS_ctx p) ctx
    s.bump (F.SHT_CTXSW_CNT_count p)

/-- The constant 149, less the scale of a block rescale (R331). -/
def rescaleUnit (egr : Word) (v : GrpVer) : Int :=
  let scale := signedOf 7 (bits egr.toNat 24 7)
  if egr.getLsbD 31 && vOp v != .smerge && !isInt (vIn v) then 149 - scale else 149

/-! ### RESULT -/

/-- A result as units that no packet splits, with its overflows, NaN elements and mismatched rows. -/
structure Formed where
  units : List (List Byte) := []
  ovf : Nat := 0
  nan : Nat := 0
  ref : Nat := 0
  deriving DecidableEq, Repr

/-- Appends to a result. -/
def Formed.add (f : Formed) (unit : List Byte) (ovf nan ref : Nat) : Formed :=
  { units := f.units ++ [unit], ovf := f.ovf + ovf, nan := f.nan + nan, ref := f.ref + ref }

/-- The rounding of element `j` with a use (R299, R305, R330). -/
def drawOf (t : Tracker) (use j : Nat) : Rnd :=
  if vStoch t.ver then .stoch (rgen (vSeed t.ver) t.ctx t.group t.pick j use).toNat else .even

/-- A scalar element in a floating-point format. -/
def scalarOut (f : Format) (unit : Int) (rnd : Rnd) (v : Val) : List Byte × Nat × Nat :=
  match formOf f with
  | some (.float x) =>
    let c := toFloat x unit rnd v
    (leBytes (unitBytes f) c.code, ofBool c.ovf, ofBool c.nan)
  | _ => ([], 0, 0)

/-- A value is not finite. -/
def notFinite : Val → Bool
  | .fin _ => false
  | _ => true

/-- A rotated block (R333): its bytes, overflows, NaN elements. -/
def rotateBlock (fm : Form) (unit : Int) (draw : Nat → Rnd) (mtx : List Word) (l : List Val) : List Byte × Nat × Nat :=
  if l.any notFinite then mxBlock fm unit draw l
  else
    let xs := l.map (roundFp32 149)
    let ovf := (xs.filter notFinite).length
    let ys := (upTo 32).map fun i =>
      xs.zipIdx.foldl (fun y x => fmaFp32 y (decodeFloat fp32 0 ((mtx.getD (i * 32 + x.2) 0).toNat)) x.1) (.fin 0)
    let b := mxBlock fm unit draw ys
    (b.1, ovf + b.2.1, b.2.2)

/-- The quotient of a normalised row, rounded once (R328, R329). -/
def quoOut (f : Format) (rnd : Rnd) (q : Quo) : List Byte × Nat × Nat :=
  match q, formOf f with
  | .num v, _ => scalarOut f (Int.ofNat quoPrec + 1) rnd v
  | .overflow neg, some (.float x) => (leBytes (unitBytes f) (signed x neg (ovfCode x)), 1, 0)
  | .overflow _, _ => ([], 0, 0)

/-- One output row of a softmax merge (R328): row `r` of its pick. -/
def smgOut (t : Tracker) (d r : Nat) (slots : List Nat) (f : Formed) : Formed :=
  let v := t.ver
  let get (k : Nat) : Val := accOf (nth slots k)
  let bad := get 0 == .nan || get 1 == .nan || get 0 != get 1
  let val (x : Val) : Val := if bad then .nan else x
  let os := (upTo d).map fun k =>
    let rnd := drawOf t 0 (r * d + k)
    if vNorm v then quoOut (vOut v) rnd (if bad then .num .nan else quotient (get (3 + k)) (get 2))
    else scalarOut (vOut v) 149 rnd (val (get (3 + k)))
  let head :=
    if vNorm v then []
    else [(leBytes 4 (toFloat fp32 149 .even (val (get 0))).code, 0, 0), scalarOut .fp32 149 (drawOf t 1 r) (val (get 2))]
  let all := head ++ os
  f.add (all.flatMap (·.1)) (all.map (·.2.1)).sum (all.map (·.2.2)).sum (ofBool bad)

/-- The result of a pick from its slots, under the loaded CTX_EGR word and matrix (R297 to R304, R328 to R333). -/
def formResult (t : Tracker) (d : Nat) (egr : Word) (mtx : List Word) (raws : List Nat) : Formed :=
  let v := t.ver
  let unit := rescaleUnit egr v
  let real (r : Nat) : Val := if vOp v == .sum then accOf r else (f64Of r).getD .nan
  if vOp v = .smerge then
    (upTo (raws.length / (d + 3))).foldl (fun f r => smgOut t d r ((raws.drop (r * (d + 3))).take (d + 3)) f) {}
  else if isInt (vIn v) then
    let w := unitBytes (vOut v)
    raws.foldl (fun f r => f.add (leBytes w (if vOp v == .sum then r / 2 ^ 149 else r)) 0 0 0) {}
  else if isMx (vOut v) then
    match formOf (vOut v) with
    | some fm =>
      (upTo (raws.length / 32)).foldl (fun f b =>
        let l := ((raws.drop (b * 32)).take 32).map real
        let draw := fun j => drawOf t 0 (b * 32 + j)
        let o := if vRq v then rotateBlock fm unit draw mtx l else mxBlock fm unit draw l
        f.add o.1 o.2.1 o.2.2 0) {}
    | none => {}
  else raws.zipIdx.foldl (fun f x => let o := scalarOut (vOut v) unit (drawOf t 0 x.2) (real x.1); f.add o.1 o.2.1 o.2.2 0) {}

/-- Cuts a result at offset `off` of the output layout into packets (R255): offset and bytes of each. A unit that begins
on a 4 KiB boundary, crosses one, or would exceed 4,096 bytes begins a packet. -/
def cutResult : Nat → List (List Byte) → Option (Nat × List Byte) → List (Nat × List Byte)
  | _, [], none => []
  | _, [], some c => [c]
  | off, u :: rest, none => cutResult (off + u.length) rest (some (off, u))
  | off, u :: rest, some c =>
    let z := u.length
    if off % 4096 = 0 ∨ off / 4096 ≠ (off + z - 1) / 4096 ∨ 4096 < c.2.length + z then
      c :: cutResult (off + z) rest (some (off, u))
    else cutResult (off + z) rest (some (c.1, c.2 ++ u))

/-! ### Multicast of results, result stores -/

/-- The copies of a multicast from port `ig` along a row or a column (R162): one target per peer of the mask but this switch, each
with the entry it looked up (R165, R168), and the number of peers without a valid entry (R164). -/
def castTargets (s : State) (ig : Nat) (alongRow : Bool) (mask h : Nat) (pk : Pkt) : List Target × Nat :=
  let own := if alongRow then ownCol s else ownRow s
  let ts := ((upTo 32).filter fun i => bitOf mask i && i != own).map fun i =>
    let r := if alongRow then ownRow s else i
    let c := if alongRow then i else ownCol s
    (peerPort s alongRow i h).map fun p =>
      { port := p, q := qOf pk, hops := 1, hdr := 0, pkt := pk,
        vers := captured s [if alongRow then R.RTE_ROW_LO i else R.RTE_COL_LO i],
        hold := heldBy s ig (qOf pk) h r c, route := (h, r, c) : Target }
  (ts.filterMap id, (ts.filter (·.isNone)).length)

/-- Copies that could not be sent are counted, with one fault each (R164). -/
def castDrops (n : Nat) (loc : Word) (ctx : Nat) (s : State) : State :=
  forEach (upTo n) (fun _ s => raiseFor Cause.mcUnreach loc ctx (s.bump F.RTE_MC_DROP_CNT_count)) s

/-- The result stores of a result packet from port `ig`, one per local member (R256, Table 07-3); `n` is its payload's size. -/
def storeTargets (s : State) (ig : Nat) (t : Tracker) (off n : Nat) (pay : List Byte) : List Target :=
  (trkMembers s t).filterMap fun m =>
    (localPort s m.local_).map fun port =>
      let ep := epId s m.local_
      localTarget s ig true m.local_ port 1 (.data { blankPacket with
        form := .direct, op := .store, queue := BitVec.ofNat 3 (vResQ t.ver), ord := true, src := BitVec.ofNat 15 ep,
        ctx := BitVec.ofNat 12 t.ctx, lenM1 := BitVec.ofNat 12 (n - 1),
        address := BitVec.ofNat 64 (ep * 2 ^ 48 + (m.res + off) % 2 ^ 48), payload := pay })

/-- Records result bytes by their place in the output layout. -/
def addResult (off : Nat) (pay : List Byte) : List (Nat × List Byte) → List (Nat × List Byte)
  | [] => [(off, pay)]
  | (o, b) :: rest =>
    if off < o then (off, pay) :: (o, b) :: rest
    else if off = o then (off, pay) :: rest
    else (o, b) :: addResult off pay rest

/-- The place in the queue of the RESULT in progress that started first: one that needs a load waits for those in progress
before it (R335). -/
def firstResult (s : State) (p : Nat) : Option (Nat × Desc) :=
  if shtP s p = 0 then
    let l := ((s.sht p).dq.zipIdx.filter fun x => x.1.startAt.isSome && dDop x.1 == 3 && dSrc x.1 != 1).map fun x => (x.2, x.1)
    l.foldl (fun b x => match b with
      | none => some x
      | some y => if x.2.startAt.getD 0 < y.2.startAt.getD 0 then some x else b) none
  else none

/-- RESULT: the root's shuttle forms the result and emits its packets with the result stores of the root's own members
(Table 09-4, R255, R256). -/
def resultAt (p : Nat) (s : State) : State :=
  match firstResult s p with
  | none => s
  | some (i, d) =>
    let s := dropDesc p i s
    match trkOf s d with
    | none => s
    | some t =>
      let s := loadContext p t.ctx s
      let dd := smgD s t.ctx
      let x := readSlots t 0 (pickSlots t.ver dd t.pick) s
      if x.1 then eccEnd d.trk t x.2 else
      let s := x.2
      let raws := (upTo (pickSlots t.ver dd t.pick)).map (slotGet s t)
      let f := formResult t dd (s.sht p).egr (s.sht p).mtx raws
      let s := s.bumpBy F.GLB_NUM_OVF_CNT_count f.ovf
      let s := s.bumpBy F.GLB_NUM_NAN_CNT_count f.nan
      let s := s.bumpBy F.GLB_SMG_REF_CNT_count f.ref
      let packs := cutResult ((outLayout t.ver dd).size (t.pick * pickE t.ver)) f.units none
      let v := t.ver
      let h := groupHash s v t.ctx t.group
      let first := if t.treeB then vw v 7 else vw v 6
      let act := (s.grpE t.entry).active
      let second := if !vValid act then 0 else if t.treeB then vw act 9 else vw act 8
      let s := forEach packs (fun x s =>
        let pk := groupPacket s t 3 0 0 (vOut v) (mkGroupAddr t.ctx t.group x.1) x.2
        let a := castTargets s 0x3FF t.treeB first h pk
        let b := castTargets s 0x3FF (!t.treeB) second h pk
        castDrops (a.2 + b.2) locNone t.ctx (sendOwn (a.1 ++ b.1 ++ storeTargets s 0x3FF t x.1 x.2.length x.2) s)) s
      s.setTrk d.trk (some { t with emitted := true, results := packs, rootEpoch := if vShort v then 0 else vEpoch v })

/-! ### Results at the other switches -/

/-- The open tracker of a result packet takes it: it is in WAIT or WRITE (Table 07-6). -/
def resultTrk (s : State) (g : GrpPkt) : Option (Nat × Tracker) :=
  (findTrk s g.ctx (groupId g.addr) g.pick).filter fun x => x.2.st == .wait || x.2.st == .write

/-- Where a result packet received on a fabric port goes, fixed by its header (R184): the second phase of a first-phase copy under
the active version, and result stores when its tracker takes it (R163, R255, R256); the peers without a valid entry (R164). -/
def resultTargets (s : State) (port : Nat) (pk : Pkt) (n : Nat) : List Target × Nat :=
  let g := grpPkt pk
  let grp := groupId g.addr
  let q := qOf pk
  let v : GrpVer := match entryOf s g.ctx grp with | some e => (s.grpE e).active | none => {}
  let d := s.pdisc port
  let firstPhase := if g.tree then d.peerRow == ownRow s else d.peerCol == ownCol s
  let h := streamHash s ⟨match pk with | .data p => p.src.toNat | .ctl _ => (ownName s).toNat, q, 2, g.ctx * 16384 + grp⟩
  let second := if vValid v && firstPhase then (if g.tree then vw v 9 else vw v 8) else 0
  let cast := castTargets s port (!g.tree) second h pk
  let stores := match resultTrk s g with
    | some (_, t) => storeTargets s port t (groupOff g.addr) n g.payload
    | none => []
  (cast.1 ++ stores, cast.2)

/-- RES: a result packet has arrived whole (Table 07-6); `stores` says that its header found a tracker that takes it. -/
def resultTaken (stores : Bool) (pk : Pkt) (s : State) : State :=
  let g := grpPkt pk
  if stores then
    match resultTrk s g with
    | some (i, t) =>
      let t' := { t with st := .write, results := addResult (groupOff g.addr) g.payload t.results,
                         rootEpoch := if vShort t.ver then 0 else g.epoch }
      s.setTrk i (some (if t.st == .wait then withTimer s t' else t'))
    | none => s
  else
    let v : GrpVer := match entryOf s g.ctx (groupId g.addr) with | some e => (s.grpE e).active | none => {}
    if (findTrk s g.ctx (groupId g.addr) g.pick).isSome || (vValid v && !(members s v).isEmpty) then
      s.bump F.GLB_GRP_RES_DROP_CNT_count
    else s

/-! ### SENT and watermarks -/

/-- Appends a record to the trace ring when it follows the group (R365). -/
def traceFold (t : Tracker) (s : State) : State :=
  let n := s.fld F.WMK_TRC_STATUS_count
  if s.flag F.WMK_TRC_CFG_en && s.fld F.WMK_TRC_CFG_ctx == t.ctx && s.fld F.WMK_TRC_CFG_group == t.group && decide (n < 4096) then
    let s := s.wr (R.WMK_TRC_REC0 n) (BitVec.ofNat 32 (2 ^ 31 + ofBool t.treeB * 2 ^ 30 + t.pick))
    let s := s.wr (R.WMK_TRC_REC1 n) (checkValue t)
    let s := s.wr (R.WMK_TRC_REC2 n) (BitVec.ofNat 32 (vEpoch t.ver))
    let s := s.wr (R.WMK_TRC_REC3 n) (BitVec.ofNat 32 (ftimeNs s))
    (s.setFld F.WMK_TRC_STATUS_count (n + 1)).setFlag F.WMK_TRC_STATUS_full (n + 1 == 4096)
  else s

/-- The fold of a pick into the live watermark of its entry (R360, R361). -/
def watermarkFold (t : Tracker) (s : State) : State :=
  let e := t.entry
  let sum := s.rd (R.WMK_SUM_HI e) ++ s.rd (R.WMK_SUM_LO e) + wmix (checkValue t) t.ctx t.group t.pick
  let s := s.wr (R.WMK_SUM_LO e) (sum.extractLsb' 0 32)
  let s := s.wr (R.WMK_SUM_HI e) (sum.extractLsb' 32 32)
  traceFold t (s.wr (R.WMK_CNT e) (s.rd (R.WMK_CNT e) + 1))

/-- SENT: the last outgoing packet of a tracker in EMIT has been enqueued (Table 07-6). -/
def sentTrk (i : Nat) (s : State) : State :=
  match s.trkE i with
  | none => s
  | some t =>
    if t.st != .emit || !t.emitted || waitingCopy s (outCopy s t) || s.rte.held.any (heldOut s t) then s
    else
      let s := freeSheets i t s
      let s := if t.root then watermarkFold t s else s
      let t := { t with sheets := [] }
      if (trkMembers s t).isEmpty then freeTrk i t s
      else s.setTrk i (some (withTimer s { t with st := if t.root then .write else .wait }))

/-- ABORT: a write of GLB_GRP_ABORT; with go = 1 and no abort in progress the ABORT rows act (R274), after SENT
and COMMIT of the same cycle (R265). -/
def abortGroup (val : Word) (s : State) : State :=
  let s := s.storeReg R.GLB_GRP_ABORT val
  if !bitOf val.toNat 31 || s.flag F.GLB_GRP_ABORT_STATUS_busy then s
  else
    let ctx := s.fld F.GLB_GRP_ABORT_SEL_ctx
    let g := s.fld F.GLB_GRP_ABORT_SEL_group
    let s := s.setFlag F.GLB_GRP_ABORT_STATUS_busy true
    let done (r n : Nat) (s : State) : State := { s with grp := { s.grp with abortAt := some (r, n, s.now) } }
    if s.fld (F.CTX_GRP_grp_cnt ctx) ≤ g then done 3 0 s
    else
      let s := commits (forEach s.grp.trk (fun x s => sentTrk x.1 s) s)
      let hit := s.grp.trk.filterMap fun x => match x.2 with
        | some t => if t.ctx == ctx && t.group == g && (bitOf val.toNat 30 || t.pick == bits val.toNat 0 23)
 then some (x.1, t) else none
        | none => none
      let s := forEach hit (fun x s => endTrk x.1 x.2 2 s) s
      done (if hit.isEmpty then 2 else 1) hit.length s

/-- ABORT_DONE: the abort finishes; the status shows its result (R274). -/
def abortFinish (s : State) : State :=
  match s.grp.abortAt with
  | none => s
  | some (r, n, _) =>
    let s := s.setFlag F.GLB_GRP_ABORT_STATUS_busy false
    let s := s.setFld F.GLB_GRP_ABORT_STATUS_result r
    let s := s.setFld F.GLB_GRP_ABORT_STATUS_count n
    raiseInt 5 { s with grp := { s.grp with abortAt := none } }

/-- SNAP: a snapshot of a group's watermark (R362). -/
def snapWatermark (e : Nat) (s : State) : State :=
  let s := s.wr (R.WMK_SNAP_LO e) (s.rd (R.WMK_SUM_LO e))
  let s := s.wr (R.WMK_SNAP_HI e) (s.rd (R.WMK_SUM_HI e))
  let s := s.wr (R.WMK_SNAP_CNT e) (s.rd (R.WMK_CNT e))
  let s := ((s.wr (R.WMK_SUM_LO e) 0).wr (R.WMK_SUM_HI e) 0).wr (R.WMK_CNT e) 0
  s.setFld (F.WMK_SNAP_SEQ_seq e) ((s.fld (F.WMK_SNAP_SEQ_seq e) + 1) % 65536)

/-- TRACE_RING_ENABLE: a write of WMK_TRC_CFG; en from 0 to 1 empties the ring (R365). -/
def traceRingWrite (val : Word) (s : State) : State :=
  let was := s.flag F.WMK_TRC_CFG_en
  let s := s.storeReg R.WMK_TRC_CFG val
  if !was && s.flag F.WMK_TRC_CFG_en then
    let n := s.fld F.WMK_TRC_STATUS_count
    let s := (s.setFld F.WMK_TRC_STATUS_count 0).setFlag F.WMK_TRC_STATUS_full false
    forEach (upTo n) (fun i s => s.setFlag (F.WMK_TRC_REC0_valid i) false) s
  else s

/-! ### FORWARD and DRAIN (R345) -/

/-- FORWARD: the old shuttle copies its tracker's sheets to the target and sends DRAIN after them. -/
def forwardAt (p : Nat) (s : State) : State :=
  match inProgress s p [4] (fun d => dSrc d == 2) with
  | none => s
  | some (i, d) =>
    let s := dropDesc p i s
    match trkOf s d with
    | none => s
    | some t =>
      let q := p / 136 * 136 + bits d.w2.toNat 0 8
      let x := t.sheets.foldl (fun x sh => let y := readSheets (sheetKey p sh 0) 4096 x.2; (x.1 || y.1, y.2)) (false, s)
      if x.1 then eccEnd d.trk t x.2 else
      let s := forEach t.sheets (fun sh s => copySheets p sh q sh 1 s) x.2
      pushDesc q (trkDesc s d.trk t 5 2 0 0 0) s

/-- DRAIN: the target takes the marker, is the tracker's shuttle from now on, and may start the emission. -/
def drainAt (q : Nat) (s : State) : State :=
  match inProgress s q [5] (fun d => dSrc d == 2) with
  | none => s
  | some (i, d) =>
    let s := dropDesc q i s
    match trkOf s d with
    | none => s
    | some t =>
      let s := s.setTrk d.trk (some { t with phys := q, draining := false })
      let s := s.onSht q fun r => { r with
        dq := r.dq.map fun x => if x.trk == d.trk && x.run == d.run then { x with hold := false } else x }
      startDescs q s

end Sys2Proof.Machine
end

