-- ==== Sys2Proof/Machine/Migration.lean ====
section
/-! DEFINITION. Migrations (R342 to R348), redirect entries, and shuttles whose commands time out or hang (R458, R459). -/

namespace Sys2Proof.Machine

/-- Ends every tracker recorded on a physical shuttle as the ABORT rows do. -/
def abortOn (p : Nat) (s : State) : State :=
  forEach s.grp.trk (fun x s =>
    match x.2 with
    | some t => if t.phys == p then endTrk x.1 t 2 s else s
    | none => s) s

/-- Some tracker is recorded on a physical shuttle. -/
def recordedOn (s : State) (p : Nat) : Bool :=
  s.grp.trk.any fun x => match x.2 with | some t => t.phys == p | none => false

/-- The lines of the coherent sub-window whose home is `L` (Table 02-10). -/
def linesOf (s : State) (L : Nat) : List Nat :=
  (upTo (ceilDiv (cohSize s) 2097152)).flatMap fun k =>
    ((upTo 64).map fun j => (k * 2097152 + L * 4096) / 64 + j).filter fun n => decide (n * 64 < cohSize s)

/-- A line whose directory entry is lost: state I and poisoned; the pending request is answered POISON (R85). -/
def loseLine (n : Nat) (s : State) : State :=
  let d := s.dirE n
  let s := poisonLine n (onDir n (fun d => { noSharers d with st := .i, pend := none, wbSeen := false }) s)
  match d.pend with
  | some r => answer r .poison none s
  | none => s

/-- Poisons every coherent line of `L`. -/
def loseLines (L : Nat) (s : State) : State := forEach (linesOf s L) loseLine s

/-- What waited in a stub reaches its home again: operations in their order, completions and expiries at the directory. -/
def restub (l : List (StubEv × Nat)) (s : State) : State :=
  let rest := (l.map (·.1)).filter fun e => match e with | .op _ => false | _ => true
  forEach rest (fun e s => match e with
    | .op _ => s
    | .cpl p => selfCpl p s
    | .expire n => atHome (lineHome n) (.expire n) (expireLine n) s) (windowBack (stubOps l) s)

/-- What waited in a shuttle's stub reaches its home again. -/
def rearrive (p : Nat) (s : State) : State := restub (s.sht p).stub (s.onSht p fun r => { r with stub := [] })

/-- The number of redirect entries shown. -/
def showRedirects (s : State) : State := s.setFld F.GLB_SHT_MIG_STATUS_redirects s.shts.redirect.length

/-- L's entry of the spare map names physical shuttle `q` (R340, R350): a logical shuttle newly mapped takes its largest
weight. -/
def mapSht (L q : Nat) (s : State) : State :=
  let was := s.flag (F.GLB_SHT_MAP_valid L)
  let s := (s.setFlag (F.GLB_SHT_MAP_valid L) true).setFld (F.GLB_SHT_MAP_phys L) (q % 136)
  let s := (setRole q 1 s).setFld (F.SHT_STATUS_logical q) L
  if was then s else setWeight L (s.fld (F.GLB_SHT_MAP_wmax L)) s

/-- L becomes unmapped (R341). -/
def unmapSht (L : Nat) (s : State) : State := setWeight L 0 (s.setFlag (F.GLB_SHT_MAP_valid L) false)

/-- A migration ends: SWITCHED, busy clears, vector 4 (Table 14-2). -/
def endMigration (s : State) : State :=
  let s := (s.setFlag F.GLB_SHT_MIG_STATUS_busy false).setFld F.GLB_SHT_MIG_STATUS_result 1
  raiseInt 4 { s with shts := { s.shts with mig := none } }

/-- Starts a migration of `L` to physical shuttle `q` (R342). -/
def startMigration (L q : Nat) (force : Bool) (s : State) : State :=
  let s := (s.setFlag F.GLB_SHT_MIG_STATUS_busy true).setFld F.GLB_SHT_MIG_STATUS_result 0
  wakeSht q { s with shts := { s.shts with mig := some { logical := L, target := q, old := physOf s L, force := force } } }

/-- MIGRATION: a write of GLB_SHT_MIG; go = 1 starts a migration or refuses it, and is ignored while busy (R342). -/
def migrate (val : Word) (s : State) : State :=
  let s := s.storeReg R.GLB_SHT_MIG val
  if !bitOf val.toNat 31 || s.flag F.GLB_SHT_MIG_STATUS_busy then s
  else
    let L := bits val.toNat 0 9
    let q := L / 128 * 136 + bits val.toNat 9 8
    let die := L / 128
    if 136 ≤ bits val.toNat 9 8 ∨ shtRole s q ≠ 0 ∨ !dieRuns s die then s.setFld F.GLB_SHT_MIG_STATUS_result 2
    else if s.flag (F.GLB_SHT_MAP_valid L) && decide (8 ≤ (s.shts.redirect.filter fun x => x.1 / 136 == die).length) then
      s.setFld F.GLB_SHT_MIG_STATUS_result 3
    else startMigration L q (bitOf val.toNat 30) s

/-- The switch cycle of a forced migration (R348). -/
def forceSwitch (m : Mig) (s : State) : State :=
  let s := loseLines m.logical s
  let s := match m.old with
    | some p => setRole p 3 (abortOn p s)
    | none => s
  let s := endMigration (mapSht m.logical m.target s)
  match m.old with
  | some p => rearrive p s
  | none => s

/-- The target of a migration has been cleared: its 256 sheets are zero. -/
def clearTarget (m : Mig) (s : State) : State := zeroRange (sheetKey m.target 0 0) (sheetKey m.target 256 0) s

/-- The target of a migration is awake and its clearing can finish. -/
def clearDue (s : State) (m : Mig) : Bool := !m.cleared && shtP s m.target == 0

/-- SHEETS_CLEARED: the target's 256 sheets are zero; the window freeze begins, or the forced switch follows (R343,
R348). The targets of a SHUTTLES panel that are awake are cleared with it. -/
def clearSheets (s : State) : State :=
  let s := forEach (s.shts.panel.filter (clearDue s)) clearTarget
    { s with shts := { s.shts with panel := s.shts.panel.map fun m => if clearDue s m then { m with cleared := true } else m } }
  match s.shts.mig with
  | none => s
  | some m =>
    if clearDue s m then
      let s := clearTarget m s
      let m := { m with cleared := true }
      let s := { s with shts := { s.shts with mig := some m } }
      if m.force then forceSwitch m s else s
    else s

/-- The condition of step 3 of R343: no line of L is transient, and the old shuttle's window port is idle. -/
def switchReady (s : State) (m : Mig) : Bool :=
  m.cleared && !m.force && !(s.fab.dir.any fun x => lineHome x.1 == m.logical && transient x.2)
    && (match m.old with | some p => (s.sht p).stub.isEmpty | none => true)

/-- The window of L moves to the target, its entry names the target, and the old shuttle drains (R343). -/
def switchOne (m : Mig) (s : State) : State :=
  let s := match m.old with
    | some p =>
      let s := (readSheets (sheetKey p 0 0) (s.fld F.GLB_WIN_CFG_win_size * 4096) s).2
      let s := copySheets p 0 m.target 0 (s.fld F.GLB_WIN_CFG_win_size) s
      let s := setRole p 2 s
      showRedirects { s with shts := { s.shts with redirect := s.shts.redirect ++ [(p, m.target)] } }
    | none => s
  mapSht m.logical m.target s

/-- SWITCH_CYCLE: the window moves, L's entry names the target, held operations are released in arrival order (R343). -/
def switchNow (s : State) : State :=
  match s.shts.mig with
  | none => s
  | some m => if switchReady s m then windowBack m.frozen (endMigration (switchOne m s)) else s

/-- Releases the redirect entry of an old shuttle. -/
def dropRedirect (p : Nat) (s : State) : State :=
  showRedirects { s with shts := { s.shts with redirect := s.shts.redirect.filter (·.1 != p) } }

/-- REDIRECT_RELEASE: no tracker remains recorded on a draining shuttle, which becomes SPARE (R347). -/
def releaseRedirect (p : Nat) (s : State) : State :=
  if shtRole s p = 2 && !recordedOn s p then setRole p 0 (dropRedirect p s) else s

/-- 2^cmd_exp µs of a context in ns (R458). -/
def cmdTmoNs (s : State) (ctx : Nat) : Nat := 2 ^ min 20 (s.fld (F.CTX_CMD_TMO_cmd_exp ctx)) * 1000

/-- A tracker ends as the TMO rows of Table 07-6 whatever its state (R458); in EMIT its members are told TIMED_OUT. -/
def timeOutTrk (i : Nat) (t : Tracker) (s : State) : State :=
  if t.st == .failed then freeTrk i t s else (endTrk i t 3 s).bump (F.CTX_PICK_TMO_CNT_count t.ctx)

/-- CMD_TMO: the first descriptor in progress whose command timer has expired is stopped; one that finishes in the cycle in which
it expires has finished, so this acts from the next cycle on (R458). -/
def commandTimeout (p : Nat) (s : State) : State :=
  match (s.sht p).dq.zipIdx.find? fun x => match x.1.startAt with
      | some t => decide (t + cmdTmoNs s (dCtx x.1) < s.now)
      | none => false with
  | none => s
  | some (d, i) =>
    let ctx := dCtx d
    let t := trkOf s d
    let s := raiseFor Cause.cmdTmo (locSht p) ctx ((dropDesc p i s).bump (F.CTX_CMD_TMO_CNT_count ctx))
    if dSrc d = 1 then softDone p 2 s
    else match t with
      | some t => timeOutTrk d.trk t s
      | none => s

/-- The logical shuttle that a physical shuttle carries. -/
def carried (s : State) (p : Nat) : Option Nat := if shtRole s p = 1 then some (s.fld (F.SHT_STATUS_logical p)) else none

/-- A hung shuttle: a descriptor 10 µs past its timer, or a stub operation unanswered for its context's time (R459). -/
def isHung (s : State) (p : Nat) : Bool :=
  ((s.sht p).dq.any fun d => match d.startAt with
    | some t => decide (t + cmdTmoNs s (dCtx d) + 10000 ≤ s.now)
    | none => false)
  || (s.sht p).stub.any fun x => match x.1 with
    | .op r => decide (x.2 + cmdTmoNs s r.p.ctx.toNat ≤ s.now)
    | _ => false

/-- The shuttle is powered off and marked FAILED (R459). -/
def killSht (p : Nat) (s : State) : State :=
  setShtP p 2 (setRole p 3 (s.onSht p fun r => { r with dq := [], stub := [] }))

/-- SHT_HANG: a hung shuttle's work moves to a spare by force, or its logical shuttle becomes unmapped (R459). -/
def shuttleHang (p : Nat) (s : State) : State :=
  if !isHung s p then s
  else
    let s := raise Cause.shtHang (locSht p) s
    let die := p / 136
    match carried s p with
    | none => killSht p (dropRedirect p (abortOn p s))
    | some L =>
      match (upTo 136).find? (fun i => shtRole s (die * 136 + i) == 0) with
      | some i =>
        if s.flag F.FLT_HANG_CFG_auto_mig && s.shts.mig.isNone then
          let stub := (s.sht p).stub
          let s := startMigration L (die * 136 + i) true s
          let s := abortOn p s
          let s := killSht p s
          s.onSht p fun r => { r with stub := stub }
        else
          let stub := (s.sht p).stub
          let s := loseLines L (killSht p (abortOn p (unmapSht L s)))
          restub stub s
      | none =>
        let stub := (s.sht p).stub
        let s := loseLines L (killSht p (abortOn p (unmapSht L s)))
        restub stub s

end Sys2Proof.Machine
end

