-- ==== Sys2Proof/Machine/Lanes.lean ====
section
/-! DEFINITION. Lanes and ports (file 11): training (R379 to R384), electrical idle (R385 to R388), width change
(R391 to R396), removal and re-adding of a lane (R397 to R399), margin scans (R400, R401). -/

namespace Sys2Proof.Machine

/-! ### Training -/

/-- The far end's join mask differs (R382): the intersection, reduced to the lowest lanes in a power-of-two count; lanes
left out go back to READY, the others send their SYNC frames again. -/
def meetMask (p mask : Nat) (s : State) : State :=
  let mine := (s.pln p).joinMask
  let both := (lanesOf p mine).filter fun n => bitOf mask (n - p)
  let keep := both.take (pow2Floor both.length)
  let m := maskOf p keep
  if m = mine then s
  else
    let s := s.onPln p fun l => { l with joinMask := m }
    forEach (lanesOf p mine) (fun n s =>
      if lstate s n = 4 then
        if keep.contains n then sendSync n m 3 s
        else
          let s := s.setFld (F.LNE_STATUS_state n) 3
          s.onLane n fun l => { l with txSync0 := false, rxSync0 := false }
      else s) s

/-- A SYNC frame on a lane in READY or SYNC: the far end's mask is met, or kept until this end joins (R382); sync_cnt = 0 aligns
the lane, and the measured skew shows (R383). -/
def syncFrame (p n mask cnt : Nat) (s : State) : State :=
  let s := if lstate s n = 4 then meetMask p mask s else s.onPln p fun l => { l with farMask := some mask }
  if cnt = 0 then
    let s := s.onLane n fun l => { l with rxSync0 := true }
    s.withFree fun f s => trySync0 p n (s.setFld (F.PRT_LANE_STATUS_skew p) (f % 256))
  else s

/-- The far end's ready bit: a lane in READY that hears ready = 1 is trained (R380). -/
def hearReady (n : Nat) (ready : Bool) (s : State) : State :=
  if ready then
    let s := (s.setFlag (F.LNE_STATUS_far_ready n) true).onLane n fun l => { l with farReadyAt := s.now }
    match portOfLane s n with
    | some p => if lstate s n = 3 then s.onPln p fun l => { l with firstTrained := some (l.firstTrained.getD s.now) } else s
    | none => s
  else
    let s := s.setFlag (F.LNE_STATUS_far_ready n) false
    match portOfLane s n with
    | some p => endFirst p s
    | none => s

/-- A good training frame's effect (R379, R380, R383). -/
def goodFrame (n : Nat) (cdr : Bool) (b : BitVec 128) (s : State) : State :=
  let v := b.toNat
  let st := lstate s n
  let s := s.onLane n fun l => { l with signal := true, txPrecode := bitOf v 5 }
  if st = 1 then
    let s := s.onLane n fun l => { l with marks := l.marks + 1 }
    if cdr && 4 ≤ (s.lane n).marks then s.setFld (F.LNE_STATUS_state n) 2 else s
  else
    let s := hearReady n (bitOf v 4) s
    match portOfLane s n with
    | none => s
    | some p => if bits v 0 4 = 1 ∧ (st = 3 ∨ st = 4) then syncFrame p n (bits v 8 8) (bits v 6 2) s else s

/-- CWLOSS: an ACTIVE lane reports LOSS to the link layer and returns to DETECT (Table 11-6, R384). Its cause, a lost CDR lock
among them, is not told, so CDR lock may be lost with it (R377; log 98). The other lanes of its port stay ACTIVE, and the 40 ms of
R382 run from here for them (log 97). -/
def cwLoss (n : Nat) (s : State) : State :=
  if lstate s n = 5 then
    match portOfLane s n with
    | some p =>
      let inSet := bitOf (s.fld (F.PRT_LANE_STATUS_active p)) (n - p) || bitOf (s.pln p).rxMask (n - p)
      let s := toDetect n s
      let s := s.withFree fun f s => if f % 2 = 1 then s.setFlag (F.LNE_STATUS_cdr_lock n) false else s
      let s := if (portLanes s p).any fun m => lstate s m == 5 then
          s.onPln p fun l => { l with firstTrained := some (l.firstTrained.getD s.now) }
        else s
      if inSet then linkLoss p s else s
    | none => toDetect n s
  else s

/-- CDR lock as a training frame finds it: lock newly declared shows the far end's frequency offset, of up to ±200 ppm, whose value
is free (R377); an ACTIVE lane without it loses codeword lock (R384). -/
def cdrLock (n : Nat) (cdr : Bool) (s : State) : State :=
  if !cdr then
    let s := if lstate s n = 5 then cwLoss n s else s
    s.setFlag (F.LNE_STATUS_cdr_lock n) false
  else if s.flag (F.LNE_STATUS_cdr_lock n) then s
  else
    s.withFree fun f s =>
      (s.setFlag (F.LNE_STATUS_cdr_lock n) true).setFld (F.LNE_STATUS_ppm n) ((f % 25601 + 65536 - 12800) % 65536)

/-- TRAINING_FRAME: a control block whose CRC fails is ignored; a reserved ftype is ignored and counted (R379). -/
def trainingFrame (n : Nat) (cdr : Bool) (b : BitVec 128) (s : State) : State :=
  if lstate s n = 0 then s
  else
    let s := cdrLock n cdr s
    let v := b.toNat
    if crc32c (leBytes 12 (bits v 0 96)) ≠ BitVec.ofNat 32 (bits v 96 32) then
      s.onLane n fun l => { l with marks := 0, signal := true }
    else if 2 ≤ bits v 0 4 then
      match portOfLane s n with
      | some p => s.bump (F.PRT_LANE_PROTO_CNT_count p)
      | none => s
    else goodFrame n cdr b s

/-- FLL: frame lock lost in ADAPT, READY or SYNC returns the lane to DETECT; in DETECT the count starts again. -/
def frameLoss (n : Nat) (s : State) : State :=
  let st := lstate s n
  if st = 2 ∨ st = 3 ∨ st = 4 then toDetect n s
  else if st = 1 then s.onLane n fun l => { l with marks := 0 }
  else s

/-- AD: the adaptation has converged; ready = 1 is sent (Table 11-6). With lock_ctle = 0 the receiver has chosen its ctle, whose
value is free (R378). -/
def adapted (n : Nat) (s : State) : State :=
  if lstate s n = 2 then
    let s := (s.setFld (F.LNE_STATUS_state n) 3).onLane n fun l => { l with ready := true }
    if (s.lane n).eqWord.getLsbD 29 then s
    else s.withFree fun f s => s.onLane n fun l => { l with eqWord := putBits l.eqWord 24 5 f }
  else s

/-- The port joins the lanes of a mask (R382): ACTIVE ones outside it leave, those inside align again on one SYNC frame, READY
ones enter SYNC; a mask that the far end has sent is met at once. -/
def joinLanes (p mask : Nat) (s : State) : State :=
  let s := s.onPln p fun l => { l with joinMask := mask }
  let s := forEach (portLanes s p) (fun n s =>
    if !bitOf mask (n - p) then leaveLane n false s
    else if lstate s n = 5 then sendFrame n 1 0 mask s
    else joinLane p n mask s) s
  let s := joinDone p s
  match (s.pln p).farMask with
  | some far => meetMask p far s
  | none => s

/-- JOIN: all lanes trained, or 40 ms since the first: the lowest trained lanes in a power-of-two count join when the
count is at least min_w, otherwise PORT_WIDTH_LOW (R382). Lanes that stayed ACTIVE when another one of the port was lost join
with the trained ones (log 97). -/
def joinPort (p : Nat) (s : State) : State :=
  if !portOn s p || llState s p != 0 || (portLanes s p).any (fun n => lstate s n == 4) then s
  else
    let ok := (portLanes s p).filter fun n => lstate s n == 5 || trained s n
    let all := ok.length == (portLanes s p).length
    let late := match (s.pln p).firstTrained with | some t => t + 40000000 ≤ s.now | none => false
    if !all && !late then s
    else
      let k := pow2Floor ok.length
      let mask := maskOf p (ok.take k)
      if k ≠ 0 ∧ minW s p ≤ k then
        let s := endLive Cause.portWidthLow (locPort p) s
        if mask = s.fld (F.PRT_LANE_STATUS_active p) ∧ (ok.take k).all (fun n => lstate s n == 5) then s
        else joinLanes p mask s
      else if s.flt.live.contains (Cause.portWidthLow, locPort p) then s
      else raise Cause.portWidthLow (locPort p) s

/-- TTMO: 40 ms since the last entry into DETECT (Table 11-6). -/
def trainTimeout (n : Nat) (signal : Bool) (s : State) : State :=
  let st := lstate s n
  if (st = 1 ∨ st = 2) ∧ (s.lane n).timer + 40000000 ≤ s.now then
    let s :=
      if signal then
        raise Cause.laneTrainFail (locLane n)
          ((s.bump (F.LNE_TRAIN_FAIL_CNT_count n)).setFlag (F.LNE_STATUS_failed n) true)
      else s
    toDetect n s
  else s

/-! ### LANE packets (Table 11-9) and width changes -/

/-- Sends a LANE packet with a body word. -/
def sendLaneMsg (p ltype word : Nat) (s : State) : State :=
  originate p (.ctl (mkCtl 0x12 0 (ltype * 4096) (hi32 (ownSerial s)) (lo32 (ownSerial s)) 3 (wordBytes (BitVec.ofNat 32 word)))) s

/-- A change is agreed (R396): GO goes out, and the transmit direction changes as it leaves. -/
def agree (p seq : Nat) (kind : Bool) (mask result : Nat) (s : State) : State :=
  let s := s.setFld (F.PRT_WIDTH_STATUS_result p) result
  let s := s.setFld (F.PRT_WIDTH_STATUS_mask p) mask
  let s := s.setFlag (F.PRT_WIDTH_STATUS_busy p) false
  let s := s.onPln p fun l => { l with prop := none, lapses := 0, chg := l.chg ++ [{ kind := kind, mask := mask }] }
  sendLaneMsg p 3 (seq * 2 ^ 24 + mask) s

/-- Proposes a set (R393): at most one outstanding; seq rises by 1 mod 256. With no lane to name nothing is proposed (log 96). -/
def propose (p : Nat) (kind : Bool) (mask : Nat) (s : State) : State :=
  if (s.pln p).prop.isSome || !linkUp s p || mask == 0 then s
  else
    let seq := (s.fld (F.PRT_WIDTH_STATUS_seq p) + 1) % 256
    let s := s.setFld (F.PRT_WIDTH_STATUS_seq p) seq
    let s := s.setFlag (F.PRT_WIDTH_STATUS_busy p) true
    let s := sendLaneMsg p 1 (seq * 2 ^ 24 + ofBool kind * 2 ^ 23 + mask) s
    s.onPln p fun l => { l with prop := some ⟨seq, kind, mask, s.now⟩, retry := none }

/-- The narrower set an end proposes without its unusable lanes and those that `drop` names (R391). -/
def narrowMask (s : State) (p : Nat) (drop : List Nat) : Nat :=
  let act := activeSet s p
  let good := act.filter fun n => !bitOf (s.fld (F.PRT_LANE_STATUS_unusable p)) (n - p) && !drop.contains n
  maskOf p (good.take (min (act.length / 2) (pow2Floor good.length)))

/-- WIDTH_PROPOSE: a write of PRT_WIDTH_CTL with go, or an internal need (R393); go lets a stopped end propose again. -/
def widthPropose (p : Nat) (kind : Bool) (mask : Nat) (s : State) : State :=
  let s := endLive Cause.portWidthTmo (locPort p) (s.onPln p fun l => { l with stopped := false, lapses := 0 })
  propose p kind mask s

/-- An internal need to propose; a stopped end does not (R393). -/
def needPropose (p : Nat) (kind : Bool) (mask : Nat) (s : State) : State :=
  if (s.pln p).stopped then s else propose p kind mask s

/-- Whether a received proposal is refused (R394). -/
def refuses (s : State) (p mask : Nat) : Bool :=
  let l := lanesOf p mask
  mask == 0 || l.length != pow2Floor l.length || l.length < minW s p
    || l.any fun n => !(portLanes s p).contains n || !(lstate s n == 5 || trained s n)

/-- Answers a proposal under R394. -/
def answerProp (p seq : Nat) (kind : Bool) (mask : Nat) (s : State) : State :=
  if refuses s p mask then sendLaneMsg p 2 (seq * 2 ^ 24 + 1 * 2 ^ 20 + mask) s
  else agree p seq kind mask 1 (sendLaneMsg p 2 (seq * 2 ^ 24 + mask) s)

/-- A serial as R395 compares it: 0 counts as 2^64. -/
def tieSerial (v : BitVec 64) : Nat := if v = 0 then 2 ^ 64 else v.toNat

/-- PROP: a received proposal (R394, R395). -/
def takeProp (p : Nat) (c : Ctl) (s : State) : State :=
  let w := (wordAt c.body 0).toNat
  let seq := bits w 24 8
  let kind := bitOf w 23
  let mask := bits w 0 8
  match (s.pln p).prop with
  | none => answerProp p seq kind mask s
  | some o =>
    if o.mask = mask then agree p o.seq (kind || o.kind) mask 5 s
    else
      let theirs := tieSerial (c.w1 ++ c.w2)
      let mine := tieSerial (ownSerial s)
      let withdraw (s : State) : State :=
        ((s.onPln p fun l => { l with prop := none }).setFld (F.PRT_WIDTH_STATUS_result p) 3).setFlag
          (F.PRT_WIDTH_STATUS_busy p) false
      if mine < theirs then s
      else if theirs < mine then answerProp p seq kind mask ((withdraw s).bump (F.PRT_TIE_LOST_CNT_count p))
      else
        let s := (withdraw s).bump (F.PRT_LANE_PROTO_CNT_count p)
        s.onPln p fun l => { l with retry := some { o with at_ := s.now + (p + 1) * 10000 } }

/-- ACK: the answer to the outstanding proposal (R393, R396). -/
def takeAckProp (p : Nat) (c : Ctl) (s : State) : State :=
  let w := (wordAt c.body 0).toNat
  match (s.pln p).prop with
  | some o =>
    if bits w 24 8 = o.seq then
      if bits w 20 4 = 0 then agree p o.seq o.kind o.mask 1 s
      else
        ((s.onPln p fun l => { l with prop := none, lapses := 0 }).setFld (F.PRT_WIDTH_STATUS_result p) 2).setFlag
          (F.PRT_WIDTH_STATUS_busy p) false
    else s
  | none => s

/-- GO: the receive direction takes the new active set (R396). -/
def takeGo (p : Nat) (c : Ctl) (s : State) : State :=
  let mask := bits (wordAt c.body 0).toNat 0 8
  finishChange p (s.onPln p fun l =>
    { l with rxMask := mask, chg := markChange (fun x => !x.rxDone && x.mask == mask) (fun x => { x with rxDone := true }) l.chg })

/-- LAPSE: no ACK within 100 µs; after three in a row PORT_WIDTH_TMO, and proposing stops (R393). -/
def lapse (p : Nat) (s : State) : State :=
  match (s.pln p).prop with
  | none => s
  | some o =>
    if o.at_ + 100000 ≤ s.now then
      let s := s.onPln p fun l => { l with prop := none, lapses := l.lapses + 1 }
      let s := (s.setFld (F.PRT_WIDTH_STATUS_result p) 4).setFlag (F.PRT_WIDTH_STATUS_busy p) false
      if 3 ≤ (s.pln p).lapses then
        raise Cause.portWidthTmo (locPort p) (s.onPln p fun l => { l with stopped := true })
      else s
    else s

/-- PROPOSAL_RETRY: after an equal-serial withdrawal the end proposes again after its back-off (R395). -/
def proposalRetry (p : Nat) (s : State) : State :=
  match (s.pln p).retry with
  | some o => if o.at_ ≤ s.now then propose p o.kind o.mask s else s
  | none => s

/-- The widest set a port's usable lanes allow (R398). -/
def widestMask (s : State) (p : Nat) : Nat :=
  let good := (portLanes s p).filter fun n =>
    !bitOf (s.fld (F.PRT_LANE_STATUS_unusable p)) (n - p) && (lstate s n == 5 || trained s n)
  maskOf p (good.take (pow2Floor good.length))

/-- What an end does about an active lane that it holds unusable, each interval: it proposes the set without it, or LANE_DEGRADED
at min_w (R398, R399). -/
def holdUnusable (p n : Nat) (s : State) : State :=
  if activeLanes s p = minW s p then
    if s.flt.live.contains (Cause.laneDegraded, locLane n) then s else raise Cause.laneDegraded (locLane n) s
  else
    let s := s.onPln p fun l => { l with removing := if l.removing.contains n then l.removing else l.removing ++ [n] }
    needPropose p true (narrowMask s p []) s

/-- REMOVAL_INTERVAL of an ACTIVE lane (R397 to R399): the run of bad intervals, unusable, and what follows from it. -/
def removalActive (p n corrected uncorrectable : Nat) (s : State) : State :=
  let bad := s.fld (F.LNE_REM_CFG_rem_thresh n) < corrected || 0 < uncorrectable
  let s := s.onLane n fun l => { l with badRun := if bad then l.badRun + 1 else 0 }
  let u : FieldRef := ⟨R.PRT_LANE_STATUS p, 8 + (n - p), 1⟩
  let s := if s.flag (F.PRT_WIDTH_CTL_rem_en p) && max 1 (s.fld (F.LNE_REM_CFG_rem_cnt n)) ≤ (s.lane n).badRun then
      s.setFlag u true
    else s
  if s.flag u then holdUnusable p n s else s

/-- REMOVAL_INTERVAL of a lane outside the active set that is trained again (R398): a removed one soaks, and then the widest set is
proposed, again in each interval until the lane is back. -/
def removalSoak (p n prbs : Nat) (s : State) : State :=
  if !trained s n || !s.flag (F.PRT_WIDTH_CTL_auto_readd p) then s
  else
    let s :=
      if (s.lane n).removed then
        let good := prbs < s.fld (F.LNE_REM_CFG_readd_thresh n) * 16
        let s := s.onLane n fun l => { l with soak := if good then l.soak + 1 else 0 }
        if s.fld (F.PRT_WIDTH_CTL_readd_soak p) ≤ (s.lane n).soak && good then
          let s := s.setFlag ⟨R.PRT_LANE_STATUS p, 8 + (n - p), 1⟩ false
          let s := endLive Cause.laneDegraded (locLane n) s
          s.onLane n fun l => { l with removed := false, soak := 0, badRun := 0, readd := true }
        else s
      else s
    let mask := widestMask s p
    if (s.lane n).readd && mask != s.fld (F.PRT_LANE_STATUS_active p) then needPropose p false mask s else s

/-- REMOVAL_INTERVAL: one 1 ms interval of a lane's counts (R397, R398). -/
def removalInterval (n corrected uncorrectable prbs : Nat) (s : State) : State :=
  match portOfLane s n with
  | none => s
  | some p =>
    let s := s.bumpBy (F.LNE_FEC_CORR_CNT_count n) corrected
    let s := s.bumpBy (F.LNE_FEC_UNCORR_CNT_count n) uncorrectable
    let s := s.bumpBy (F.LNE_PRBS_ERR_CNT_count n) prbs
    if lstate s n = 5 then removalActive p n corrected uncorrectable s else removalSoak p n prbs s

/-- RT: a retrain request; on a lane in a running active set software's request is a proposal of kind 1 without the
lane (LNE_CTL, R391, R393), otherwise the lane returns to DETECT (Table 11-6). -/
def retrainLane (n : Nat) (s : State) : State :=
  match portOfLane s n with
  | some p => if lstate s n = 5 && linkUp s p then needPropose p true (narrowMask s p [n]) s else laneRt n s
  | none => laneRt n s

/-! ### Electrical idle -/

/-- A port's transmitter has nothing to send (R385). -/
def txQuiet (s : State) (p : Nat) : Bool :=
  let l := s.lnk p
  l.txCur.isNone && l.txSusp.isNone && l.replay.isEmpty && l.nak.isNone && l.part.isEmpty && !lcuDue s p
    && (upTo 8).all fun q => (s.eqQ (p * 8 + q)).isEmpty && (s.waitQ (originKey p q)).isEmpty

/-- EI_ENTRY: a quiet transmitter sends EI_ENTER, and once that is acknowledged and it is still quiet stops in
electrical idle (R385). -/
def eiEntry (p : Nat) (s : State) : State :=
  if linkUp s p && s.flag (F.PRT_EI_CFG_ei_en p) && !s.flag (F.PRT_EI_CFG_tx_ei p) && txQuiet s p then
    if (s.pln p).eiSent then
      let s := sendLcu p (lcuNow s p) s
      let s := s.setFlag (F.PRT_EI_CFG_tx_ei p) true
      let s := s.bump (F.PRT_EI_ENTRY_CNT_count p)
      let s := forEach (activeSet s p) (fun n s => s.emit (.laneDrive n false)) s
      s.onPln p fun l => { l with eiSent := false, quietAt := none }
    else
      match (s.pln p).quietAt with
      | none => s.onPln p fun l => { l with quietAt := some s.now }
      | some t =>
        if t + (max 1 (s.fld (F.PRT_EI_CFG_ei_ent p))) * 100 ≤ s.now then
          sendLaneMsg p 4 0 (s.onPln p fun l => { l with eiSent := true })
        else s
  else if txQuiet s p then s
  else s.onPln p fun l => { l with quietAt := none }

/-- EI_ENTER: the receive direction is armed (R386). -/
def eiArm (p : Nat) (s : State) : State := s.setFlag (F.PRT_EI_CFG_rx_armed p) true

/-- A counted group disarms the receive direction (R386). -/
def eiDisarm (p : Nat) (s : State) : State :=
  (s.setFlag (F.PRT_EI_CFG_rx_armed p) false).onPln p fun l => { l with rxIdle := false }

/-- EI_EXIT_FAIL: no codeword within 1 µs of signal detect; LOSS is reported (R388) and the lanes retrain. -/
def eiExitFail (p : Nat) (s : State) : State :=
  if (s.pln p).rxIdle then
    let s := s.bump (F.PRT_EI_EXIT_FAIL_CNT_count p)
    let s := eiDisarm p s
    retrainPort p (linkLoss p s)
  else s

/-- RECEIVE_ELECTRICAL_IDLE: signal detect falls. Armed: the direction enters electrical idle and margin scans abort
(R386, R401). Not armed: CDR and codeword lock are lost on the port's active lanes (R377, R384). -/
def receiveIdle (p : Nat) (s : State) : State :=
  let act := activeSet s p
  if s.flag (F.PRT_EI_CFG_rx_armed p) then
    let s := forEach act abortScan s
    s.onPln p fun l => { l with rxIdle := true }
  else forEach act (fun n s => (cwLoss n s).setFlag (F.LNE_STATUS_cdr_lock n) false) s

/-! ### Margin scans -/

/-- MARGIN_SCAN: a write of LNE_MARGIN_CTL with go (R400, R401). -/
def marginScan (n : Nat) (v : Word) (s : State) : State :=
  let s := s.storeReg (R.LNE_MARGIN_CTL n) v
  if bitOf v.toNat 31 && !s.flag (F.LNE_MARGIN_CTL_busy n) then
    if lstate s n = 3 ∨ lstate s n = 5 then s.setFlag (F.LNE_MARGIN_CTL_busy n) true
    else s.setFld (F.LNE_MARGIN_RES_status n) 2
  else s

/-- MARGIN_SCAN_END: the scan's last good steps are recorded (R400). -/
def marginScanEnd (n : Nat) (neg pos : Nat) (s : State) : State :=
  if s.flag (F.LNE_MARGIN_CTL_busy n) then
    let s := s.setFlag (F.LNE_MARGIN_CTL_busy n) false
    let s := s.setFld (F.LNE_MARGIN_RES_status n) 1
    (s.setFld (F.LNE_MARGIN_RES_neg n) neg).setFld (F.LNE_MARGIN_RES_pos n) pos
  else s

end Sys2Proof.Machine
end

