-- ==== Sys2Proof/Machine/Time.lean ====
section
/-! DEFINITION. Fabric time between switches (R213 to R219): the parent, the exchange, steps and slews, the lock. -/

namespace Sys2Proof.Machine

/-- Brings the held value of fabric time up to now and ends a slew in progress. -/
def rebaseTime (s : State) : State :=
  { s with time := { s.time with val := ftime s, upd := s.now, corr := 0, span := 0 } }

/-- The exchange interval in ns. -/
def syncNs (s : State) : Nat := 2 ^ min 10 (s.fld F.SCH_TIME_CFG_sync_exp) * 1000

/-- The port toward a time parent, by field 0 of a routing entry (R214); a field that names no fabric port gives no parent, since
no REQ goes out there (R218). -/
def parentPort (s : State) (v : Nat) : Option Nat := if entValid v && isFab s (entPort v 0) then some (entPort v 0) else none

/-- The time parent in use (R214): 1 parent or 2 fallback parent, and the port toward it. -/
def timeParent (s : State) : Option (Nat × Nat) :=
  if !placed s || (ownRow s == 0 && ownCol s == 0) then none
  else
    let first := if ownRow s = 0 then rowE s 0 else colE s 0
    let second := rowE s 0
    let inner := ownRow s != 0 && ownCol s != 0
    let fallback := if inner then (parentPort s second).map fun p => (2, p) else none
    match parentPort s first with
    | some p => if inner && decide (4 ≤ s.time.unlockedReports) then some (fallback.getD (1, p)) else some (1, p)
    | none => fallback

/-- A switch that is not the master and has no usable parent is unlocked (R214). -/
def freeRun (s : State) : State :=
  if timeLocked s && !s.flag F.SCH_TIME_STATUS_master && (timeParent s).isNone then setTimeLocked false s else s

/-- SCH_TIME_STATUS shows the parent in use. -/
def showParent (s : State) : State :=
  match timeParent s with
  | some (k, p) => (s.setFld F.SCH_TIME_STATUS_parent k).setFld F.SCH_TIME_STATUS_port p
  | none => s.setFld F.SCH_TIME_STATUS_parent 0

/-- TIME_EXCHANGE: every 2^sync_exp µs the child sends REQ to its parent (R215); four intervals without an RSP, or no
usable parent, unlock it (R214, R216). -/
def timeExchangeAt (s : State) : State :=
  if !s.flag F.SCH_TIME_CFG_time_en || !placed s || s.flag F.SCH_TIME_STATUS_master || decide (s.now < s.time.nextAt) then s
  else
    let s := showParent s
    let s := { s with time := { s.time with nextAt := s.now + syncNs s } }
    match timeParent s with
    | none => setTimeLocked false { s with time := { s.time with t1 := none } }
    | some (_, port) =>
      let missed := if s.time.t1.isSome then s.time.missed + 1 else s.time.missed
      let s := { s with time := { s.time with missed := missed } }
      let s := if 4 ≤ missed then setTimeLocked false { s with time := { s.time with good := 0 } } else s
      let seq := (s.time.seq + 1) % 256
      let s := { s with time := { s.time with seq := seq, t1 := some (ftime s) } }
      originate port (.ctl (mkCtl 0x11 0 (0x1000 + seq) 0 0 7 (leBytes 8 (ftime s)))) s

/-- REQ: a switch answers on any fabric or endpoint port with t1, its arrival time t2, and t3 taken as the answer leaves
(R215, R218). -/
def timeReq (port : Nat) (c : Ctl) (s : State) : State :=
  if isFab s port || isEp s port then
    let ks := 0x2000 + ofBool (timeLocked s) * 2048 + ofBool (s.flag F.SCH_TIME_STATUS_master) * 1024 + bits c.ks.toNat 0 8
    originate port (.ctl (mkCtl 0x11 0 ks 0 0 23 (c.body.take 8 ++ leBytes 8 (ftime s) ++ leBytes 8 (ftime s)))) s
  else s

/-- A 64-bit time at byte `a` of a body. -/
def timeAt (c : Ctl) (a : Nat) : Int := Int.ofNat (ofLe ((c.body.drop a).take 8))

/-- An offset as SCH_TIME_STATUS.err shows it: 16 bits signed, saturating. -/
def errBits (o : Int) : Nat := ((max (-32768) (min 32767 o)) % 65536).toNat

/-- RSP: the child steps or slews by the measured offset, and its lock follows (R215, R216, R219). -/
def timeRsp (_port : Nat) (c : Ctl) (s : State) : State :=
  match s.time.t1 with
  | none => s.bump F.SCH_TIME_ERR_CNT_count
  | some _ =>
    if bits c.ks.toNat 0 8 != s.time.seq then s.bump F.SCH_TIME_ERR_CNT_count
    else
      let t4 := Int.ofNat (ftime s)
      let o := ((timeAt c 8 - timeAt c 0) - (t4 - timeAt c 16)) / 2
      let up := bitOf c.ks.toNat 11
      let viaParent := match timeParent s with | some (k, _) => k == 1 | none => false
      let s := rebaseTime s
      let s := s.setFld F.SCH_TIME_STATUS_err (errBits o)
      let step := decide (256000 < o.natAbs)
      let good := if up && decide (o.natAbs ≤ 512) then s.time.good + 1 else 0
      let bad := if 1024 < o.natAbs then s.time.bad + 1 else 0
      let lim := Int.ofNat (syncNs s * 256 / 5000)
      let s := { s with time := { s.time with
        t1 := none, missed := 0, good := if step then 0 else good, bad := bad
        unlockedReports := if viaParent then (if up then 0 else s.time.unlockedReports + 1) else s.time.unlockedReports
        val := if step then ((Int.ofNat s.time.val + o) % 2 ^ 64).toNat else s.time.val
        corr := if step then 0 else max (-lim) (min lim o), span := if step then 0 else syncNs s } }
      if step || !up || decide (2 ≤ bad) then setTimeLocked false s
      else if 8 ≤ good then setTimeLocked true s else s

end Sys2Proof.Machine
end

