-- ==== Sys2Proof/Machine/Forward.lean ====
section
/-! DEFINITION. Reception (files 02 to 07): the checks of the leaf switch (R546, R551), the outstanding-request table
(R51 to R53), policing (R235 to R238), what becomes of a packet by its header (R155 to R168), packets that are sent on while they
arrive (R106, R191), control packets, PACKET_RECEIVE. -/

namespace Sys2Proof.Machine

/-! ### Policing (R235 to R237) -/

/-- Colours: 0 green, 1 yellow, 2 red. One policer, with the pre-colour (R236). -/
def policeOne (i pre : Nat) (pk : Pkt) (s : State) : Nat × State :=
  if !s.flag (F.SHP_POL_CFG_en i) then (pre, s)
  else
    let b : Policer := Sparse.get (fun _ => {}) s.sched.pol i
    let L := chargedLen (s.fld (F.SHP_POL_CFG_len_mode i)) (s.fld (F.SHP_POL_CFG_ovh i)) pk * 65536
    let e := s.now - b.upd
    let cbs := s.fld (F.SHP_POL_CBS_size i) * 64 * 65536
    let pbs := s.fld (F.SHP_POL_PBS_size i) * 64 * 65536
    let fill (r : Nat) : Nat := e * max 1 r * 65536 / 1000
    let pre := if s.flag (F.SHP_POL_CFG_aware i) then pre else 0
    let c := fill (s.fld (F.SHP_POL_CIR_rate i))
    let (colour, tc, tp) : Nat × Nat × Nat :=
      if s.fld (F.SHP_POL_CFG_mode i) = 0 then
        let tc := min cbs (b.tc + c)
        let tp := min pbs (b.tp + fill (s.fld (F.SHP_POL_PIR_rate i)))
        if pre = 2 ∨ tp < L then (2, tc, tp)
        else if pre = 1 ∨ tc < L then (1, tc, tp - L)
        else (0, tc - L, tp - L)
      else
        let held := min cbs b.tc
        let tc := min cbs (held + c)
        let te := min pbs (b.tp + (held + c - tc))
        if pre = 0 ∧ L ≤ tc then (0, tc - L, te)
        else if pre ≠ 2 ∧ L ≤ te then (1, tc, te - L)
        else (2, tc, te)
    let s := { s with sched := { s.sched with pol := Sparse.put (fun _ => {}) s.sched.pol i { tc := tc, tp := tp, upd := s.now } } }
    (colour, s.bump (if colour = 0 then F.SHP_POL_GREEN_CNT_count i
      else if colour = 1 then F.SHP_POL_YELLOW_CNT_count i else F.SHP_POL_RED_CNT_count i))

/-- A policer whose en goes from 0 to 1 starts full (R236): its buckets hold their sizes as they stand then, and a size raised
later does not fill them (R238). -/
def fillPolicer (i : Nat) (s : State) : State :=
  let full : Policer :=
    { tc := s.fld (F.SHP_POL_CBS_size i) * 64 * 65536, tp := s.fld (F.SHP_POL_PBS_size i) * 64 * 65536, upd := s.now }
  { s with sched := { s.sched with pol := Sparse.put (fun _ => {}) s.sched.pol i full } }

/-- The final colour of a packet received on an endpoint port (R235). -/
def police (port : Nat) (p : Packet) (s : State) : Nat × State :=
  let q := p.queue.toNat
  if q < 2 ∨ 6 < q ∨ p.op = .acc then (0, s)
  else
    let at_ (i : Nat) : Nat := portDie port * 2048 + i
    let a := if s.flag (F.PRT_Q_POL_pol1_en port q) then policeOne (at_ (s.fld (F.PRT_Q_POL_pol1 port q))) 0 (.data p) s else (0, s)
    if a.2.flag (F.PRT_Q_POL_pol2_en port q) then policeOne (at_ (a.2.fld (F.PRT_Q_POL_pol2 port q))) a.1 (.data p) a.2 else a

/-! ### The checks of the leaf switch (R546) -/

/-- Size and alignment of R41; a compact header names no offset of its own, so only its size is checked. -/
def sizeOk (p : Packet) : Bool :=
  let n := pktLen p
  let off := if p.form == .direct then addrOff p.address else 0
  match p.op with
  | .load | .store => decide (off % 4096 + n ≤ 4096)
  | .fadd | .swap | .cas => (n == 4 || n == 8) && off % n == 0
  | _ => true

/-- A wrong target kind (R44, R546): group and other addresses exchanged, dsw = 1 outside completions, a coherence
request that names no window, or an operation that only switches issue. -/
def wrongTarget (p : Packet) : Bool :=
  match p.op with
  | .acc => !isGroupPkt p
  | .inv | .rcl => true
  | .cpl => false
  | .rdS | .rdM | .upg | .wb => isGroupPkt p || p.dsw || !isWindowPkt p
  | _ => isGroupPkt p || (p.form == .compact && p.dsw)

/-- The tag checks (R51, R67, R68). -/
def tagCheck (s : State) (port : Nat) (p : Packet) : Option Status :=
  let tag := p.ftag.toNat % 4096
  let e := s.ortE (ortIndex s port tag)
  if (s.pdisc port).allot ≤ tag ∨ e.busy then some .tagErr
  else if e.quarUntil.isSome ∨ allStale e then some .tagQuar
  else none

/-- A data packet has no route at this switch (R155). -/
def noRoute (s : State) (p : Packet) (src : Option Nat) : Bool :=
  if forHere s p then !isWindowPkt p && !p.dsw && (localPort s (idLocal (dstEpOf p))).isNone
  else
    let rc := dstSwitch p
    (routeTo (streamHash s (streamOf p)) p.queue.toNat (isOrdered p) src rc.1 rc.2 s).1.isNone

/-- Whether a data packet from an endpoint port may take a non-minimal hop: its ingress port. -/
def nmSource (port : Nat) (p : Packet) : Option Nat :=
  if !isOrdered p && decide (2 ≤ p.queue.toNat ∧ p.queue.toNat ≤ 6) && !p.nm then some port else none

/-- The first check of R546 that an operation from an endpoint port fails; completions are no operations. R76 has coherence requests
travel in Q0, and no check names one in another queue: it is performed, and answered in its own queue (DESIGN CHOICE, log 102). -/
def leafCheck (s : State) (port : Nat) (p : Packet) : Option Status :=
  let c := p.ctx.toNat
  if p.op = .cpl then none
  else if gateClosed s c then some .access
  else if !ctxPortEn s c port || (isCohOp p.op && !s.flag (F.CTX_MEM_CTL_coh_en c)) then some .access
  else if (match p.op with | .reserved _ => true | _ => false) then some .unsup
  else if wrongTarget p then some .unsup
  else if p.op = .acc then (if groupCtx p.address ≠ c then some .access else none)
  else if !sizeOk p then some .align
  else match tagCheck s port p with
    | some st => some st
    | none => if noRoute s p (nmSource port p) then some .unreach else none

/-- Allocates the outstanding-request entry of an operation that receives a completion: the next generation goes into
its fabric tag, and its timer starts (R52, R63, R98). -/
def allocate (port : Nat) (p : Packet) (s : State) : Packet × State :=
  if getsCpl p.op then
    let tag := p.ftag.toNat % 4096
    let i := ortIndex s port tag
    let e := s.ortE i
    let gen := nextGen e
    let s := s.setOrt i { e with
      gen := gen, busy := true, port := port, tag := tag, ctx := p.ctx.toNat, queue := p.queue.toNat, ord := p.ord,
      dst := dstEpOf p, dstSw := isWindowPkt p, deadline := s.now + tmoNs s p.ctx.toNat }
    ({ p with ftag := BitVec.ofNat 16 (gen * 4096 + tag) }, s)
  else (p, s)

/-! ### Context shapers of packets bound for a shuttle (R233) -/

/-- The i-th input in transit passes its context shaper and debits it, unless an earlier one of its port and queue waits. -/
def passInput (i : Nat) (s : State) : State :=
  match s.grp.transit[i]? with
  | none => s
  | some x =>
    let q := qOf x.pkt
    let set (n : Nat) (s : State) : State :=
      { s with grp := { s.grp with transit := s.grp.transit.set i { x with shaped := n } } }
    if x.shaped = 0 || (s.grp.transit.take i).any (fun y => y.shaped != 0 && y.port == x.port && qOf y.pkt == q) then s
    else if ctxPasses s x.port q x.pkt then debitPacket x.port q x.pkt (set 0 s)
    else if x.shaped = 1 then countHeld x.pkt (set 2 s)
    else s

/-- The inputs that wait for their context shapers pass as far as the tokens go. -/
def passInputs (s : State) : State := forEach (upTo s.grp.transit.length) passInput s

/-- The window operations that wait for their context shapers pass in order, each port and queue for itself. -/
def passWindow (s : State) : State :=
  forEach s.fab.shaped (fun x s =>
    let r := x.1
    let q := r.p.queue.toNat
    let first := !s.fab.shaped.any fun y => y.1.port == r.port && y.1.p.queue == r.p.queue
    if first && ctxPasses s r.port q (.data r.p) then windowOp r (debitPacket r.port q (.data r.p) s)
    else
      let s := if first && !x.2 then countHeld (.data r.p) s else s
      { s with fab := { s.fab with shaped := s.fab.shaped ++ [(r, x.2 || first)] } })
    { s with fab := { s.fab with shaped := [] } }

/-- A window operation at this switch: metered by its context shaper when an endpoint sent it, then performed. -/
def windowIn (r : Req) (s : State) : State :=
  if (shapedCtx s r.port r.p.queue.toNat (.data r.p)).isSome then
    passWindow { s with fab := { s.fab with shaped := s.fab.shaped ++ [(r, false)] } }
  else windowOp r s

/-- An input of a tracker enters transit with the version captured at lookup (R262). -/
def toTransit (port : Nat) (pk : Pkt) (e : Nat) (v : GrpVer) (s : State) : State :=
  let wait := if (shapedCtx s port (qOf pk) pk).isSome then 1 else 0
  passInput s.grp.transit.length
    { s with grp := { s.grp with transit := s.grp.transit ++ [{ pkt := pk, port := port, entry := e, ver := v, shaped := wait }] } }

/-! ### What becomes of a packet by its header -/

/-- A packet to be sent on: where its copies go, whether it is yellow, and for a result packet whether a tracker takes it. -/
structure Sending where
  ts : List Target
  yellow : Bool := false
  res : Option Bool := none
  deriving DecidableEq, Repr

/-- What a packet's header decides: it is sent on, rejected at the leaf, or all is done. -/
inductive Fate where
  | send (x : Sending)
  | reject (st : Status)
  | done
  deriving DecidableEq, Repr

/-- A packet that leaves nothing behind but its credits. -/
def back (port : Nat) (pk : Pkt) (s : State) : State := giveCredits port (qOf pk) (nLuOf pk) s

/-- A completion on its way to this switch's endpoints (R66, R257): taken, late, or delivered. -/
def takeCpl (port : Nat) (p : Packet) (s : State) : Fate × State :=
  if isEp s port && (localOf s port).isSome && dstEpOf p == portEp s port then
    (.done, back port (.data p) (if p.status = .ok then s else s.bump F.GLB_GRP_RES_ERR_CNT_count))
  else match matchCpl p s with
    | (some (out, p'), s) => (.send { ts := [localTarget s port (isOrdered p) (idLocal (dstEpOf p)) out 0 (.data p')] }, s)
    | (none, s) => (.done, back port (.data p) s)

/-- A packet without a route at a switch that is not its source leaf (R155). -/
def unroutable (port : Nat) (p : Packet) (s : State) : State :=
  let s := (back port (.data p) s).bump F.RTE_UNREACH_CNT_count
  if getsCpl p.op then sendCpl (switchCpl s p .unreach none) s else s

/-- A packet for this switch itself, its window or its endpoints (R161). -/
def deliver (port : Nat) (p : Packet) (s : State) : Fate × State :=
  if isWindowPkt p then (.done, windowIn ⟨p, port⟩ s)
  else if p.dsw then
    match p.op with
    | .cpl => (.done, selfCpl p (back port (.data p) s))
    | .inv => (.done, fanInv p port s)
    | _ => (.done, back port (.data p) s)
  else if p.op = .cpl then takeCpl port p s
  else
    let k := idLocal (dstEpOf p)
    match localPort s k with
    | none => (.done, unroutable port p s)
    | some out => (.send { ts := [localTarget s port (isOrdered p) k out 0 (.data p)] }, s)

/-- Routes a data packet at this switch (R155 to R161). -/
def routeData (port : Nat) (src : Option Nat) (p : Packet) (s : State) : Fate × State :=
  if forHere s p then deliver port p s
  else
    let rc := dstSwitch p
    match farTarget port (isOrdered p) src (.data p) (streamHash s (streamOf p)) rc.1 rc.2 s with
    | (none, s) => (.done, unroutable port p s)
    | (some t, s) => (.send { ts := [t] }, s)

/-- A partial received on a fabric port is taken as addressed to this switch (R254); no entry, and it is stray. -/
def takePartial (port : Nat) (pk : Pkt) (s : State) : State :=
  let g := grpPkt pk
  match entryOf s g.ctx (groupId g.addr) with
  | some e => toTransit port pk e (s.grpE e).active s
  | none => (back port pk s).bump F.GLB_GRP_STRAY_CNT_count

/-- The payload size that a packet announces. -/
def payloadOf : Pkt → Nat
  | .data p => payloadSize p.op p.dat (pktLen p)
  | .ctl c => c.lenM1.toNat + 1

/-- A result packet on a fabric port: its second phase and result stores; with neither, it is only taken (R163, R255, R256). -/
def resultFate (port : Nat) (pk : Pkt) (s : State) : Fate × State :=
  let g := grpPkt pk
  let r := resultTargets s port pk (payloadOf pk)
  let stores := (resultTrk s g).isSome
  let s := castDrops r.2 (locPort port) g.ctx s
  if r.1.isEmpty then (.done, resultTaken stores pk (back port pk s)) else (.send { ts := r.1, res := some stores }, s)

/-- A group packet on a fabric port: a partial, or a result; contributions stay at their leaf. -/
def fabricGroup (port : Nat) (pk : Pkt) (s : State) : Fate × State :=
  let g := grpPkt pk
  if gateClosed s g.ctx then (.done, (back port pk s).bump (F.CTX_RST_DROP_CNT_count g.ctx))
  else if g.stage = 3 then resultFate port pk s
  else if g.stage = 0 then (.done, (back port pk s).bump F.GLB_GRP_STRAY_CNT_count)
  else (.done, takePartial port pk s)

/-- A contribution at its leaf that passed steps 1 to 5 of R546: the checks of R551, then its tracker. -/
def takeContribution (port : Nat) (pk : Pkt) (s : State) : State :=
  let g := grpPkt pk
  match contribCheck s g with
  | .error st => rejectAcc port (some (port, qOf pk, nLuOf pk, [])) g st s
  | .ok (e, v) => toTransit port pk e v s

/-- A data packet received on an endpoint port (R546, R235, R98). -/
def leafData (port : Nat) (p : Packet) (s : State) : Fate × State :=
  match leafCheck s port p with
  | some st => (.reject st, s)
  | none =>
    if p.op = .acc then (.done, takeContribution port (.data p) s)
    else
      let a := allocate port p s
      let c := police port a.1 a.2
      if c.1 = 2 then (.done, nackFor port (.data a.1) (back port (.data p) c.2))
      else match routeData port (nmSource port p) a.1 c.2 with
        | (.send x, s) => (.send { x with yellow := c.1 == 1 }, s)
        | r => r

/-- A data packet received on a fabric port. -/
def transitData (port : Nat) (p : Packet) (s : State) : Fate × State :=
  if isGroupPkt p then fabricGroup port (.data p) s else routeData port none p s

/-- What the header of a data packet decides; a packet of an endpoint has ssw = 0 (R98). -/
def lookup (port : Nat) (p : Packet) (s : State) : Fate × State :=
  if isEp s port then leafData port { p with ssw := false } s else transitData port p s

/-! ### Sending on -/

/-- Writes a received packet into cells of its ingress slice, with its mirror copies, and sends its copies on their way; a held
copy keeps its cells (R168, R177, R183, R184, R201). `rx` is its serial number while it still arrives. Answers its cells; none,
when the allocation failed and the packet is discarded (R181). -/
def ingressSend (port rx : Nat) (x : Sending) (mir : List Nat) (pk : Pkt) (s : State) : Option (List Nat) × State :=
  let q := qOf pk
  let d := portDie port
  match writeCells d (nLuOf pk) (readersOf s d x.ts mir) (acctIg port q) rx s with
  | (none, s) => (none, back port pk s)
  | (some cells, s) =>
    let head := cells.headD 0
    let s := forEach x.ts (fun t s => enterVers t.vers s) s
    let s := forEach mir (mirrorOne d head rx false pk) s
    let o : Origin := { port := port, q := q, lanes := activeLanes s port, rx := rx, yellow := x.yellow }
    let cs := x.ts.zip (copiesOf s d head (nLuOf pk) o x.ts)
    let s := forEach cs (fun y s => match heldOf port y.1 (some y.2) with | some h => holdPacket h s | none => s) s
    (some cells, placeCopies d (port * 8 + q) none ((cs.filter fun y => y.1.hold.isNone).map (·.2)) s)

/-- Mirror copies of a received packet that takes no cells of its own: written for its readers only. -/
def mirrorOnly (port : Nat) (mir : List Nat) (pk : Pkt) (s : State) : State :=
  if mir.isEmpty then s
  else
    let d := portDie port
    match writeCells d (nLuOf pk) mir.length 0 0 s with
    | (none, s) => s
    | (some cells, s) => forEach mir (mirrorOne d (cells.headD 0) 0 true pk) s

/-- Rejects an operation of an endpoint port (R55, R242): its cells and credits go when the completion is admitted (R550); one that
receives no completion is only discarded. -/
def rejectOp (port : Nat) (p : Packet) (st : Status) (mir : List Nat) (s : State) : State :=
  let pk : Pkt := .data p
  let s := if st = .unreach then s.bump F.RTE_UNREACH_CNT_count else s
  if p.op = .acc then mirrorOnly port mir pk (rejectAcc port (some (port, qOf pk, nLuOf pk, [])) (grpPkt pk) st s)
  else if getsCpl p.op then
    let d := portDie port
    match writeCells d (nLuOf pk) (1 + mir.length) (acctIg port (qOf pk)) 0 s with
    | (none, s) => back port pk s
    | (some cells, s) => rejectCpl port p st cells (forEach mir (mirrorOne d (cells.headD 0) 0 false pk) s)
  else mirrorOnly port mir pk (back port pk s)

/-! ### Packets received whole -/

/-- The outstanding-request entry that a discarded request keeps: its requester learns of the loss through the timeout
(R106, DEDUCED). -/
def lostRequest (port : Nat) (p : Packet) (s : State) : State :=
  if isEp s port && (leafCheck s port p).isNone && p.op != .acc then (allocate port p s).2 else s

/-- A stomped packet or one with a CRC error is counted (R106). -/
def countBad (port : Nat) (crc : Crc) (s : State) : State :=
  match crc with
  | .good => s
  | .stomped => s.bump (F.PRT_STOMP_CNT_count port)
  | .bad => s.bump (F.PRT_CRC_ERR_CNT_count port)

/-- What the lookup of a data packet received whole decided is done: copies on their way, a rejection, or only mirror copies for the
sessions `mir`. -/
def carryOut (port : Nat) (p : Packet) (mir : List Nat) (r : Fate × State) : State :=
  let pk : Pkt := .data p
  match r with
  | (.send x, s) =>
    match ingressSend port 0 x mir pk s, x.res with
    | (some _, s), some stores => resultTaken stores pk s
    | (_, s), _ => s
  | (.reject st, s) => rejectOp port { p with ssw := false } st mir s
  | (.done, s) => mirrorOnly port mir pk s

/-- A data packet received whole, with what its CRC check found (R105, R106, R150, R201). -/
def receiveData (port : Nat) (p : Packet) (crc : Crc) (s : State) : State :=
  let pk : Pkt := .data p
  if qOf pk = 7 && !isSvc s port then protoError port s
  else if crc != .good then
    let s := back port pk (countBad port crc s)
    if restricted s port || isSvc s port then s else lostRequest port { p with ssw := false } s
  else if restricted s port || isSvc s port then back port pk (s.bump F.RTE_QUAR_DROP_CNT_count)
  else carryOut port p (mirSelect s false port pk) (lookup port p s)

/-! ### Packets sent on while they arrive (R106, R184, R191) -/

/-- The outstanding-request entry that a completion's lookup changed, as it stood before. -/
def undoOf (p : Packet) (s t : State) : Option (Nat × OrtEntry) :=
  if p.op = .cpl then
    (localPort s (idLocal (dstEpOf p))).bind fun out =>
      let i := ortIndex s out (p.ftag.toNat % 4096)
      if s.ortE i = t.ortE i then none else some (i, s.ortE i)
  else none

/-- The first link unit of a data packet of several: its header lookup completes, and a packet to be sent on takes its cells and
fans out at once (R184). Every other packet is acted on when it is whole. -/
def openStream (port : Nat) (r : RxPkt) (s : State) : State :=
  if restricted s port || isSvc s port then s
  else match decodeData (r.units.flatMap (·.bytes)) with
    | none => s
    | some p =>
      match lookup port p s with
      | (.send x, t) =>
        let rx := t.core.nextRx
        let mir := mirSelect s false port (.data p)
        let y := ingressSend port rx x mir (.data p) { t with core := { t.core with nextRx := rx + 1 } }
        let r := match y.1 with
          | some cells => { r with rx := rx, cells := cells, undo := undoOf p s t, res := x.res }
          | none => { r with lost := true }
        y.2.onLnk port fun l => { l with rxCur := some r }
      | _ => s

/-- The first cell of a packet has closed in its ingress slice: the copies that leave from there may go by cut-through (R191). -/
def tryCuts (r : RxPkt) (s : State) : State :=
  let mine := s.core.eq.filter fun x => portDie (x.1 / 8) == r.cells.headD 0 / 2 ^ 18 && x.2.any fun c => c.rx == r.rx
  forEach (mine.map (·.1)) (fun k s => tryCut (k / 8) (k % 8) s) s

/-- A further link unit of a packet that is being sent on: every fourth one closes a cell (R174). -/
def feedStream (r : RxPkt) (s : State) : State :=
  let s := feedPayload r s
  let n := r.units.length
  if n % 4 = 0 then
    let s := closeCells r.rx (r.cells[n / 4 - 1]?).toList s
    if n = 4 then tryCuts r s else s
  else s

/-- The last link unit of a packet that was being sent on: with a good CRC its last cell closes and it is whole (R191), otherwise it
ends as R106 says. -/
def finishStream (port : Nat) (r : RxPkt) (s : State) : State :=
  let b := r.units.flatMap (·.bytes)
  match crcCheck b with
  | .good =>
    if r.lost then s
    else
      let s := closeCells r.rx r.cells (feedPayload r s)
      let s := if r.units.length ≤ 4 then tryCuts r s else s
      let s := mapRx r.rx (fun c => { c with rx := 0 }) s
      match r.res, decodePkt b with
      | some stores, some pk => resultTaken stores pk s
      | _, _ => s
  | crc => abandonRx r (countBad port crc s)

/-- A link unit of a packet that is not whole yet: its packet starts to be sent on, or is sent on. -/
def streamUnit (port : Nat) (s : State) : State :=
  match (s.lnk port).rxCur with
  | some r => if r.rx != 0 then feedStream r s else if r.units.length = 1 && !r.lost then openStream port r s else s
  | none => s

/-! ### Control packets -/

/-- A DISC packet by its dtype (Table 04-1); a reserved dtype is discarded and counted (R136). -/
def discPacket (port : Nat) (c : Ctl) (s : State) : State :=
  match bits c.ks.toNat 12 4 with
  | 1 => hello port c s
  | 2 => takeNbr port c s
  | 3 => takeAssign port c s
  | 5 => epHello port c s
  | 6 => s
  | 7 => epAck port c s
  | _ => s.bump F.RTE_QUAR_DROP_CNT_count

/-- A TIME packet by its ttype (Table 06-2, R219). -/
def timePacket (port : Nat) (c : Ctl) (s : State) : State :=
  match bits c.ks.toNat 12 4 with
  | 1 => timeReq port c s
  | 2 => timeRsp port c s
  | _ => s.bump F.SCH_TIME_ERR_CNT_count

/-- A LANE packet by its ltype (Table 11-9, R392). -/
def lanePacket (port : Nat) (c : Ctl) (s : State) : State :=
  match bits c.ks.toNat 12 4 with
  | 1 => takeProp port c s
  | 2 => takeAckProp port c s
  | 3 => takeGo port c s
  | 4 => eiArm port s
  | _ => s.bump (F.PRT_LANE_PROTO_CNT_count port)

/-- A SACC received on an endpoint port: steps 1 to 5 of R546, then R551. -/
def leafSacc (port : Nat) (c : Ctl) (s : State) : State :=
  let g := grpPkt (.ctl c)
  let reject (st : Status) : State := rejectAcc port (some (port, c.queue.toNat, 1, [])) g st s
  if gateClosed s g.ctx then reject .access
  else if !ctxPortEn s g.ctx port then reject .access
  else if !isGroupAddr g.addr then reject .unsup
  else takeContribution port (.ctl c) s

/-- A SACC on a fabric port. -/
def fabricSacc (port : Nat) (c : Ctl) (mir : List Nat) (s : State) : State :=
  let pk : Pkt := .ctl c
  match fabricGroup port pk s with
  | (.send x, s) =>
    match ingressSend port 0 x mir pk s, x.res with
    | (some _, s), some stores => resultTaken stores pk s
    | (_, s), _ => s
  | (_, s) => mirrorOnly port mir pk s

/-- A control packet received with a good CRC. -/
def controlGood (port : Nat) (c : Ctl) (s : State) : State :=
  let pk : Pkt := .ctl c
  let mir := mirSelect s false port pk
  let here (f : State → State) : State := mirrorOnly port mir pk (f (back port pk s))
  if c.ckind = 0x10#5 then here (discPacket port c)
  else if c.ckind = 0x11#5 then here (timePacket port c)
  else if c.ckind = 0x12#5 then here (lanePacket port c)
  else if restricted s port || isSvc s port then here (·.bump F.RTE_QUAR_DROP_CNT_count)
  else if c.ckind = 2#5 then
    if isFab s port && gateClosed s (groupCtx (c.w1 ++ c.w2)) then here (·.bump (F.CTX_RST_DROP_CNT_count (groupCtx (c.w1 ++ c.w2))))
    else here (·.bump F.GLB_GRP_STRAY_CNT_count)
  else if c.ckind = 1#5 then
    if isEp s port then mirrorOnly port mir pk (leafSacc port c s) else fabricSacc port c mir s
  else protoError port s

/-- A control packet received, with what its CRC check found. -/
def receiveCtl (port : Nat) (c : Ctl) (crc : Crc) (s : State) : State :=
  if 1 < c.queue.toNat ∨ 47 < c.lenM1.toNat then protoError port s
  else if crc = .good then controlGood port c s
  else back port (.ctl c) (countBad port crc s)

/-- A packet received whole. -/
def receivePkt (port : Nat) (pk : Pkt) (crc : Crc) (s : State) : State :=
  match pk with
  | .data p => receiveData port p crc s
  | .ctl c => receiveCtl port c crc s

/-! ### What follows from a command -/

/-- What every command does after its own effect: NACKs due leave, packets of this switch to itself are taken, what waited for a
context shaper, its stream's order or a wait-list entry goes on as far as it can, software descriptors with a bad dop end, picks
commit, lags are followed, the neighbour reports are looked at again (R138), a switch without a time parent is unlocked (R214), copies of
a context that is purged leave the heads of their queues (R462), and link-control units that are due leave (R118). -/
def settle (s : State) : State :=
  let s := passInputs (passWindow (drainSelf 3 (sendNacks s)))
  let s := drainSelf 3 (drainNocs (drainOrdered s))
  let s := forEach (s.shts.sht.map (·.1)) badDops s
  let s := purgeDue (freeRun (nbrCheck (followLags (commits s))))
  forEach (s.link.map (·.1)) sendDue s

/-- A counted group has come: a receive direction that was armed is no longer (R386). -/
def disarmed (port : Nat) (s : State) : State := if s.flag (F.PRT_EI_CFG_rx_armed port) then eiDisarm port s else s

/-- A counted group has come, which disarms, and which R118 counts. -/
def countedGroup (port : Nat) (s : State) : State :=
  (disarmed port s).onLnk port fun l => { l with sinceLcu := l.sinceLcu + 1 }

/-- A packet arrives on a port that is enabled and UP, in a counted group; on any other port nothing does. -/
def arrive (port : Nat) (pk : Pkt) (s : State) : State :=
  if portOn s port && linkUp s port then
    settle (receivePkt port pk .good (disarmed port s))
  else s

/-! ### Link groups -/

/-- One link unit of a counted group, while the link stays UP (Table 03-12, R107, R108). -/
def takeUnit (port : Nat) (u : LinkUnit) (s : State) : State :=
  if !linkUp s port then s
  else if u.marker = 3#2 then rxLcu port u.bytes s
  else match rxUnit port u s with
    | (some r, s) =>
      if r.rx != 0 || r.lost then finishStream port r s
      else
        let b := r.units.flatMap (·.bytes)
        match decodePkt b with
        | some pk => receivePkt port pk (crcCheck b) s
        | none => protoError port s
    | (none, s) => if u.marker = 0#2 then s else streamUnit port s

/-- The link-control units of a group are processed; its packets are not (R122, R123). -/
def takeControls (port : Nat) (units : List LinkUnit) (s : State) : State :=
  forEach (units.filter fun u => u.marker == 3#2) (fun u s => if llState s port = 0 then s else rxLcu port u.bytes s) s

/-- A link-control unit of a counted group names another number than the group's (R110). -/
def wrongSeq (n : Nat) (units : List LinkUnit) : Bool :=
  units.any fun u => u.marker == 3#2 &&
    match decodeLcu u.bytes with
    | some l => !l.ucnt && l.txSeq.toNat != n
    | none => false

/-- A link group is uncounted: link unit 0 is a link-control unit with ucnt = 1 and the others are idle (R108). -/
def isUncounted (units : List LinkUnit) : Bool :=
  match units with
  | u :: rest => u.marker == 3#2 && bitOf (wordAt u.bytes 4).toNat 5 && rest.all fun x => x.marker == 0#2
  | [] => false

/-- The link-control unit of an uncounted group; one whose CRC does not match is counted (R107). -/
def takeUncounted (port : Nat) (units : List LinkUnit) (s : State) : State :=
  match decodeLcu (units.headD idleUnit).bytes with
  | none => s.bump (F.PRT_LCU_ERR_CNT_count port)
  | some u => if u.init then lcuOne port u s else lcuZero port u s

/-- A counted group on a port in UP. The next group in order is taken; after a bad group all are discarded until a replay, and
resent groups already accepted are discarded (R110, R119, R122). -/
def takeCounted (port : Nat) (units : List LinkUnit) (s : State) : State :=
  let s := countedGroup port s
  let l := s.lnk port
  match l.mode with
  | .waitReplay => s
  | .skipTo n =>
    if wrongSeq n units then badGroup port s
    else
      let next := (n + 1) % 65536
      takeControls port units (s.onLnk port fun l => { l with mode := if next = l.rxExp then .take else .skipTo next })
  | .take =>
    if wrongSeq l.rxExp units then badGroup port s
    else forEach units (takeUnit port) (s.onLnk port fun l => { l with rxExp := (l.rxExp + 1) % 65536, ackSeen := true })

/-- A counted group on a port in INIT: its link-control units may take the link to UP (Table 03-11), and then the group is the one
that they number. -/
def takeInInit (port : Nat) (units : List LinkUnit) (s : State) : State :=
  let s := takeControls port units s
  if linkUp s port then takeCounted port (units.filter fun u => u.marker != 3#2) s else s

/-- PACKET_RECEIVE: the ten link units of a link group arrive on an enabled port whose link is in INIT or UP (R86, R92, R108). -/
def packetArrive (port : Nat) (units : List LinkUnit) (s : State) : State :=
  let u := tenUnits units
  if !portOn s port || llState s port == 0 then s
  else if isUncounted u then settle (takeUncounted port u s)
  else if linkUp s port then settle (takeCounted port u s)
  else settle (takeInInit port u s)

end Sys2Proof.Machine
end

