-- ==== Sys2Proof/Machine/Reset.lean ====
section
/-! DEFINITION. Reset domains (R13, R14), ports disabled and enabled (Table 11-6, R501), what a die reset takes away
(Table 13-9), context resets and the scratchpad sample (R460 to R467). -/

namespace Sys2Proof.Machine

/-! ### Registers -/

/-- A register's word after a reset that reaches the domains `hit`. -/
def resetWord (hit : Domain → Bool) (off : Nat) (w : Word) : Word :=
  (regFields off).foldl (fun w f => if hit f.dom then putBits w f.lo f.width f.reset else w) w

/-- Resets the fields of every register that a reset reaches: `hit` tells it by offset and domain letter (R13). -/
def resetRegs (hit : Nat → Domain → Bool) (s : State) : State :=
  { s with regs := Sparse.mapVals regDefault (fun off w => resetWord (hit off) off w) s.regs }

/-- The weave die that alone holds a register (R27); `none` for the registers of no one die. Group entries, member slots and context
entries are such: the lowest-numbered running die serves them, and while all four dies are held in reset, when no die is left to
serve them and R27 says nothing, their accesses are answered as ever (DESIGN CHOICE, log 101). -/
def dieOfReg (off : Nat) : Option Nat :=
  if 0x800000 ≤ off ∧ off < 0xA00000 then some ((off - 0x800000) / 0x1000 / 128)
  else if 0xA00000 ≤ off ∧ off < 0xA80000 then some ((off - 0xA00000) / 0x400 / 128)
  else if 0x1000000 ≤ off ∧ off < 0x1440000 then some ((off - 0x1000000) / 0x2000 / 136)
  else if 0x2800000 ≤ off ∧ off < 0x2840000 then some ((off - 0x2800000) / 0x10000)
  else if 0x28C0000 ≤ off ∧ off < 0x2900000 then some ((off - 0x28C0000) / 0x20 / 2048)
  else if 0x2900000 ≤ off ∧ off < 0x2D00000 then some ((off - 0x2900000) / 0x100000)
  else if 0x2D00000 ≤ off ∧ off < 0x2D80000 then some ((off - 0x2D00000) / 0x80 / 1024)
  else if 0x4000 ≤ off ∧ off < 0x4800 then some ((off - 0x4000) / 4 / 128)
  else none

/-- A register of port `p` or of one of its lanes. -/
def ofPort (s : State) (p off : Nat) : Bool :=
  (decide (0x800000 ≤ off ∧ off < 0xA00000) && (off - 0x800000) / 0x1000 == p)
    || (decide (0xA00000 ≤ off ∧ off < 0xA80000) && (portLanes s p).contains ((off - 0xA00000) / 0x400))

/-- The context that a C-domain register belongs to, by the ranges of CTX_GRP for entries and watermarks (R241). -/
def inCtx (s : State) (c off : Nat) : Bool :=
  let g (n : Nat) : Bool :=
    let b := s.fld (F.CTX_GRP_grp_base c)
    decide (b ≤ n ∧ n < b + s.fld (F.CTX_GRP_grp_cnt c))
  if 0x2000000 ≤ off ∧ off < 0x2100000 then g ((off - 0x2000000) / 0x40)
  else if 0x2200000 ≤ off ∧ off < 0x2300000 then (off - 0x2200000) / 0x100 == c
  else if 0x2880000 ≤ off ∧ off < 0x2890000 then (off - 0x2880000) / 0x10 == c
  else if 0x3600000 ≤ off ∧ off < 0x3680000 then g ((off - 0x3600000) / 0x20)
  else false

/-! ### Ports -/

/-- DIS of Table 11-6 on every lane of a port: its drivers go off, and the link layer sees LOSS. -/
def disablePort (p : Nat) (s : State) : State :=
  let s := forEach (portLanes s p) (fun n s => laneDis n (abortScan n s)) s
  let s := linkLoss p (setActive p 0 s)
  s.onPln p fun _ => {}

/-- Ports may train: the device is ON and no fatal fault holds it (R419, R442). -/
def portsMayRun (s : State) : Bool := s.fld F.PWR_STATUS_seq == 2 && !s.flag F.FLT_STATUS_fatal

/-- EN of Table 11-6 on every lane of an enabled port: it trains (Table 11-7), unless its die is held in reset, every port is kept
disabled, or the reed has no lane clock (R407). -/
def enablePort (p : Nat) (s : State) : State :=
  let unclocked := s.flt.live.contains (Cause.laneRefclkLoss, locReed (if 256 ≤ p then 4 else 0))
  if portOn s p && portsMayRun s && !inReset s (portDie p) && !unclocked then forEach (portLanes s p) laneEn s else s

/-- Disables every port that is enabled. -/
def disableAll (s : State) : State := forEach (enabledPorts s) disablePort s

/-- A port's records outside its registers return to their initial state. -/
def clearPort (p : Nat) (s : State) : State :=
  let s := s.onLnk p fun _ => {}
  let s := s.onPdisc p fun _ => {}
  let s := s.onPln p fun _ => {}
  let s := s.onPsch p fun _ => {}
  let s := forEach (upTo 8) (fun q s => s.onQsch (p * 8 + q) fun _ => {}) s
  forEach (portLanes s p) (fun n s => s.onLane n fun _ => {}) s

/-- A port whose number the draft defines. -/
def takesCredits (p : Nat) (s : State) : State := s.onLnk p fun l => { l with withhold := false, owed := [0, 0, 0, 0, 0, 0, 0, 0] }

/-- The port reset of R501, without the new bring-up: DIS, queues flushed, T fields of the port and its lanes reset. -/
def portClear (p : Nat) (s : State) : State :=
  let s := disablePort p s
  let s := flushPort p s
  let mine := ofPort s p
  let s := resetRegs (fun off dom => dom == .t && mine off) s
  let s := forEach ([8] ++ (upTo 18).map (· + 20)) (fun c s => if s.flt.live.contains (c, locPort p) then endLive c (locPort p) s else s) s
  clearPort p s

/-- PORT_RESET and the application of a PORTS panel (R501): the port restarts and brings up. -/
def portReset (p : Nat) (s : State) : State := enablePort p (portClear p s)

/-! ### Trackers and copies of a die or a context -/

/-- Inputs in transit that satisfy `f` are discarded, and their credits return. -/
def removeInputs (f : Input → Bool) (s : State) : State :=
  let gone := s.grp.transit.filter f
  forEach gone dropInput { s with grp := { s.grp with transit := s.grp.transit.filter fun x => !f x } }

/-! ### Context reset (R460 to R465) -/

/-- A request of one of the contexts. -/
def reqIn (cs : List Nat) (r : Req) : Bool := cs.contains r.p.ctx.toNat

/-- Every tracker of the contexts ends as the ABORT rows do, with no PCPL; its sheets return (step 4). -/
def endTrackers (cs : List Nat) (s : State) : State :=
  forEach s.grp.trk (fun x s =>
    match x.2 with
    | some t => if cs.contains t.ctx then freeTrk x.1 t (freeSheets x.1 t s) else s
    | none => s) s

/-- Requests of the contexts that wait at shuttles are dropped and their credits return (R462). -/
def purgeRequests (cs : List Nat) (s : State) : State :=
  let noc := s.fab.noc.filter fun x => reqIn cs x.2
  let s := { s with fab := { s.fab with noc := s.fab.noc.filter fun x => !reqIn cs x.2 } }
  let s := forEach noc (fun x s => takeReq x.2 s) s
  let s := forEach s.shts.sht (fun kv s =>
    forEach ((stubOps kv.2.stub).filter (reqIn cs)) takeReq
      (s.onSht kv.1 fun r => { r with stub := r.stub.filter fun x => match x.1 with | .op q => !reqIn cs q | _ => true })) s
  let late := s.fab.ordWait.filter (reqIn cs) ++ (s.fab.shaped.map (·.1)).filter (reqIn cs)
  let s := forEach late takeReq { s with fab := { s.fab with
    ordWait := s.fab.ordWait.filter fun r => !reqIn cs r
    shaped := s.fab.shaped.filter fun x => !reqIn cs x.1 } }
  let cut (m : Mig) : Mig := { m with frozen := m.frozen.filter fun r => !reqIn cs r }
  let frozen := (s.shts.mig.toList ++ s.shts.panel).flatMap fun m => m.frozen.filter (reqIn cs)
  let s := { s with shts := { s.shts with mig := s.shts.mig.map cut, panel := s.shts.panel.map cut } }
  let s := forEach frozen takeReq s
  let s := forEach s.fab.dir (fun kv s =>
    if kv.2.wait.any (reqIn cs) then s.setDir kv.1 { s.dirE kv.1 with wait := kv.2.wait.filter fun r => !reqIn cs r } else s) s
  let fan := s.fab.fan.filter fun kv => match kv.2 with | some f => cs.contains f.ctx.toNat | none => false
  let s := forEach fan (fun kv s => s.setFan kv.1 none) s
  { s with fab := { s.fab with
      fanWait := s.fab.fanWait.filter fun x => !cs.contains x.1.ctx.toNat
      self := s.fab.self.filter fun p => !cs.contains p.ctx.toNat } }

/-- The outstanding requests of the contexts complete to their requesters with status ACCESS (R462). -/
def purgeOrt (cs : List Nat) (s : State) : State :=
  forEach s.fab.ort (fun kv s => if kv.2.busy && cs.contains kv.2.ctx then endEntry kv.1 .access s else s) s

/-- The purge begins (R462): copies that wait for admission, inputs in transit and requests go at once, copies in a queue when they
reach its head; a copy that has begun to leave ends normally. -/
def purge (cs : List Nat) (s : State) : State :=
  let s := { s with core := { s.core with nacks := s.core.nacks.filter fun p => !cs.contains p.ctx.toNat } }
  let s := purgeHeads cs (dropAdmission (fun c => pktIn cs c.pkt) s)
  let s := removeHeld (fun h => pktIn cs h.target.pkt) s
  let s := removeInputs (fun x => pktIn cs x.pkt) s
  purgeOrt cs (purgeRequests cs s)

/-- The scrub of one context (R463): its sheets and window region zero, its lines I, its loaded copies cleared. -/
def scrub (c : Nat) (s : State) : State :=
  let base := shareBase s c
  let size := s.fld (F.CTX_REAM_ream_sh c)
  let s := forEach (upTo 512) (fun L s =>
    match physOf s L with
    | some p => if size = 0 then s else zeroRange (sheetKey p base 0) (sheetKey p (base + size) 0) s
    | none => s) s
  let s := { s with grp := { s.grp with share := s.grp.share.filter fun x => x.1 % 4096 != c } }
  let lo := s.fld (F.CTX_WIN_RANGE_base c) * 65536
  let hi := min (winSize s) (s.fld (F.CTX_WIN_RANGE_limit c) * 65536)
  let s := forEach ((upTo 16384).filter fun k => decide (lo ≤ k * 4096 ∧ k * 4096 < hi)) (fun k s =>
    match physOf s (winHome (k * 4096)) with
    | some p => zeroRange (winKey p (k * 4096)) (winKey p (k * 4096) + 4096) s
    | none => s) s
  let mine := s.fab.dir.filter fun x => decide (lo ≤ x.1 * 64 ∧ x.1 * 64 < hi)
  let s := forEach mine (fun x s => s.setDir x.1 {}) s
  forEach s.shts.sht (fun x s =>
    if s.flag (F.SHT_STATUS_ctx_vld x.1) && s.fld (F.SHT_STATUS_ctx x.1) == c then unloadSht x.1 s else s) s

/-! ### The scratchpad sample (R466, R467) -/

/-- Writes a 32-bit word of the capture buffer. -/
def setCapWord (a n : Nat) (s : State) : State := writeBytes State.setCapByte a (leBytes 4 n) s

/-- The state code of a tracker record. -/
def trkCode : TrkSt → Nat
  | .acc => 1
  | .emit => 2
  | .wait => 3
  | .write => 4
  | .failed => 5

/-- The words of a tracker record (Table 13-7). -/
def trkRecord (i : Nat) (t : Tracker) : List Nat :=
  [2 ^ 31 + trkCode t.st * 2 ^ 28 + i / 4096 * 2 ^ 26 + ofBool t.root * 2 ^ 25 + ofBool t.line * 2 ^ 24
     + ofBool t.leaf * 2 ^ 23 + ofBool t.treeB * 2 ^ 22 + (if t.st == .failed then t.fail % 16 else 0) * 2 ^ 18 + i % 4096,
   t.group * 2 ^ 12 + t.ctx, t.pick, vEpoch t.ver * 65536 + min 255 t.sheets.length,
   t.home * 2 ^ 23 + t.expected, t.arrived, t.contrib, t.told]

/-- Takes the sample of a context into the capture buffer (Tables 13-5 to 13-8). -/
def takeSample (c : Nat) (s : State) : State :=
  let seq := saturate 32 (ofLe (readBytes s.capByte 4 4) + 1)
  let ts : List (Nat × Tracker) := s.grp.trk.filterMap fun x => match x.2 with
    | some t => if t.ctx == c then some (x.1, t) else none
    | none => none
  let sheets : List (Nat × Tracker × Nat × Nat) :=
    ts.flatMap fun (x : Nat × Tracker) => x.2.sheets.zipIdx.map fun (y : Nat × Nat) => (x.1, x.2, y.1, y.2)
  let kept := sheets.take 14336
  let trunc := decide (14336 < sheets.length)
  let ft := ftimeNs s
  let old := s
  let s := { s with mem := { s.mem with cap := [] } }
  let words : List Nat := [0xCA970001, seq, ofBool trunc * 2 ^ 31 + c, ts.length * 65536 + kept.length, sheets.length,
    s.tbase % 2 ^ 32, s.tbase / 2 ^ 32, ft % 2 ^ 32]
  let s := forEach words.zipIdx (fun x s => setCapWord (4 * x.2) x.1 s) s
  let s := forEach (ts.take 16384).zipIdx (fun (x : (Nat × Tracker) × Nat) s =>
    forEach (trkRecord x.1.1 x.1.2).zipIdx (fun y s => setCapWord (0x1000 + x.2 * 32 + 4 * y.2) y.1 s) s) s
  let s := forEach kept.zipIdx (fun (x : (Nat × Tracker × Nat × Nat) × Nat) s =>
    let i := x.1.1
    let t := x.1.2.1
    let sheet := x.1.2.2.1
    let slot := x.1.2.2.2
    let s := setCapWord (0x81000 + x.2 * 8) (2 ^ 31 + t.home * 2 ^ 8 + sheet) s
    let s := setCapWord (0x81000 + x.2 * 8 + 4) (i % 4096 * 2 ^ 8 + slot) s
    writeBytes State.setCapByte (0x100000 + x.2 * 512) (readBytes old.sheetByte (sheetKey t.phys sheet 0) 512) s) s
  let s := s.setFlag F.FLT_CAP_CTL_held true
  let s := s.setFld F.FLT_CAP_CTL_seq (seq % 65536)
  (s.setFlag F.FLT_CTX_RST_STATUS_sampled true).setFlag F.FLT_CTX_RST_STATUS_trunc trunc

/-- Step 3 of Table 13-4: the sample, when asked for and the buffer is free; otherwise `skipped` (R466). -/
def sampleStep (r : CtxReset) (s : State) : State :=
  if r.sample then
    if s.flag F.FLT_CAP_CTL_held then s.setFlag F.FLT_CTX_RST_STATUS_skipped true
    else forEach r.ctxs takeSample s
  else s

/-- Steps 3 to 5 of Table 13-4; a migration that is busy puts them off (R465). -/
def ctxResetSteps (s : State) : State :=
  match s.ctxRst with
  | none => s
  | some r =>
    if r.ran || s.shts.mig.isSome then s
    else
      let s := sampleStep r s
      let s := endTrackers r.ctxs s
      let s := purge r.ctxs s
      { s with ctxRst := some { r with ran := true, purging := true } }

/-- An abort of this cycle that named trackers of the contexts: the reset prevails, and its result is ALREADY_COMPLETE (R465). -/
def prevail (cs : List Nat) (s : State) : State :=
  match s.grp.abortAt with
  | some (1, _, t) =>
    if t = s.now ∧ cs.contains (s.fld F.GLB_GRP_ABORT_SEL_ctx) then { s with grp := { s.grp with abortAt := some (2, 0, t) } } else s
  | _ => s

/-- Starts a context reset of the contexts: gates close, the steps run (Table 13-4). -/
def startCtxReset (cs : List Nat) (sample panel : Bool) (s : State) : State :=
  let s := prevail cs s
  let s := s.wr R.FLT_CTX_RST_STATUS 0x80000000#32
  let s := forEach cs (fun _ s => s.bumpSel 0x28) s
  ctxResetSteps { s with ctxRst := some { ctxs := cs, start := s.now, sample := sample, panel := panel } }

/-- CONTEXT_RESET: a write of FLT_CTX_RST; go is ignored while a context reset is busy (R460, R500). -/
def contextReset (val : Word) (s : State) : State :=
  let s := s.storeReg R.FLT_CTX_RST val
  if bitOf val.toNat 31 && !s.flag F.FLT_CTX_RST_STATUS_busy then
    startCtxReset [bits val.toNat 0 12] (bitOf val.toNat 30) false s
  else s

/-- CTX_RESET_TMO: a context reset still busy at 2 ms (R464). -/
def ctxResetTmo (s : State) : State :=
  match s.ctxRst with
  | some r =>
    if !r.late && decide (r.start + 2000000 ≤ s.now) then
      raiseCause Cause.ctxResetTmo locNone r.ctxs.head? 0 { s with ctxRst := some { r with late := true } }
    else s
  | none => s

/-- The C-domain reset of one context (step 7): its registers, group entries, watermarks, shaper and lags. -/
def ctxDomain (c : Nat) (s : State) : State :=
  let b := s.fld (F.CTX_GRP_grp_base c)
  let n := s.fld (F.CTX_GRP_grp_cnt c)
  let mine (g : Nat) : Bool := decide (b ≤ g ∧ g < b + n)
  let inC := inCtx s c
  let s := resetRegs (fun off dom => dom == .c && inC off) s
  let s := { s with
    grp := { s.grp with
      ent := s.grp.ent.filter fun x => !mine x.1
      lag := s.grp.lag.filter fun x => !mine (x.1 / 131072) }
    sched := { s.sched with ctx := s.sched.ctx.filter fun x => x.1 != c } }
  s.setFlag F.GLB_GRP_UPD_STATUS_settled (s.grp.ent.all fun x => x.2.retiring.isNone && x.2.pending.isNone)

/-- Steps 6 to 8 of Table 13-4: scrub, C-domain reset, gate open, busy := 0, DONE or DONE_LATE, vector 2. -/
def finishCtxReset (r : CtxReset) (s : State) : State :=
  let s := forEach r.ctxs ctxDomain (forEach r.ctxs scrub s)
  let dt := s.now - r.start
  let s := { s with ctxRst := none }
  let s := s.setFlag F.FLT_CTX_RST_STATUS_busy false
  let s := s.setFld F.FLT_CTX_RST_STATUS_result (if r.late || decide (2000000 < dt) then 2 else 1)
  let s := s.setFld F.FLT_CTX_RST_STATUS_elapsed (saturate 16 (dt / 1000))
  raiseInt 2 (endLive Cause.ctxResetTmo locNone s)

/-- CAPTURE_RELEASE: a write of release frees the capture buffer (R466). -/
def captureRelease (val : Word) (s : State) : State :=
  if bitOf val.toNat 31 then (s.setFlag F.FLT_CAP_CTL_held false).setFld F.FLT_CAP_CTL_seq 0 else s

/-! ### Die reset: what it takes away (Table 13-9, R469) -/

/-- A port that weave die `d` serves. -/
def onDie (d p : Nat) : Bool := portDie p == d

/-- Step 1: weights of the die's logical shuttles 0, home_tab rebuilt, its trackers ended as the ABORT rows. -/
def dieStep1 (d : Nat) (s : State) : State :=
  let s := s.setFlag ⟨R.FLT_STATUS, 26 + d, 1⟩ true
  let s := forEach (upTo 128) (fun i s => setWeight (d * 128 + i) 0 s) s
  let s := homeRebuild s
  forEach s.grp.trk (fun x s =>
    match x.2 with
    | some t => if t.home / 128 == d then endTrk x.1 t 2 s else s
    | none => s) s

/-- What still crosses from a die that stops does not arrive: its copy is discarded, or ends stomped where it has begun to leave
(R106). -/
def loseXfers (d : Nat) (s : State) : State :=
  forEach ((s.core.xfer.filter fun x => x.1 / 4 == d).flatMap (·.2)) (fun t s =>
    let s := mapCopies (fun c => if c.xid = t.own then { c with stomp := true, rx := 0 } else c) (closeCells t.own t.dst s)
    endXfer t s) s

/-- With all four dies held in reset no copy of the group and context tables is left (R13, R22, R469). -/
def loseTables (s : State) : State :=
  let s := resetRegs (fun off dom => decide (0x2000000 ≤ off ∧ off < 0x2300000) && dom == .c) s
  { s with grp := { s.grp with ent := [], lag := [] } }

/-- Steps 2 to 4: the die's ports go down, copies toward them are flushed, and everything the die alone holds returns to
its initial state, its memories to zero. -/
def dieWipe (d : Nat) (s : State) : State :=
  let s := forEach ((enabledPorts s).filter (onDie d)) disablePort s
  let s := loseXfers d s
  let s := removeCopies (fun c => c.head / 2 ^ 18 == d || onDie d (c.queue / 8)) s
  let s := removeHeld (fun h => (h.port < 512 && onDie d h.port) || h.copy.any fun c => c.head / 2 ^ 18 == d) s
  let s := removeInputs (fun x => x.port < 512 && onDie d x.port) s
  let s := resetRegs (fun off dom => dieOfReg off == some d && (dom == .d || dom == .t || dom == .s || dom == .c)) s
  let s := if (upTo 4).all (inReset s) then loseTables s else s
  let sheetsOfDie (a : Nat) : Bool := a / 1048576 / 136 == d
  let portKey (k : Nat) : Bool := onDie d k
  { s with
    mem := { s.mem with sheets := eraseCells sheetsOfDie s.mem.sheets }
    fab := { s.fab with
      ort := s.fab.ort.filter fun x => !onDie d x.2.port
      noc := s.fab.noc.filter fun x => x.1 / 128 != d }
    core := { s.core with
      cells := s.core.cells.filter fun x => x.1 / 2 ^ 18 != d
      pushed := s.core.pushed.filter fun x => x.1 != d
      fresh := s.core.fresh.filter fun x => x.1 != d
      descPushed := s.core.descPushed.filter fun x => x.1 != d
      descFresh := s.core.descFresh.filter fun x => x.1 != d
      half := s.core.half.filter fun x => x.1 / 4 != d && x.1 % 4 != d
      used := s.core.used.filter fun x => x.1 / 2048 != d
      xfer := s.core.xfer.filter fun x => x.1 / 4 != d && x.1 % 4 != d
      gp := s.core.gp.filter fun x => !onDie d (x.1 / 8)
      ap := s.core.ap.filter fun x => x.1 / 4 != d && x.1 % 4 != d }
    link := s.link.filter fun x => !portKey x.1
    disc := { s.disc with ports := s.disc.ports.filter fun x => !portKey x.1 }
    grp := { s.grp with
      trk := s.grp.trk.filter fun x => x.1 / 4096 != d
      share := s.grp.share.filter fun x => x.1 / 4096 / 128 != d }
    shts := { s.shts with
      sht := s.shts.sht.filter fun x => x.1 / 136 != d
      redirect := s.shts.redirect.filter fun x => x.1 / 136 != d
      rwAt := setAt s.shts.rwAt d s.now
      rwDone := setAt s.shts.rwDone d false }
    sched := { s.sched with
      q := s.sched.q.filter fun x => !onDie d (x.1 / 8)
      p := s.sched.p.filter fun x => !portKey x.1
      pol := s.sched.pol.filter fun x => x.1 / 2048 != d
      fptr := setAt s.sched.fptr d 0
      cptr := setAt s.sched.cptr d 0 }
    ecc := { s.ecc with
      cells := s.ecc.cells.filter fun x => x.1 / 2 ^ 18 != d
      words := s.ecc.words.filter fun x => !sheetsOfDie (x.1 * 8)
      q1Stop := s.ecc.q1Stop.filter fun p => !portKey p }
    lanes := { s.lanes with
      lane := s.lanes.lane.filter fun x => !portKey x.1
      port := s.lanes.port.filter fun x => !portKey x.1 }
    flt := { s.flt with live := s.flt.live.filter fun x =>
      !((bits x.2.toNat 28 4 == 1 || bits x.2.toNat 28 4 == 2) && onDie d (bits x.2.toNat 0 9)) } }

/-- A migration of the die's shuttles has lost its shuttle: it ends without a switch cycle (the spec is silent), and the
operations that it froze reach their home again. -/
def dropMigration (d : Nat) (s : State) : State :=
  let gone := s.shts.panel.filter fun m => m.logical / 128 == d
  let s := { s with shts := { s.shts with panel := s.shts.panel.filter fun m => m.logical / 128 != d } }
  let s := windowBack (gone.flatMap (·.frozen)) s
  match s.shts.mig with
  | some m =>
    if m.logical / 128 = d then
      let s := raiseInt 4 (({ s with shts := { s.shts with mig := none } }).setFlag F.GLB_SHT_MIG_STATUS_busy false)
      windowBack m.frozen s
    else s
  | none => s

/-- Window operations that wait for the die's shuttles or at their directory, and those pending there, are answered
ADDR_ERR (R469); the die's directory entries return to their initial state, so that no late completion or expiry
completes one. -/
def dieRequests (d : Nat) (s : State) : State :=
  let noc := (s.fab.noc.filter fun x => x.1 / 128 == d).map (·.2)
  let mine := s.shts.sht.filter fun x => x.1 / 136 == d
  let lines := s.fab.dir.filter fun x => lineHome x.1 / 128 == d
  let s := { s with fab := { s.fab with
    noc := s.fab.noc.filter fun x => x.1 / 128 != d
    dir := s.fab.dir.filter fun x => lineHome x.1 / 128 != d } }
  let s := forEach mine (fun x s => s.onSht x.1 fun r => { r with stub := [] }) s
  let s := forEach (noc ++ mine.flatMap fun x => stubOps x.2.stub) (fun r s => answer r .addrErr none (takeReq r s)) s
  forEach (lines.flatMap fun x => x.2.pend.toList ++ x.2.wait) (fun r s => answer r .addrErr none s) s

/-- The live bits follow the live conditions. -/
def showAllLive (s : State) : State := forEach (upTo 48) showLive s

/-- A die is held in die reset: steps 1 to 4 of Table 13-9. -/
def dieHold (d : Nat) (s : State) : State :=
  let s := dieStep1 d s
  let s := dieRequests d (dropMigration d s)
  showRedirects (showAllLive (dieWipe d s))

/-- The time-driven parts restart: wheels, age and weight intervals, fabric time. -/
def restartClocks (s : State) : State :=
  { s with
    sched := { s.sched with
      fineAt := (upTo 4).map fun _ => s.now + 8
      coarseAt := (upTo 4).map fun _ => s.now + 32000
      ageAt := s.tbase / 1000 * 1000 + 1000
      sampleAt := s.now }
    shts := { s.shts with rwAt := (upTo 4).map fun _ => s.now }
    time := { s.time with upd := s.now } }

end Sys2Proof.Machine
end

