-- ==== Sys2Proof/Machine/Draft.lean ====
section
/-! DEFINITION. Drafts: their layout in flash (Tables 14-6, 14-7), what a panel says (R493, R494), the checks of a draft
(R491, R492, Table 14-9), and how its records and shed lists enter the registers. -/

namespace Sys2Proof.Machine

/-! ### A draft in flash -/

/-- The flash address of a draft slot (Table 14-5). -/
def slotBase (slot : Nat) : Nat := slot * 0x1800000

/-- `n` bytes of the draft in `slot` from byte `a`. -/
def drBytes (s : State) (slot a n : Nat) : List Byte := readBytes s.flashByte (slotBase slot + a) n

/-- A little-endian field of `n` bytes of the draft in `slot`. -/
def drLe (s : State) (slot a n : Nat) : Nat := ofLe (drBytes s slot a n)

/-- A panel directory entry (Table 14-7). -/
structure PanelEnt where
  kind : Nat
  region : Nat
  offset : Nat
  blen : Nat
  hash : List Byte
  deriving DecidableEq, Repr

/-- The draft's seq. -/
def drSeq (s : State) (slot : Nat) : Nat := drLe s slot 0x0C 4

/-- The panel directory of the draft in `slot`. -/
def panelDir (s : State) (slot : Nat) : List PanelEnt :=
  (upTo (drLe s slot 0x18 2)).map fun i =>
    let a := 0x100 + 64 * i
    { kind := drLe s slot a 1, region := drLe s slot (a + 2) 2, offset := drLe s slot (a + 4) 4,
      blen := drLe s slot (a + 8) 4, hash := drBytes s slot (a + 16) 48 }

/-- The directory entry of a region, with its index. -/
def findPanel (l : List PanelEnt) (kind region : Nat) : Option (PanelEnt × Nat) :=
  l.zipIdx.find? fun x => x.1.kind == kind && x.1.region == region

/-- The body of a panel. -/
def panelBody (s : State) (slot : Nat) (e : PanelEnt) : List Byte := drBytes s slot e.offset e.blen

/-- The write records of a body: BAR offset and value (R493). -/
def writeRecords (body : List Byte) : List (Nat × Word) :=
  (blocksOf 8 (body.length / 8) body).map fun b => (ofLe (b.take 4), BitVec.ofNat 32 (ofLe (b.drop 4)))

/-- The shed records of a TREADLING body: port and shed entry (R494). -/
def shedRecords (body : List Byte) : List (Nat × BitVec 64) :=
  (blocksOf 16 (body.length / 16) body).map fun b => (ofLe (b.take 2), BitVec.ofNat 64 (ofLe (b.drop 8)))

/-- The key of a region in DrfSt. -/
def regionKey (kind region : Nat) : Nat := kind * 4096 + region

/-- The slot whose panel a region holds (R500). -/
def regionSlot (s : State) (kind region : Nat) : Option Nat :=
  Sparse.get (fun _ => none) s.drf.slotOf (regionKey kind region)

/-- Records the slot whose panel a region holds. -/
def setRegionSlot (kind region : Nat) (v : Option Nat) (s : State) : State :=
  { s with drf := { s.drf with slotOf := Sparse.put (fun _ => none) s.drf.slotOf (regionKey kind region) v } }

/-- The body that the draft in `slot` gives a region, `none` when it lacks the panel. -/
def bodyIn (s : State) (slot kind region : Nat) : Option (List Byte) :=
  (findPanel (panelDir s slot) kind region).map fun x => panelBody s slot x.1

/-- The body of the panel that a region holds. -/
def bodyHeld (s : State) (kind region : Nat) : Option (List Byte) :=
  match regionSlot s kind region with
  | some slot => bodyIn s slot kind region
  | none => none

/-- The records that the draft in `slot` gives a region of kind 0 to 3. -/
def recsIn (s : State) (slot kind region : Nat) : List (Nat × Word) := writeRecords ((bodyIn s slot kind region).getD [])

/-- The records that a region holds. -/
def recsHeld (s : State) (kind region : Nat) : List (Nat × Word) := writeRecords ((bodyHeld s kind region).getD [])

/-! ### What a record may name (Table 14-8) -/

/-- The registers that a GLOBAL panel may write. -/
def inGlobal (off : Nat) : Bool :=
  decide (off < 0x100000 ∨ (0x2400000 ≤ off ∧ off < 0x2840100) ∨ (0x2890000 ≤ off ∧ off < 0x2891000)
    ∨ (0x28C0000 ≤ off ∧ off < 0x2900000) ∨ (0x2200000 ≤ off ∧ off < 0x2300000 ∧ off % 0x100 = 0x54)
    ∨ (0x800000 ≤ off ∧ off < 0xA00000 ∧ off % 0x1000 = 0x2C4) ∨ (0xB04000 ≤ off ∧ off < 0xB05000)
    ∨ (0x1804000 ≤ off ∧ off < 0x1805000))

/-- The registers that a panel of a kind and region may write (Table 14-8). -/
def inScope (kind region off : Nat) : Bool :=
  match kind with
  | 0 => inGlobal off
  | 1 =>
    decide (0x800000 ≤ off ∧ off < 0xA00000 ∧ (off - 0x800000) / 0x1000 / 64 = region ∧ off % 0x1000 ≠ 0x2C4)
      || decide (0xA00000 ≤ off ∧ off < 0xA80000 ∧ (off - 0xA00000) / 0x400 / 64 = region)
  | 2 =>
    decide (0x4000 ≤ off ∧ off < 0x4800 ∧ (off - 0x4000) / 4 / 128 = region)
      || decide (0x1000000 ≤ off ∧ off < 0x1440000 ∧ (off - 0x1000000) / 0x2000 / 136 = region ∧ off % 0x2000 = 0)
  | 3 =>
    (decide (0x2200000 ≤ off ∧ off < 0x2300000 ∧ (off - 0x2200000) / 0x100 / 256 = region)
        && ([0x40, 0x44, 0x50, 0x60, 0x64].contains (off % 0x100) || decide (0x80 ≤ off % 0x100 ∧ off % 0x100 < 0xC0)))
      || decide (0x2880000 ≤ off ∧ off < 0x2890000 ∧ (off - 0x2880000) / 0x10 / 256 = region ∧ off % 0x10 < 8)
  | _ => false

/-- The mask of the fields of a register whose access satisfies `f`. -/
def accessMask (off : Nat) (f : Access → Bool) : Word :=
  (regFields off).foldl (fun m x => if f x.access then m ||| fieldMask x.lo x.width else m) 0

/-- A field that a record may set. -/
def isDraftable : Access → Bool
  | .dl | .rw => true
  | _ => false

/-- A GLB_SHT_MAP entry. -/
def isShtMap (off : Nat) : Bool := decide (0x4000 ≤ off ∧ off < 0x4800)

/-- A record may stand in a panel (R493): a register of its scope with a DL or RW field, RO and reserved bits 0, phys of
GLB_SHT_MAP excepted; count 0 in PRT_TRD_SHEDS. -/
def recordOk (kind region : Nat) (r : Nat × Word) : Bool :=
  let may := accessMask r.1 (fun a => a != .ro) ||| (if isShtMap r.1 then 0xFF else 0)
  r.1 % 4 == 0 && inScope kind region r.1 && (regFields r.1).any (fun x => isDraftable x.access)
    && r.2 &&& ~~~ may == 0
    && (!(decide (0x800000 ≤ r.1 ∧ r.1 < 0xA00000 ∧ r.1 % 0x1000 = 0x2C4)) || bits r.2.toNat 17 14 == 0)

/-! ### The checks of a draft (R491, R492) -/

/-- A refusal: its code of Table 14-9, and the panel at fault; `none` where several panels make the fault together. -/
structure Refused where
  code : Nat
  panel : Option Nat := some 0
  deriving DecidableEq, Repr

/-- The first refusal of a list of checks. -/
def firstBad : List (Unit → Option Refused) → Option Refused
  | [] => none
  | f :: rest => match f () with
    | some r => some r
    | none => firstBad rest

/-- A check that refuses with a code unless it holds. -/
def need (code : Nat) (ok : Bool) : Option Refused := if ok then none else some { code := code }

/-- Check 1 of R491. -/
def headerCheck (s : State) (slot : Nat) : Option Refused :=
  let len := drLe s slot 0x10 4
  firstBad
    [fun _ => need 1 (drLe s slot 0 4 == 0xD4AF7E01),
     fun _ => need 2 (drLe s slot 4 2 == 1 && drLe s slot 6 2 == 128),
     fun _ => need 3 (drLe s slot 8 2 == 0x5120 && drLe s slot 10 1 == 0xB1),
     fun _ => need 2 (decide (len ≤ 0x1800000 ∧ drLe s slot 0x14 4 + 96 = len))]

/-- The life-cycle state (Table 14-11). -/
def lcState (s : State) : Nat := s.fuses.lcState

/-- Checks 2 to 4 of R491: serial, key hash, signature. -/
def authCheck (s : State) (slot : Nat) : Option Refused :=
  let flags := drLe s slot 11 1
  let sig := drLe s slot 0x14 4
  let key := drBytes s slot 0x80 97
  let fused := s.fuses.keyHash.flatMap fun w => leBytes 4 w.toNat
  let q := (ofBe ((key.drop 1).take 48), ofBe (key.drop 49))
  firstBad
    [fun _ => need 3 (!bitOf flags 0 || BitVec.ofNat 64 (drLe s slot 0x20 8) == s.fuses.serial),
     fun _ => need 4 (!(lcState s == 1 || lcState s == 2) || sha384 key == fused),
     fun _ => need 5 (key.getD 0 0 == 4 && ecVerify q (sha384 (drBytes s slot 0 sig)) (ofBe (drBytes s slot sig 48))
       (ofBe (drBytes s slot (sig + 48) 48)))]

/-- The regions of a kind. -/
def regionsOf (kind : Nat) : Nat :=
  match kind with
  | 0 => 1
  | 1 => 8
  | 2 => 4
  | 3 => 16
  | 4 => 4096
  | _ => 0

/-- The rules of R492 over one entry and the one before it. -/
def entryOk (s : State) (slot : Nat) (l : List PanelEnt) (i : Nat) (e : PanelEnt) : Bool :=
  let order (x : PanelEnt) : Nat := x.kind * 65536 + x.region
  decide (e.region < regionsOf e.kind)
    && (i != 0 || e.kind == 0)
    && (match l[i - 1]? with | some x => i == 0 || decide (order x < order e) | none => true)
    && e.offset % 8 == 0 && e.blen % (if e.kind = 4 then 16 else 8) == 0
    && decide (0x100 + 64 * l.length ≤ e.offset ∧ e.offset + e.blen ≤ drLe s slot 0x14 4)
    && l.zipIdx.all fun x => x.2 == i || decide (x.1.offset + x.1.blen ≤ e.offset ∨ e.offset + e.blen ≤ x.1.offset)

/-- Check 5 of R491: the directory, then each body's hash. -/
def directoryCheck (s : State) (slot : Nat) : Option Refused :=
  let n := drLe s slot 0x18 2
  let l := panelDir s slot
  if n = 0 ∨ 4125 < n then some { code := 2 }
  else match l.zipIdx.find? fun x => !entryOk s slot l x.2 x.1 with
    | some x => some { code := 2, panel := some x.2 }
    | none => match l.zipIdx.find? fun x => sha384 (panelBody s slot x.1) != x.1.hash with
      | some x => some { code := 6, panel := some x.2 }
      | none => none

/-- The last value that a list of records gives a register, its reset value without one. -/
def recVal (l : List (Nat × Word)) (off : Nat) : Nat :=
  match l.reverse.find? fun r => r.1 == off with
  | some r => r.2.toNat
  | none => (regDefault off).toNat

/-- All write records of the draft in `slot`. -/
def allRecords (s : State) (slot : Nat) : List (Nat × Word) :=
  ((panelDir s slot).filter fun e => decide (e.kind < 4)).flatMap fun e => writeRecords (panelBody s slot e)

/-- All shed records of the draft in `slot`, with the index of their panel. -/
def allSheds (s : State) (slot : Nat) : List ((Nat × BitVec 64) × Nat) :=
  ((panelDir s slot).zipIdx.filter fun x => x.1.kind == 4).flatMap fun x =>
    (shedRecords (panelBody s slot x.1)).map fun r => (r, x.2)

/-- The ports that a list of records defines: number and width. -/
def drPorts (l : List (Nat × Word)) : List (Nat × Nat) :=
  (upTo 512).filterMap fun p =>
    let v := recVal l (R.PRT_CFG p)
    if bitOf v 31 && bits v 29 2 != 3 then some (p, 2 ^ bits v 27 2) else none

/-- The panel that holds the registers of a port. -/
def portPanel (l : List PanelEnt) (p : Nat) : Option Nat := (findPanel l 1 (p / 64)).map (·.2)

/-- Code PORTS: a port that breaks R389 or overlaps another, an allotment outside R114, tag shares outside R53. -/
def badPort (l : List (Nat × Word)) (ps : List (Nat × Nat)) (x : Nat × Nat) : Bool :=
  let p := x.1
  let share (p : Nat) : Nat × Nat :=
    let v := recVal l (R.PRT_TAG_CFG p)
    (bits v 12 17, bits v 12 17 + bits v 0 12)
  let ep (p : Nat) : Bool := bits (recVal l (R.PRT_CFG p)) 29 2 == 0
  p % x.2 != 0
    || (ps.any fun y => y.1 != p && decide (y.1 < p + x.2 ∧ p < y.1 + y.2))
    || ((upTo 7).any fun q => decide (bits (recVal l (R.PRT_IG_RES p q)) 0 15 < 65))
    || (ep p && (decide (131071 < (share p).2)
      || ps.any fun y => y.1 != p && ep y.1 && decide ((share y.1).1 ≤ (share p).2 ∧ (share p).1 ≤ (share y.1).2)))

/-- The cells that the ingress and egress reserves of a slice take (Table 05-5). -/
def reservesOf (val : Nat → Nat) (ports : List Nat) (d : Nat) : Nat :=
  ((ports.filter fun p => portDie p == d).flatMap fun p => (upTo 8).map fun q => bits (val (R.PRT_IG_RES p q)) 0 15).sum
    + ((upTo 8).map fun j => bits (val (R.CBF_EG_RES d j)) 0 18).sum

/-- The sheds of a port in ascending start order (R494). -/
def sortSheds (l : List (BitVec 64)) : List (BitVec 64) :=
  l.mergeSort fun a b => bits a.toNat 0 15 ≤ bits b.toNat 0 15

/-- A shed list is valid (R221) and fits its port's part of the shed RAM (R494). -/
def shedsOk (l : List (Nat × Word)) (p : Nat) (sheds : List (BitVec 64)) : Bool :=
  let period := bits (recVal l (R.PRT_TRD_CFG p)) 0 15
  let base (p : Nat) : Nat := bits (recVal l (R.PRT_TRD_SHEDS p)) 0 17
  let next := ((upTo 128).map fun i => base (portDie p * 128 + i)).foldl (fun m b => if base p < b then min m b else m) 131072
  let span (v : BitVec 64) : Nat × Nat := (bits v.toNat 0 15, bits v.toNat 0 15 + bits v.toNat 15 15)
  decide (sheds.length ≤ 8192 ∧ base p + sheds.length ≤ next)
    && (sheds.all fun v => decide ((span v).1 < (span v).2 ∧ (span v).2 ≤ period))
    && (List.zipWith (fun a b => decide ((span a).2 ≤ (span b).1)) sheds (sheds.drop 1)).all id

/-- The shed lists of a draft by port: every port that a shed record names (R494). -/
def shedLists (l : List (Nat × BitVec 64)) : List (Nat × List (BitVec 64)) :=
  (l.map (·.1)).eraseDups.map fun p => (p, sortSheds ((l.filter (·.1 == p)).map (·.2)))

/-- The physical shuttle that a draft gives logical shuttle L: its record, or without a SHUTTLES panel its own number
(R495). -/
def draftPhys (hasPanel : Bool) (l : List (Nat × Word)) (L : Nat) : Option Nat :=
  if hasPanel then (l.reverse.find? fun r => r.1 == R.GLB_SHT_MAP L).map fun r => bits r.2.toNat 0 8
  else some (L % 128)

/-- The spare map of one die in a draft: (L, phys). -/
def draftMap (hasPanel : Bool) (l : List (Nat × Word)) (d : Nat) : List (Nat × Nat) :=
  (upTo 128).filterMap fun i => (draftPhys hasPanel l (d * 128 + i)).map fun p => (d * 128 + i, p)

/-- Code CONTEXT over the spare map of a die (R493). -/
def badMap (m : List (Nat × Nat)) : Bool :=
  (m.any fun x => decide (135 < x.2)) || (m.map (·.2)).eraseDups.length != m.length

/-- Code CONTEXT over contexts: group ranges that overlap or pass entry 16,383, a window region past win_size. -/
def badContexts (l : List (Nat × Word)) : Bool :=
  let win := bits (recVal l R.GLB_WIN_CFG) 0 6
  let cs := (upTo 4096).filterMap fun c =>
    let v := recVal l (R.CTX_GRP c)
    if bits v 16 15 = 0 then none else some (bits v 0 14, bits v 0 14 + bits v 16 15)
  (cs.zipIdx.any fun x => decide (16384 < x.1.2)
      || cs.zipIdx.any fun y => y.2 != x.2 && decide (y.1.1 < x.1.2 ∧ x.1.1 < y.1.2))
    || (upTo 4096).any fun c =>
      let v := recVal l (R.CTX_WIN_RANGE c)
      decide (bits v 0 10 < bits v 16 11 ∧ win * 32 < bits v 16 11)

/-- Check 7 of R491: the content checks, codes SCOPE to CONTEXT. -/
def contentCheck (s : State) (slot : Nat) : Option Refused :=
  let dir := panelDir s slot
  let l := allRecords s slot
  let ps := drPorts l
  let sheds := allSheds s slot
  firstBad
    [fun _ => (dir.zipIdx.find? fun x => decide (x.1.kind < 4)
        && (writeRecords (panelBody s slot x.1)).any fun r => !recordOk x.1.kind x.1.region r).map fun x =>
        { code := 8, panel := some x.2 },
     fun _ => (ps.find? (badPort l ps)).map fun x => { code := 9, panel := some ((portPanel dir x.1).getD 0) },
     fun _ => if (upTo 4).any fun d =>
         decide (196608 < s.fld (F.CBF_RETIRED_cells d) + reservesOf (recVal l) (ps.map (·.1)) d)
       then some { code := 10, panel := none } else none,
     fun _ => if 224 < ((upTo 4096).map fun c => bits (recVal l (R.CTX_REAM c)) 0 9).sum then some { code := 11 } else none,
     fun _ => (sheds.find? fun x => decide (512 ≤ x.1.1)
         || (match dir[x.2]? with | some e => bits x.1.2.toNat 30 12 != e.region | none => true)).map fun x =>
       { code := 12, panel := some x.2 },
     fun _ => if (shedLists (sheds.map (·.1))).any fun x => !shedsOk l x.1 x.2
       then some { code := 12, panel := none } else none,
     fun _ => if badContexts l then some { code := 13, panel := none } else none,
     fun _ => ((upTo 4).find? fun d => badMap (draftMap (findPanel dir 2 d).isSome l d)).map fun d =>
       { code := 13, panel := some (((findPanel dir 2 d).map (·.2)).getD 0) }]

/-- A draft verifies when no check refuses it (R491). -/
def verifySlot (s : State) (slot : Nat) : Option Refused :=
  firstBad
    [fun _ => headerCheck s slot, fun _ => authCheck s slot, fun _ => directoryCheck s slot,
     fun _ => need 7 (!(lcState s == 2 && bitOf (drLe s slot 11 1) 1)), fun _ => contentCheck s slot]

/-! ### The live codes (R498) -/

/-- The slot that is active. -/
def activeSlot (s : State) : Nat := s.fld F.DFT_STATUS_active

/-- The spare-map changes that a draft makes on a die against the panel that the die holds: (L, phys). -/
def mapChanges (s : State) (slot d : Nat) : List (Nat × Nat) :=
  let old := draftMap (regionSlot s 2 d).isSome (recsHeld s 2 d) d
  (draftMap (bodyIn s slot 2 d).isSome (recsIn s slot 2 d) d).filter fun x => !old.contains x

/-- Codes GLOBAL, SEQ and SPARE of a live load. -/
def liveCheck (s : State) (slot : Nat) : Option Refused :=
  let hashOf (k : Nat) : Option (List Byte) := (findPanel (panelDir s k) 0 0).map fun x => x.1.hash
  let mapped (L : Nat) : Bool := s.flag (F.GLB_SHT_MAP_valid L)
  let badDie (d : Nat) : Bool :=
    let ch := mapChanges s slot d
    (ch.any fun x => shtRole s (d * 136 + x.2) != 0) || decide (8 < (ch.filter fun x => mapped x.1).length)
  firstBad
    [fun _ => need 14 (hashOf slot == hashOf (activeSlot s)),
     fun _ => need 15 (decide (s.fld F.DFT_SEQ_seq < drSeq s slot)),
     fun _ => ((upTo 4).find? badDie).map fun d =>
       { code := 16, panel := some (((findPanel (panelDir s slot) 2 d).map (·.2)).getD 0) }]

/-! ### Records into registers -/

/-- A BAR write of the same cycle takes effect after the Deckle's, on the fields that it may change (R515). -/
def barAfter (off : Nat) (s : State) : State :=
  if s.mgt.barAt = s.now then
    match s.mgt.barNow.find? fun x => x.1 == off with
    | some x => s.storeReg off x.2
    | none => s
  else s

/-- Stores a record: the DL and RW fields of its register (R9, R493); a routing entry takes it at once, under the epoch it
has; an SHT_MAP record's phys goes to the spare map. -/
def applyRecord (r : Nat × Word) (s : State) : State :=
  let m := accessMask r.1 isDraftable
  let was := s.rd r.1
  let s := barAfter r.1 (s.wr r.1 ((was &&& ~~~ m) ||| (r.2 &&& m)))
  let keep (k : Nat) (s : State) : State := s.onRver k fun v => { v with active := entryWritten s k }
  if R.RTE_LOCAL 0 ≤ r.1 ∧ r.1 < R.RTE_LOCAL 32 then keep r.1 s
  else match routeKey r.1 with
    | some k => keep k s
    | none => s

/-- The policers that records name by their SHP_POL_CFG. -/
def namedPolicers (l : List (Nat × Word)) : List Nat :=
  l.filterMap fun r => if 0x28C0000 ≤ r.1 ∧ r.1 < 0x2900000 ∧ r.1 % 0x20 = 0 then some ((r.1 - 0x28C0000) / 0x20) else none

/-- Applies records in list order; policers that they enable start full at the sizes that they give (R236). -/
def applyRecords (l : List (Nat × Word)) (s : State) : State :=
  let off := (namedPolicers l).filter fun i => !s.flag (F.SHP_POL_CFG_en i)
  let s := forEach l applyRecord s
  forEach (off.filter fun i => s.flag (F.SHP_POL_CFG_en i)) fillPolicer s

/-- The DL fields of some registers return to their reset values before a new panel applies: a register that the panel
does not name is as in a draft that lacks it (R495). -/
def clearDl (these : Nat → Bool) (s : State) : State :=
  { s with regs := Sparse.mapVals regDefault (fun off w =>
      if these off then
        (regFields off).foldl (fun w f => if f.access == .dl then putBits w f.lo f.width f.reset else w) w
      else w) s.regs }

/-- The shed records in force: those of every TREADLING panel that a region holds. -/
def shedsInForce (s : State) : List (Nat × BitVec 64) :=
  (s.drf.slotOf.filter fun x => decide (regionKey 4 0 ≤ x.1)).flatMap fun x =>
    shedRecords ((bodyHeld s 4 (x.1 - regionKey 4 0)).getD [])

/-- The shed list that the panels in force give a port. -/
def shedListOf (s : State) (p : Nat) : List (BitVec 64) :=
  sortSheds (((shedsInForce s).filter (·.1 == p)).map (·.2))

/-! ### The boot of a die (Table 13-9 steps 4 to 7, Table 13-10) -/

/-- Shared pool: slice cells less retired cells and reserves (Table 05-5). -/
def setShared (d : Nat) (s : State) : State :=
  showFree d (s.setFld (F.CBF_SHARED_cells d)
    (196608 - s.fld (F.CBF_RETIRED_cells d) - reservesOf (fun off => (s.rd off).toNat) (enabledPorts s) d))

/-- The free stack of a slice holds every cell that passed, and that of the die's copy descriptors every descriptor; cells that
failed are counted (R176, R182). -/
def fillCells (d : Nat) (s : State) : State :=
  (setStack d [] 196608 (setDescStack d [] 262144 s)).setFld (F.CBF_RETIRED_cells d) (badOf s d).length

/-- The spare map at a die reset (R340): shuttles that the fuses list or that fail their scratchpad test are FAILED; entries that name a FAILED shuttle take the lowest SPARE; roles follow. -/
def takeSpareMap (d : Nat) (m : List (Nat × Nat)) (s : State) : State :=
  let bad (i : Nat) : Bool := s.fuses.failedSht.contains (d * 136 + i) || s.ecc.badSht.contains (d * 136 + i)
  let s := forEach (upTo 136) (fun i s => setRole (d * 136 + i) (if bad i then 3 else 0) s) s
  let s := forEach (m.filter fun x => !bad x.2) (fun x s => setRole (d * 136 + x.2) 1 s) s
  forEach m (fun x s =>
    let q := if bad x.2 then (upTo 136).find? fun i => shtRole s (d * 136 + i) == 0 else some x.2
    match q with
    | some i => mapSht x.1 (d * 136 + i) s
    | none => unmapSht x.1 s) s

/-- A tested and wiped die takes what the active draft gives it: its registers, its shed RAM, its spare map and weights,
its shared pool; then its ports bring up. -/
def bootDie (d : Nat) (s : State) : State :=
  let s := fillCells d s
  let s := applyRecords ((recsHeld s 0 0).filter fun r => dieOfReg r.1 == some d) s
  let s := applyRecords (recsHeld s 1 (2 * d)) s
  let s := applyRecords (recsHeld s 1 (2 * d + 1)) s
  let s := applyRecords (recsHeld s 2 d) s
  let s := takeSpareMap d (draftMap (regionSlot s 2 d).isSome (recsHeld s 2 d) d) s
  let s := forEach ((enabledPorts s).filter (onDie d)) (fun p s => writeSheds p (shedListOf s p) s) s
  let s := { s with ecc := { s.ecc with q1Stop := s.ecc.q1Stop.filter fun p => !onDie d p } }
  let s := setShared d s
  forEach ((enabledPorts s).filter (onDie d)) enablePort s

/-! ### A whole draft -/

/-- Every region holds the panel of `slot`, or none where the draft lacks it. -/
def holdSlot (slot : Nat) (s : State) : State :=
  let s := { s with drf := { s.drf with slotOf := [] } }
  forEach (panelDir s slot) (fun e s => setRegionSlot e.kind e.region (some slot) s) s

/-- The draft in `slot` is active. -/
def showActiveDraft (slot : Nat) (s : State) : State :=
  let s := s.setFlag F.DFT_STATUS_valid true
  let s := s.setFld F.DFT_STATUS_active slot
  let s := s.setFlag F.DFT_STATUS_mixed false
  let s := s.setFld F.DFT_STATUS_result 1
  s.setFld F.DFT_SEQ_seq (drSeq s slot)

/-- Applies every panel of the draft in `slot`, with no drain (R497): the shared registers, then each die that runs. -/
def applyDraft (slot : Nat) (s : State) : State :=
  let s := showActiveDraft slot (holdSlot slot s)
  let s := applyRecords ((recsHeld s 0 0).filter fun r => (dieOfReg r.1).isNone) s
  let s := forEach (upTo 16) (fun k s => applyRecords (recsHeld s 3 k) s) s
  let s := forEach ((upTo 4).filter (dieRuns s)) bootDie s
  homeRebuild s

/-- Shows a refusal: result REFUSED with its reason and panel; a fault of several panels names one the spec does not
choose (a free value). -/
def showRefusal (slot : Nat) (r : Refused) (s : State) : State :=
  let s := s.setFld F.DFT_STATUS_result 2
  let s := s.setFld F.DFT_STATUS_reason r.code
  let s := if s.flag F.DFT_STATUS_valid then s else s.setFld F.DFT_STATUS_active slot
  match r.panel with
  | some i => s.setFld F.DFT_STATUS_panel i
  | none => s.withFree fun n s => s.setFld F.DFT_STATUS_panel (n % 65536)

/-- Step 3 of Table 13-10: the slot to apply, or the slot and refusal to show (R497). -/
def bootChoice (s : State) : Nat × Option Refused :=
  let a := verifySlot s 0
  let b := verifySlot s 1
  let bad (k : Nat) : Option Refused := if k = 0 then a else b
  let pin := s.flag F.DFT_BOOT_pin
  let ps := s.fld F.DFT_BOOT_pin_slot
  if pin && (bad ps).isNone then (ps, none)
  else match a, b with
    | none, none => (if drSeq s 0 < drSeq s 1 then 1 else 0, none)
    | none, some _ => (0, none)
    | some _, none => (1, none)
    | some _, some _ => let k := if pin then ps else 0
                        (k, bad k)

end Sys2Proof.Machine
end

