-- ==== Sys2Proof/Machine/Reload.lean ====
section
/-! DEFINITION. Live loads of a draft (R498 to R500): the panels that change, how each kind drains and applies
(Table 14-10), and how a load ends. -/

namespace Sys2Proof.Machine

/-- Changes the load in progress. -/
def onLoad (f : LiveLoad → LiveLoad) (s : State) : State := { s with drf := { s.drf with load := s.drf.load.map f } }

/-- A load ends: busy clears, vector 1 (Table 14-2). -/
def endLoad (result : Nat) (s : State) : State :=
  let s := { s with drf := { s.drf with load := none } }
  raiseInt 1 ((s.setFlag F.DFT_STATUS_busy false).setFld F.DFT_STATUS_result result)

/-- DRAFT_LOAD: a write of DFT_LOAD; go is ignored while busy (R498). -/
def draftLoad (val : Word) (s : State) : State :=
  let s := s.storeReg R.DFT_LOAD val
  if bitOf val.toNat 31 && !s.flag F.DFT_STATUS_busy then
    { s.setFlag F.DFT_STATUS_busy true with
      drf := { s.drf with load := some { slot := bits val.toNat 0 1, since := s.now } } }
  else s

/-! ### What changes -/

/-- The registers whose effective records differ between two lists. -/
def changedRegs (a b : List (Nat × Word)) : List Nat :=
  let last (l : List (Nat × Word)) (off : Nat) : Option Word := (l.reverse.find? fun r => r.1 == off).map (·.2)
  ((a ++ b).map (·.1)).eraseDups.filter fun off => last a off != last b off

/-- The ports of a reed die that a new PORTS panel changes: one of its own or its lanes' registers differs. -/
def changedPorts (old new : List (Nat × Word)) (k : Nat) : List Nat :=
  let ch := changedRegs old new
  let wide (l : List (Nat × Word)) (p : Nat) : Nat := 2 ^ bits (recVal l (R.PRT_CFG p)) 27 2
  let en (l : List (Nat × Word)) (p : Nat) : Bool := bitOf (recVal l (R.PRT_CFG p)) 31
  ((upTo 64).map (64 * k + ·)).filter fun p =>
    (en old p || en new p) && ch.any fun off =>
      decide (0x800000 + p * 0x1000 ≤ off ∧ off < 0x800000 + (p + 1) * 0x1000)
        || decide (0xA00000 + p * 0x400 ≤ off ∧ off < 0xA00000 + (p + max (wide old p) (wide new p)) * 0x400)

/-- The context that a register of a CONTEXTS panel belongs to. -/
def regCtx (off : Nat) : Nat := if off < 0x2300000 then (off - 0x2200000) / 0x100 else (off - 0x2880000) / 0x10

/-- A change of one register that needs a context reset: any but RW fields and newly set CTX_PORT_EN bits. -/
def needsReset (old new : List (Nat × Word)) (off : Nat) : Bool :=
  let a := BitVec.ofNat 32 (recVal old off)
  let b := BitVec.ofNat 32 (recVal new off)
  let isEn := decide (off < 0x2300000 ∧ 0x80 ≤ off % 0x100 ∧ off % 0x100 < 0xC0)
  if isEn then a &&& ~~~ b != 0 else (a ^^^ b) &&& accessMask off (· == .dl) != 0

/-- The contexts of a slice that a new CONTEXTS panel resets (Table 14-10). -/
def resetContexts (old new : List (Nat × Word)) : List Nat :=
  (((changedRegs old new).filter (needsReset old new)).map regCtx).eraseDups

/-- The (kind, region) pairs to reload, in directory order: the hash differs, or only one draft holds it (R498). -/
def reloadList (s : State) (slot : Nat) : List (Nat × Nat) :=
  let new := panelDir s slot
  let order : List (Nat × Nat) := [1, 2, 3, 4].flatMap fun k => (upTo (regionsOf k)).map fun r => (k, r)
  order.filter fun x =>
    let a := (regionSlot s x.1 x.2).bind fun k => findPanel (panelDir s k) x.1 x.2
    let b := findPanel new x.1 x.2
    match a, b with
    | none, none => false
    | some p, some q => p.1.hash != q.1.hash
    | _, _ => true

/-! ### The application of a panel -/

/-- The ports that a TREADLING panel's old and new records name. -/
def trdPorts (old new : List Byte) : List Nat := ((shedRecords old ++ shedRecords new).map (·.1)).eraseDups

/-- A port's new shed list waits for the port's period start (R225); a port without a running treadling takes it at
once. A Q1 that a bad shed entry stopped runs again (R447). -/
def offerSheds (p : Nat) (s : State) : State :=
  let l := shedListOf s p
  let s := { s with ecc := { s.ecc with q1Stop := s.ecc.q1Stop.filter (· != p) } }
  if s.flag (F.PRT_TRD_CFG_trd_en p) && trdPeriod s p != 0 then
    s.onPsch p fun r => { r with newTrd := some l, newAfter := periodNow s p }
  else writeSheds p l s

/-- The registers of changed ports and of their lanes, under the old and the new widths. -/
def ofChanged (old new : List (Nat × Word)) (ports : List Nat) (off : Nat) : Bool :=
  let wide (p : Nat) : Nat := 2 ^ max (bits (recVal old (R.PRT_CFG p)) 27 2) (bits (recVal new (R.PRT_CFG p)) 27 2)
  ports.any fun p =>
    decide (0x800000 + p * 0x1000 ≤ off ∧ off < 0x800000 + (p + 1) * 0x1000)
      || decide (0xA00000 + p * 0x400 ≤ off ∧ off < 0xA00000 + (p + wide p) * 0x400)

/-- Port reset of each changed port with the new values; unchanged ports are untouched; the shed bases, which the GLOBAL
panel holds, are put back (Table 14-10, R494, R501). -/
def applyPorts (k slot : Nat) (ports : List Nat) (s : State) : State :=
  let old := recsHeld s 1 k
  let new := recsIn s slot 1 k
  let mine := ofChanged old new ports
  let s := forEach ports portClear s
  let s := setRegionSlot 1 k (if (bodyIn s slot 1 k).isSome then some slot else none) s
  let s := applyRecords (new.filter fun r => mine r.1) (clearDl mine s)
  let s := applyRecords ((recsHeld s 0 0).filter fun r =>
    0x800000 ≤ r.1 && r.1 % 0x1000 = 0x2C4 && ports.contains ((r.1 - 0x800000) / 0x1000)) s
  let s := forEach ports (fun p s => writeSheds p (shedListOf s p) (takesCredits p s)) s
  forEach ports enablePort (setShared (k / 2) s)

/-- The common switch cycle of a SHUTTLES panel, and its other records (Table 14-10). -/
def applyShuttles (d slot : Nat) (s : State) : State :=
  let migs := s.shts.panel
  let s := { s with shts := { s.shts with panel := [] } }
  let s := forEach migs switchOne s
  let s := windowBack (migs.flatMap (·.frozen)) s
  let s := setRegionSlot 2 d (if (bodyIn s slot 2 d).isSome then some slot else none) s
  let s := applyRecords (recsHeld s 2 d) s
  forEach ((upTo 128).map (d * 128 + ·)) refreshWeight s

/-- The changed registers of a CONTEXTS panel whose context satisfies `f` take their new values (Table 14-10). -/
def changeContexts (k slot : Nat) (f : Nat → Bool) (s : State) : State :=
  let new := recsIn s slot 3 k
  let mine := (changedRegs (recsHeld s 3 k) new).filter fun off => f (regCtx off)
  applyRecords (new.filter fun r => mine.contains r.1) (clearDl mine.contains s)

/-- The contexts that are not reset take the new values of a CONTEXTS panel at once. -/
def changeOthers (k slot : Nat) (s : State) : State :=
  let cs := resetContexts (recsHeld s 3 k) (recsIn s slot 3 k)
  changeContexts k slot (fun c => !cs.contains c) s

/-- The contexts that are reset take their new values, which ends the panel. -/
def applyContexts (k slot : Nat) (s : State) : State :=
  let cs := resetContexts (recsHeld s 3 k) (recsIn s slot 3 k)
  setRegionSlot 3 k (if (bodyIn s slot 3 k).isSome then some slot else none) (changeContexts k slot cs.contains s)

/-- The new shed lists of a TREADLING panel. -/
def applyTreadling (c slot : Nat) (s : State) : State :=
  let old := (bodyHeld s 4 c).getD []
  let s := setRegionSlot 4 c (if (bodyIn s slot 4 c).isSome then some slot else none) s
  forEach (trdPorts old ((bodyHeld s 4 c).getD [])) offerSheds s

/-! ### The steps of a load -/

/-- Starts the migrations of a SHUTTLES panel's changed mappings (R343, Table 14-10). -/
def startPanelMigs (d slot : Nat) (s : State) : State :=
  let migs : List Mig := (mapChanges s slot d).map fun x =>
    { logical := x.1, target := d * 136 + x.2, old := physOf s x.1, force := false }
  let s := { s with shts := { s.shts with panel := migs } }
  forEach migs (fun m s => wakeSht m.target s) (s.setFlag F.GLB_SHT_MIG_STATUS_busy true)

/-- The panel that drains begins its drain, unless another migration or context reset still runs. -/
def beginDrain (s : State) : State :=
  match s.drf.load with
  | none => s
  | some ld =>
    match ld.draining with
    | some (2, d) =>
      if s.shts.panel.isEmpty && s.shts.mig.isNone then startPanelMigs d ld.slot s else s
    | some (3, k) =>
      if s.ctxRst.isNone then startCtxReset (resetContexts (recsHeld s 3 k) (recsIn s ld.slot 3 k)) false true s else s
    | _ => s

/-- The load ends when every panel is reloaded and every port has taken its new treadling: the new slot is active
(R498). -/
def finishLoad (s : State) : State :=
  match s.drf.load with
  | some ld =>
    if ld.verified && ld.todo.isEmpty && ld.draining.isNone && !(s.sched.p.any fun x => x.2.newTrd.isSome) then
      endLoad 1 (showActiveDraft ld.slot (holdSlot ld.slot s))
    else s
  | none => s

/-- Notes that a panel has been applied (R500). -/
def notePanel (s : State) : State :=
  (onLoad (fun ld => { ld with applied := true, draining := none, ports := [] }) s).setFlag F.DFT_STATUS_mixed true

/-- Takes the next panel of the load: applies it where nothing drains, otherwise starts its drain. `n` bounds the panels
taken. -/
def nextPanel : Nat → State → State
  | 0, s => s
  | n + 1, s =>
    match s.drf.load with
    | none => s
    | some ld =>
      match ld.draining, ld.todo with
      | none, (kind, region) :: rest =>
        let i := match findPanel (panelDir s ld.slot) kind region with
          | some x => x.2
          | none => (((regionSlot s kind region).bind fun k => findPanel (panelDir s k) kind region).map (·.2)).getD 0
        let s := (onLoad (fun ld => { ld with todo := rest, since := s.now }) s).setFld F.DFT_STATUS_panel i
        let wait (ports : List Nat) (s : State) : State :=
          beginDrain (onLoad (fun ld => { ld with draining := some (kind, region), ports := ports }) s)
        if kind = 1 then
          let ports := changedPorts (recsHeld s 1 region) (recsIn s ld.slot 1 region) region
          if ports.any (portOn s) then
            wait ports (forEach ports (fun p s => s.onLnk p fun l => { l with withhold := true }) s)
          else nextPanel n (notePanel (applyPorts region ld.slot ports s))
        else if kind = 2 then
          if (mapChanges s ld.slot region).isEmpty then nextPanel n (notePanel (applyShuttles region ld.slot s))
          else wait [] s
        else if kind = 3 then
          if (resetContexts (recsHeld s 3 region) (recsIn s ld.slot 3 region)).isEmpty then
            nextPanel n (notePanel (applyContexts region ld.slot (changeOthers region ld.slot s)))
          else wait [] (changeOthers region ld.slot s)
        else nextPanel n (notePanel (applyTreadling region ld.slot s))
      | _, _ => s

/-- The load goes on: the next panels, then its end. -/
def loadOn (s : State) : State :=
  match s.drf.load with
  | some ld => finishLoad (nextPanel (ld.todo.length + 1) s)
  | none => s

/-- DRAFT_VERIFY_DONE: the draft is refused, or its panels reload (R496 to R498). With no active draft every panel
applies with no drain. -/
def draftVerified (s : State) : State :=
  match s.drf.load with
  | none => s
  | some ld =>
    if ld.verified then s
    else
      let live := s.flag F.DFT_STATUS_valid
      match (match verifySlot s ld.slot with
        | some r => some r
        | none => if live then liveCheck s ld.slot else none) with
      | some r => endLoad 2 (showRefusal ld.slot r s)
      | none =>
        if live then
          let todo := reloadList s ld.slot
          loadOn (onLoad (fun ld => { ld with verified := true, todo := todo }) s)
        else endLoad 1 (applyDraft ld.slot s)

/-- A port of a PORTS panel has drained: its queues and its replay buffer are empty. -/
def portDrained (s : State) (p : Nat) : Bool :=
  ((upTo 8).all fun q => (s.eqQ (p * 8 + q)).isEmpty) && (s.lnk p).replay.isEmpty && (s.lnk p).txCur.isNone
    && (s.lnk p).txSusp.isNone

/-- PANEL_DRAIN_END: the region of the panel has drained and its new body applies (R499). -/
def panelDrained (s : State) : State :=
  match s.drf.load with
  | none => s
  | some ld =>
    match ld.draining with
    | some (1, k) =>
      if ld.ports.all (portDrained s) then loadOn (notePanel (applyPorts k ld.slot ld.ports s)) else s
    | some (2, d) =>
      if !s.shts.panel.isEmpty && s.shts.panel.all (switchReady s) then
        let s := applyShuttles d ld.slot s
        loadOn (notePanel ((s.setFlag F.GLB_SHT_MIG_STATUS_busy false).setFld F.GLB_SHT_MIG_STATUS_result 1 |> raiseInt 4))
      else s
    | _ => s

/-- The freezes of a SHUTTLES panel are lifted and nothing of it changes. -/
def liftFreezes (s : State) : State :=
  let migs := s.shts.panel
  if migs.isEmpty then s
  else
    let s := { s with shts := { s.shts with panel := [] } }
    let s := raiseInt 4 (s.setFlag F.GLB_SHT_MIG_STATUS_busy false)
    windowBack (migs.flatMap (·.frozen)) s

/-- DRAIN_TMO: a drain reaches 5 ms: PORTS flushes and applies, SHUTTLES ends the reload, CONTEXTS goes on (Table
14-10). -/
def drainTimeout (s : State) : State :=
  match s.drf.load with
  | none => s
  | some ld =>
    if s.now < ld.since + 5000000 then s
    else match ld.draining with
      | some (1, k) => loadOn (notePanel (applyPorts k ld.slot ld.ports (forEach ld.ports flushPort s)))
      | some (2, _) => endLoad 3 (liftFreezes s)
      | _ => s

/-- A die reset ends a load with ABANDONED: freezes are lifted, withheld credits released, applied panels stay (R500). -/
def abandonLoad (s : State) : State :=
  match s.drf.load with
  | none => s
  | some ld =>
    let release (p : Nat) (s : State) : State :=
      let owed := (s.lnk p).owed
      let s := s.onLnk p fun l => { l with withhold := false, owed := [0, 0, 0, 0, 0, 0, 0, 0] }
      forEach owed.zipIdx (fun x s => giveCredits p x.2 x.1 s) s
    let s := forEach ld.ports release (liftFreezes s)
    endLoad 4 (s.setFlag F.DFT_STATUS_mixed ld.applied)

/-- CONTEXT_RESET_DONE: once the device holds no cell of the contexts, the scrub runs and the gate opens; a CONTEXTS pass applies its panel and the load goes on (R460, Table 14-10). -/
def contextResetDone (s : State) : State :=
  let s := ctxResetSteps s
  match s.ctxRst with
  | none => s
  | some r =>
    if !r.ran || holdsCopies r.ctxs s then s
    else
      let s := finishCtxReset r s
      match s.drf.load with
      | none => s
      | some ld =>
        match ld.draining with
        | some (3, k) => if r.panel then loadOn (notePanel (applyContexts k ld.slot s)) else beginDrain s
        | _ => s

/-- SWITCH_CYCLE: the migration's switch cycle; a SHUTTLES panel that waited for it begins. -/
def switchCycle (s : State) : State := beginDrain (switchNow s)

/-- TREADLING_HANDOVER, and the end of a load that waited for it. -/
def handover (p : Nat) (s : State) : State := finishLoad (treadlingHandover p s)

/-- PORT_RESET: a write of DFT_PORT_RST; go resets the port (R501). -/
def portResetWrite (val : Word) (s : State) : State :=
  let s := s.storeReg R.DFT_PORT_RST val
  if bitOf val.toNat 31 then portReset (bits val.toNat 0 9) s else s

/-- SHUTTLE_RESET: a write of DFT_SHT_RST; a SPARE or FAILED shuttle takes its S fields' reset values (R502). -/
def shuttleResetWrite (val : Word) (s : State) : State :=
  let s := s.storeReg R.DFT_SHT_RST val
  let p := bits val.toNat 0 10
  if bitOf val.toNat 31 && decide (p < 544) && (shtRole s p == 0 || shtRole s p == 3) then
    let s := resetRegs (fun off dom => dom == .s && decide (0x1000000 + p * 0x2000 ≤ off ∧ off < 0x1000000 + (p + 1) * 0x2000)) s
    s.onSht p fun _ => {}
  else s

end Sys2Proof.Machine
end

