-- ==== Sys2Proof/Machine/Selvedge.lean ====
section
/-! DEFINITION. The Selvedge record in flash (R472, R473, Tables 13-11 to 13-13) and the dump of the capture buffer
(R490). -/

namespace Sys2Proof.Machine

/-- The flash address of a Selvedge half (Table 14-5). -/
def halfAddr (h : Nat) : Nat := 0x3000000 + h * 0x20000

/-- The length of the record. -/
def selLen : Nat := 67584

/-- The bytes of a Selvedge half in flash. -/
def halfBytes (s : State) (h : Nat) : List Byte := readBytes s.flashByte (halfAddr h) selLen

/-- A half whose crc checks (Table 13-12). -/
def halfOk (l : List Byte) : Bool := ofLe ((l.drop 0x0C).take 4) == (crc32c (l.drop 0x10)).toNat

/-- The seq of a half. -/
def halfSeq (l : List Byte) : Nat := ofLe ((l.drop 4).take 4)

/-- The half that the Deckle takes at power-on: the higher seq among those whose crc checks (R472). -/
def bestHalf (s : State) : Option Nat :=
  let a := halfBytes s 0
  let b := halfBytes s 1
  match halfOk a, halfOk b with
  | true, true => some (if halfSeq a < halfSeq b then 1 else 0)
  | true, false => some 0
  | false, true => some 1
  | false, false => none

/-- The staging record takes the bytes of flash half `h`; the power-on time goes on from it (R472, R519). -/
def takeHalf (h : Nat) (l : List Byte) (s : State) : State :=
  let s := writeBytes State.setSelByte 0 l { s with mem := { s.mem with sel := [] } }
  let s := (s.setFlag F.SEL_STATUS_fresh false).setFld F.SEL_STATUS_seq (s.selWord 4 % 65536)
  { s with mgt := { s.mgt with selHalf := 1 - h }, ponBase := s.selWord 0x18, ponAt := s.now }

/-- The staging record starts from zero, with fresh set (R472). -/
def freshRecord (s : State) : State :=
  let s := { s with mem := { s.mem with sel := [] } }
  let s := s.setFlag F.SEL_STATUS_fresh true
  { s with mgt := { s.mgt with selHalf := 0 }, ponBase := 0, ponAt := s.now }

/-- The constant words of the record's header (Table 13-12). -/
def selConst (s : State) : State :=
  let s := (s.setSelWord 0 0x5E1D0001).setSelWord 8 selLen
  writeBytes State.setSelByte 0x10 (leBytes 8 s.fuses.serial.toNat) s

/-- Loads the record from flash, or starts it from zero with fresh set; the power-on time goes on from it (R472, R519). -/
def loadSelvedge (s : State) : State :=
  selConst (match bestHalf s with
    | some h => takeHalf h (halfBytes s h) s
    | none => freshRecord s)

/-- A write of the record to flash begins; one that is asked for while a write runs follows it. -/
def startSelWrite (s : State) : State :=
  if s.flag F.SEL_STATUS_busy then { s with mgt := { s.mgt with selAgain := true } } else s.setFlag F.SEL_STATUS_busy true

/-- The header of the record for its next write (Table 13-12). -/
def selHeader (s : State) : State :=
  let s := (selConst s).setSelWord 4 (saturate 32 (s.selWord 4 + 1))
  let s := s.setSelWord 0x18 s.ponSeconds
  s.setSelWord 0x0C (crc32c (readBytes s.selByte 0x10 (selLen - 0x10))).toNat

/-- Writes bytes to flash. -/
def flashWrite (a : Nat) (l : List Byte) (s : State) : State := writeBytes State.setFlashByte a l s

/-- Erases flash: `n` bytes from `a` read 0xFF. -/
def flashErase (a n : Nat) (s : State) : State :=
  { s with mem := { s.mem with flash := eraseCells (fun x => a ≤ x && x < a + n) s.mem.flash } }

/-- Half `h` of the flash copy, `n` bytes long, is erased and written; the other half is next (R472). -/
def storeHalf (h n : Nat) (l : List Byte) (s : State) : State :=
  let s := flashWrite (halfAddr h) l (flashErase (halfAddr h) n s)
  let s := s.setFld F.SEL_STATUS_seq (s.selWord 4 % 65536)
  { s with mgt := { s.mgt with selHalf := 1 - h } }

/-- The record reaches the half that is its turn (R472). -/
def storeSelvedge (s : State) : State :=
  storeHalf s.mgt.selHalf 0x20000 (readBytes (selHeader s).selByte 0 selLen) (selHeader s)

/-- A write of the record whose read-back check failed: flash_err, and the half holds bytes the spec does not give. -/
def spoilSelvedge (s : State) : State :=
  let s := selHeader s
  let h := s.mgt.selHalf
  let s := (s.setFlag F.SEL_STATUS_flash_err true).setFld F.SEL_STATUS_seq (s.selWord 4 % 65536)
  let s := s.withFree fun n s => flashWrite (halfAddr h) (leBytes selLen n) s
  { s with mgt := { s.mgt with selHalf := 1 - h } }

/-- DUMP: the area is erased, the data written, then the header (R490). -/
def dumpCapture (s : State) : State :=
  let s := flashErase 0x3100000 0x810000 s
  let data := readBytes s.capByte 0 0x800000
  let s := flashWrite 0x3110000 data s
  flashWrite 0x3100000
    (leBytes 2 0xCA98 ++ leBytes 2 1 ++ leBytes 4 (crc32c data).toNat ++ leBytes 8 s.fuses.serial.toNat ++ leBytes 4 s.ponSeconds) s

/-- SELVEDGE_WRITE_DONE: busy clears, vector 12; a post-fatal dump follows; a write asked for meanwhile begins (R472,
R478, R490). -/
def selWriteDone (ok : Bool) (s : State) : State :=
  if !s.flag F.SEL_STATUS_busy then s
  else
    let s := if ok then storeSelvedge s else spoilSelvedge s
    let s := raiseInt 12 (s.setFlag F.SEL_STATUS_busy false)
    let s := if s.flt.dumpDue then
        let s := { s with flt := { s.flt with dumpDue := false } }
        if s.flag F.FLT_CAP_CTL_held then dumpCapture s else s
      else s
    if s.mgt.selAgain then startSelWrite { s with mgt := { s.mgt with selAgain := false } } else s

/-- SELVEDGE_FLUSH: a write of flush (R472). -/
def selFlush (val : Word) (s : State) : State := if bitOf val.toNat 31 then startSelWrite s else s

/-- A bin of the corrected-FEC histogram (R473). -/
def fecBin (c : Nat) : Nat := if c = 0 then 0 else min 31 (Nat.log2 c + 1)

/-- FEC_HISTOGRAM: an ACTIVE lane's second (R473). -/
def fecHistogram (n corrected : Nat) (s : State) : State :=
  if s.fld (F.LNE_STATUS_state n) = 5 then s.bumpSel (0x800 + n * 128 + fecBin corrected * 4) else s

/-- A bin of the temperature-time histogram, from a reading in 1/16 °C (R473). -/
def tempBin (t : Int) : Nat := if t < 640 then 0 else if 1760 ≤ t then 15 else ((t - 640) / 80).toNat + 1

/-- TEMP_HISTOGRAM: a minute of power-on time ends; each die adds its highest reading of that minute (R473). -/
def tempHistogram (s : State) : State :=
  let s' := forEach (upTo 12) (fun i s =>
    match Sparse.get (fun _ => (none : Option Int)) s.pwr.minMax i with
    | some t => s.bumpSel (0x100 + i * 64 + tempBin t * 4)
    | none => s) s
  { s' with pwr := { s'.pwr with minMax := [] } }

end Sys2Proof.Machine
end

