-- ==== Sys2Proof/Machine/Power.lean ====
section
/-! DEFINITION. Power (file 12): board tables, the sequences of Tables 12-6 and 12-7, rail monitors, operating points
and throttle levels, sensors, die standby; fatal faults and the fatal stop (R441, R442). -/

namespace Sys2Proof.Machine

/-! ### Fatal faults -/

/-- PWR_STATUS.seq: 0 OFF, 1 UP_SEQ, 2 ON, 3 DOWN_SEQ, 4 FAILED. -/
def seqOf (s : State) : Nat := s.fld F.PWR_STATUS_seq
/-- Sets it. -/
def setSeq (n : Nat) (s : State) : State := s.setFld F.PWR_STATUS_seq n

/-- The fatal stop: every port disabled, every die held in die reset (R442). -/
def fatalStop (s : State) : State :=
  let s := disableAll (abandonLoad s)
  forEach (upTo 4) (fun d s => if bitOf (s.fld F.FLT_STATUS_die_rst) d then s else dieHold d s) s

/-- A power-table entry: without one, method 2 with on_tmo and off_tmo of 50 ms (R416). -/
def pwrEntry (s : State) (r : Nat) : PwrEntry :=
  let none' : PwrEntry := ⟨r, 2, 0, 0xFF, 1, 50, 50, 0⟩
  match s.pwr.table with
  | some t => (t.find? fun e => e.rail == r).getD none'
  | none => none'

/-- A Deckle transfer on controller 1: at once, or after the software transfer that runs there (R480); a stuck bus takes none
(R482). -/
def deckleSend (o : Output) (s : State) : State :=
  if s.flag (F.MIO_I2C_STATUS_stuck 1) then s
  else if s.flag (F.MIO_I2C_STATUS_busy 1) then { s with mgt := { s.mgt with i2cWait := s.mgt.i2cWait ++ [o] } }
  else s.emit o

/-- An enable GPIO, a regulator or the board is told to switch a rail: mV, or 0 for off; VDD_CORE takes its voltage before it goes on
(R415, Table 12-6 step 6). -/
def drive (r mv : Nat) (s : State) : State :=
  let e := pwrEntry s r
  if e.method = 0 then s.setFlag ⟨R.MIO_GPIO, e.target % 8, 1⟩ (mv != 0)
  else if e.method = 1 then
    let s := if r = 4 ∧ mv ≠ 0 then deckleSend (.regVout e.target e.page mv) s else s
    deckleSend (.regOperation e.target e.page (if mv = 0 then 0 else 0x80)) s
  else s

/-- The rail is switched off; its off_tmo begins (R420). -/
def offHead (s : State) : State :=
  match s.pwr.toOff with
  | r :: _ =>
    let s := drive r 0 s
    { s with pwr := { s.pwr with step := 10 - r, deadline := s.now + (pwrEntry s r).offTmo * 1000000 } }
  | [] => s

/-- The rails of a list go off, one after the other. -/
def switchOff (l : List Nat) (s : State) : State := offHead { s with pwr := { s.pwr with toOff := l } }

/-- The Deckle's rails that are switched on, highest first (Table 12-7). -/
def railsOn (s : State) : List Nat := [6, 5, 4, 3, 2].filter fun r => s.fld (F.PWR_RAIL_MV_state r) != 0

/-- The start of a power-down: ports disabled, PWR_GOOD low, DOWN_SEQ; an emergency skips drain and wipe (R419). -/
def startDown (emergency : Bool) (s : State) : State :=
  let s := disableAll s
  let s := (setSeq 3 s).setFlag F.PWR_STATUS_pwr_good false
  let s := { s with pwr := { s.pwr with wipeCut := emergency, step := 2, toOff := [] } }
  if emergency then switchOff (railsOn s) s else s

/-- An emergency power-down; one that meets a power-down in its drain or wipe goes on with the rails. -/
def emergencyDown (s : State) : State :=
  if s.pwr.toOff.isEmpty && seqOf s != 0 && seqOf s != 4 then startDown true s else s

/-- A fatal cause: raised with its record; Selvedge written at once; a held capture dumped after it; fatal stop, or
emergency power-down for THERMTRIP and RAIL_FAULT (R441, R472, R490). -/
def raiseFatal (c : Nat) (loc : Word) (detail : Nat) (s : State) : State :=
  let s := raiseCause c loc none detail s
  let s := s.setFlag F.FLT_STATUS_fatal true
  let s := startSelWrite { s with flt := { s.flt with dumpDue := s.flag F.FLT_CAP_CTL_held } }
  if c ≤ 1 then emergencyDown s else fatalStop s

/-! ### ALERT_N (R436) -/

/-- ALERT_N is asserted. -/
def alertOn (s : State) : Bool := s.rd R.PWR_ALERT_STATUS &&& s.rd R.PWR_ALERT_EN != 0

/-- A change that may assert ALERT_N; its assertion raises vector 7. -/
def watchAlert (f : State → State) (s : State) : State :=
  let t := f s
  if !alertOn s && alertOn t then raiseInt 7 t else t

/-- Sets a bit of PWR_ALERT_STATUS. -/
def setAlert (bit : Nat) (s : State) : State := watchAlert (State.setFlag ⟨R.PWR_ALERT_STATUS, bit, 1⟩ true) s

/-! ### Tables of the board record (R486, R487) -/

/-- `n` bytes of the EEPROM from `a`; a byte it does not hold reads 0xFF. -/
def eeBytes (b : Board) (a n : Nat) : List Byte := (upTo n).map fun i => b.eeprom.getD (a + i) 0xFF

/-- A little-endian field of the EEPROM. -/
def eeLe (b : Board) (a n : Nat) : Nat := ofLe (eeBytes b a n)

/-- The bytes of the table of a type: `none` when it is missing (R487). -/
def boardTable (b : Board) (ty : Nat) : Option (List Byte) :=
  let n := eeLe b 3 1
  if b.eeprom.isEmpty || eeLe b 0 2 != 0xE9A0 || eeLe b 2 1 != 1 || decide (16 < n)
      || eeLe b 4 4 != (crc32c (eeBytes b 16 (8 * n))).toNat then none
  else match (upTo n).find? fun i => eeLe b (16 + 8 * i) 1 == ty with
    | some i =>
      let len := eeLe b (18 + 8 * i) 2
      let off := eeLe b (20 + 8 * i) 4
      if 65536 < off + len then none else some (eeBytes b off len)
    | none => none

/-- A little-endian field of a table. -/
def tabLe (l : List Byte) (a n : Nat) : Nat := ofLe ((l.drop a).take n)

/-- The equalisation table (Tables 11-2, 11-3); `none` when missing or refused (R375). -/
def eqTableOf (b : Board) : Option (List EqEnt) :=
  match boardTable b 1 with
  | none => none
  | some l =>
    let n := tabLe l 4 2
    if tabLe l 0 2 != 0xE9A1 || tabLe l 2 1 != 1 || decide (512 < n)
        || tabLe l 8 4 != (crc32c ((l.drop 16).take (8 * n))).toNat then none
    else some ((upTo n).map fun i =>
      let a := 16 + 8 * i
      let f := tabLe l (a + 2) 1
      { lane := tabLe l a 2 % 512, cls := f % 2, precode := bitOf f 1, lockCtle := bitOf f 2,
        pre2 := tapOf (tabLe l (a + 3) 1), pre1 := tapOf (tabLe l (a + 4) 1), post1 := tapOf (tabLe l (a + 5) 1),
        ctle := tabLe l (a + 6) 1 % 32, loss := tabLe l (a + 7) 1 })

/-- The power table (Tables 12-4, 12-5); `none` when missing or refused (R416). -/
def pwrTableOf (b : Board) : Option (List PwrEntry) :=
  match boardTable b 2 with
  | none => none
  | some l =>
    let n := tabLe l 3 1
    if tabLe l 0 2 != 0xE9A2 || tabLe l 2 1 != 1 || decide (7 < n)
        || tabLe l 4 4 != (crc32c ((l.drop 16).take (8 * n))).toNat then none
    else some ((upTo n).map fun i =>
      let g (k : Nat) : Nat := tabLe l (16 + 8 * i + k) 1
      { rail := g 0, method := g 1 % 4, target := g 2, page := g 3, slew := g 4, onTmo := g 5, offTmo := g 6, estW := g 7 })

/-- The GPIO that the Deckle owns under entries of method 0 (MIO_GPIO.own): outputs, low. -/
def ownPins (s : State) : State :=
  let pins := (s.pwr.table.getD []).filter fun e => e.method == 0 && decide (2 ≤ e.rail)
  forEach pins (fun e s =>
    ((s.setFlag ⟨R.MIO_GPIO, 16 + e.target % 8, 1⟩ true).setFlag ⟨R.MIO_GPIO, 8 + e.target % 8, 1⟩ true).setFlag
      ⟨R.MIO_GPIO, e.target % 8, 1⟩ false) s

/-! ### Voltage of VDD_CORE (R423) -/

/-- The signed trim of an operating point in mV (PWR_VTRIM). -/
def trimMv (s : State) (k : Nat) : Int :=
  let t := bits (s.rd R.PWR_VTRIM).toNat (5 * k) 5
  2 * (if t < 16 then Int.ofNat t else Int.ofNat t - 32)

/-- The voltage that a level needs in mV (Table 12-8), limited to 580 to 780. -/
def needMv (s : State) (level : Nat) : Nat :=
  let k := min level 4
  let base : Int := if k = 0 then 750 else if k = 1 then 700 else if k = 2 then 660 else if k = 3 then 620 else 580
  (max 580 (min 780 (base + trimMv s k))).toNat

/-- The request follows Table 12-8 only when VDD_CORE is switched by method 1 (R415, R416). -/
def followsVdd (s : State) : Bool := (pwrEntry s 4).method == 1

/-- The effective level of a die. -/
def effLvl (s : State) (d : Nat) : Nat := s.fld (F.PWR_DIE_STATUS_eff_lvl d)

/-- A die in standby. -/
def inStandby (s : State) (d : Nat) : Bool := s.flag (F.PWR_DIE_STATUS_standby d)

/-- The request that the dies' effective levels need: 580 mV when every die is in standby (R423). -/
def wantMv (s : State) : Nat :=
  (((upTo 4).filter fun d => !inStandby s d).map fun d => needMv s (effLvl s d)).foldl max 580

/-- Sets the VDD_CORE request and tells the regulator. -/
def requestMv (mv : Nat) (s : State) : State :=
  if s.fld F.PWR_VCORE_req_mv = mv then s
  else
    let s := s.setFld F.PWR_VCORE_req_mv mv
    if followsVdd s then deckleSend (.regVout (pwrEntry s 4).target (pwrEntry s 4).page mv) s else s

/-- Lowers the request to what the dies need; a raise in progress completes first (R425). -/
def lowerRequest (s : State) : State :=
  if followsVdd s && !s.pwr.raising && decide (wantMv s < s.fld F.PWR_VCORE_req_mv) then requestMv (wantMv s) s else s

/-! ### Bus checks (R482) -/

/-- The bus of controller `n` is to be checked before its next transfer (R482). -/
def checkDue (s : State) (n : Nat) : Bool := s.mgt.i2cDue.getD n false

/-- Sets it. -/
def setCheckDue (n : Nat) (b : Bool) (s : State) : State :=
  { s with mgt := { s.mgt with i2cDue := setAt s.mgt.i2cDue n b } }

/-- The bus check (R482): `sda` is the number of clocks after which SDA is high, `none` when it is still low after the
ninth. -/
def busCheck (n : Nat) (sda : Option Nat) (s : State) : State :=
  let s := setCheckDue n false s
  match sda with
  | none => (s.setFlag (F.MIO_I2C_STATUS_stuck n) true).emit (.i2cBus n false)
  | some k =>
    let s := if k = 0 then s
      else s.setFld (F.MIO_I2C_STATUS_rec_cnt n) ((s.fld (F.MIO_I2C_STATUS_rec_cnt n) + 1) % 65536)
    (s.setFlag (F.MIO_I2C_STATUS_stuck n) false).emit (.i2cBus n true)

/-- Deckle transfers that waited for controller 1 go, in order (R480). -/
def deckleGo (s : State) : State :=
  { s with out := s.out ++ s.mgt.i2cWait, mgt := { s.mgt with i2cWait := [] } }

/-- A software transfer ends: result, busy clear, vector 8 + n (R480, Table 14-2). -/
def endI2c (n result : Nat) (s : State) : State :=
  let s := raiseInt (8 + n) ((s.setFlag (F.MIO_I2C_STATUS_busy n) false).setFld (F.MIO_I2C_STATUS_result n) result)
  if n = 1 then deckleGo s else s

/-! ### Power-up (Table 12-6) -/

/-- The nominal voltage of a rail in mV (Table 12-3). -/
def nominalMv (r : Nat) : Nat :=
  match r with
  | 0 => 800
  | 1 => 1800
  | 2 => 1800
  | 3 => 800
  | 5 => 900
  | 6 => 1200
  | _ => 580

/-- Step k of Table 12-6, 4 to 8: rail k − 2 goes on. -/
def railOn (r : Nat) (s : State) : State :=
  let s := if r = 4 then s.setFld F.PWR_VCORE_req_mv (needMv s 4) else s
  let s := drive r (if r = 4 then s.fld F.PWR_VCORE_req_mv else nominalMv r) s
  let s := s.setFld (F.PWR_RAIL_MV_state r) 1
  { s with pwr := { s.pwr with step := r + 2, deadline := s.now + (pwrEntry s r).onTmo * 1000000 } }

/-- A rail inside its window. -/
def railIsGood (r : Nat) (s : State) : State :=
  (s.setFld (F.PWR_RAIL_MV_state r) 2).setFlag ⟨R.PWR_STATUS, r, 1⟩ true

/-- What the fuses give at step 2 of Table 12-6. -/
def readFuses (s : State) : State :=
  let s := (s.wr R.GLB_SERIAL_LO (lo32 s.fuses.serial)).wr R.GLB_SERIAL_HI (hi32 s.fuses.serial)
  let s := s.setFld F.AON_LC_state s.fuses.lcState
  let s := forEach (s.fuses.keyHash.take 12).zipIdx (fun x s => s.wr (R.AON_LC_HASH x.2) x.1) s
  forEach (s.fuses.vtrim.take 5).zipIdx (fun x s => s.setFld ⟨R.PWR_VTRIM, 5 * x.2, 5⟩ x.1) s

/-- Steps 2 and 3 of Table 12-6: SFDP is read, NO_FLASH without one (R488); controller 0's bus is checked and the board record read,
every table missing on a stuck bus (R482, R487); a power table with regulators has controller 1's bus checked. -/
def readBoard (b : Board) (s : State) : State :=
  let s := s.setFld F.MIO_SPI_STATUS_size_log b.flashLog
  let s := if b.flashLog = 0 then s.setFld F.MIO_SPI_STATUS_result 4 else s
  let s := busCheck 0 (b.sda0.map (·.val)) s
  let b := if s.flag (F.MIO_I2C_STATUS_stuck 0) then { b with eeprom := [] } else b
  let s := { s with pwr := { s.pwr with table := pwrTableOf b }, lanes := { s.lanes with eqTable := eqTableOf b } }
  if (s.pwr.table.getD []).any fun e => e.method == 1 then busCheck 1 (b.sda1.map (·.val)) s else s

/-- POWER_UP: POR_N rises (Table 12-6, steps 1 to 4). -/
def powerUp (b : Board) (s : State) : State :=
  if !s.pwr.por then s
  else
    let s := readFuses { s with pwr := { s.pwr with por := false } }
    let s := (loadSelvedge s).bumpSel 0x1C
    let s := { s with pwr := { s.pwr with
      testMode := b.testEn && (s.fuses.lcState == 0 || s.fuses.lcState == 3), rstLow := b.rstLow } }
    let s := readBoard b s
    let s := if s.pwr.table.isNone then raise Cause.pwrTable locNone s else s
    let s := if s.lanes.eqTable.isNone then raise Cause.eqTable locNone s else s
    let s := if s.ecc.fuseBad then raiseFatal Cause.fuseErr locNone 0 s else s
    let s := ownPins (railIsGood 1 (railIsGood 0 s))
    railOn 2 (setSeq 1 s)

/-- The PCI Express link trains again, unless PCIE_PERST_N is low (R477, R530). -/
def trainPcie (s : State) : State := if s.mgt.perstLow then s else s.emit .pcieTrain

/-- Step 2 of Table 13-10: the management tile leaves reset, and for 20 ms answers configuration requests with Request Retry Status
(R477). -/
def tileUp (s : State) : State :=
  trainPcie (restartClocks { s with tbase0 := s.now, mgt := { s.mgt with cfg := {}, crsUntil := s.now + 20000000 } })

/-- Step 9 of Table 12-6: PWR_GOOD high, ON; step 10: the warm-reset sequence runs from step 2 of Table 13-10 (R471), or waits for the
rise of RST_N (R528). -/
def powerGood (s : State) : State :=
  let s := (setSeq 2 s).setFlag F.PWR_STATUS_pwr_good true
  let s := { s with pwr := { s.pwr with warming := true, step := 0 } }
  if s.pwr.rstLow then s else tileUp s

/-- RAIL_GOOD: the rail of the step is good and the next step begins; or a raised VDD_CORE is good at its new request
(R417, R425). -/
def railGood (r : Nat) (s : State) : State :=
  if seqOf s = 1 ∧ r + 2 = s.pwr.step then
    let s := railIsGood r s
    if r = 6 then powerGood s else railOn (r + 1) s
  else if seqOf s = 2 ∧ r = 4 then railIsGood 4 { s with pwr := { s.pwr with raising := false } }
  else s

/-- RAIL_SEQ: a rail not good within its on_tmo (R418). -/
def railSeqFail (s : State) : State :=
  if seqOf s = 1 ∧ 4 ≤ s.pwr.step ∧ s.pwr.deadline ≤ s.now then
    let step := s.pwr.step
    let s := raiseFatal Cause.railSeq (locRail (step - 2)) step (setSeq 4 s)
    switchOff (railsOn s) s
  else s

/-! ### Power-down (Table 12-7) -/

/-- The registers that tables in SRAM hold: group entries, member slots, context entries, routing entries, the shed RAM. -/
def inTable (off : Nat) : Bool :=
  decide ((0x2000000 ≤ off ∧ off < 0x2300000) ∨ (0x2400100 ≤ off ∧ off < 0x2402000) ∨ (0x2900000 ≤ off ∧ off < 0x2D00000))

/-- Every SRAM is written with zeros: cell buffer, scratchpads, tables, capture buffer. -/
def wipeSram (s : State) : State :=
  { s with mem := { s.mem with sheets := [], cap := [] }, core := {}, fab := {}, grp := {}, rte := {}
           regs := s.regs.filter fun x => !inTable x.1, ecc := { s.ecc with cells := [], words := [] } }

/-- ORDERLY_POWER_DOWN: a write of PWR_CTL with off = 1 (R419). -/
def orderlyDown (val : Word) (s : State) : State :=
  let s := s.storeReg R.PWR_CTL val
  if bitOf val.toNat 31 && seqOf s == 2 then startDown false s else s

/-- SRAM_WIPE_DONE: drain and wipe finish; the rails go off (Table 12-7, steps 3 and 4). -/
def wipeDone (s : State) : State :=
  if seqOf s = 3 ∧ s.pwr.toOff = [] ∧ s.pwr.step = 2 then
    let s := if s.flag F.PWR_CTL_wipe_on_off && !s.pwr.wipeCut then wipeSram s else s
    switchOff (railsOn s) s
  else s

/-- The next rail of the sequence, or its end: OFF, then the Selvedge record (Table 12-7, steps 8 and 9). -/
def nextOff (s : State) : State :=
  let s := { s with pwr := { s.pwr with toOff := s.pwr.toOff.drop 1 } }
  if s.pwr.toOff.isEmpty then
    let s := { s with pwr := { s.pwr with step := 0 } }
    if seqOf s = 3 then startSelWrite (setSeq 0 s) else s
  else offHead s

/-- RAIL_OFF: the rail of the step is below its off threshold. -/
def railOff (r : Nat) (s : State) : State :=
  match s.pwr.toOff with
  | h :: _ =>
    if h = r then nextOff ((s.setFld (F.PWR_RAIL_MV_state r) 0).setFlag ⟨R.PWR_STATUS, r, 1⟩ false) else s
  | [] => s

/-- seq_err with the rail and step of the first failure (R420, R421). -/
def seqError (r step : Nat) (s : State) : State :=
  let s := if s.flag F.PWR_STATUS_seq_err then s
    else (s.setFld F.PWR_STATUS_err_rail r).setFld F.PWR_STATUS_err_step step
  setAlert 8 (s.setFlag F.PWR_STATUS_seq_err true)

/-- A record of one of the two rail kinds; the spec gives them no class (a free value). -/
def railEvent (kind r step : Nat) (s : State) : State :=
  s.withFree fun n s => appendEvent kind (n % 4) none (locRail r) step s

/-- RAIL_OFF_FAIL: a rail still on after off_tmo, or whose regulator did not acknowledge (R420). -/
def railOffFail (r : Nat) (s : State) : State :=
  match s.pwr.toOff with
  | h :: _ =>
    if h = r ∧ (s.pwr.deadline ≤ s.now ∨ (pwrEntry s r).method = 1) then
      nextOff (seqError r (10 - r) (railEvent 0x80 r (10 - r) s))
    else s
  | [] => s

/-! ### Rail monitors (R414, R421, R422) -/

/-- The good window of a rail in mV (Table 12-3). -/
def railWindow (s : State) (r : Nat) : Nat × Nat :=
  if r = 4 then (s.fld F.PWR_VCORE_req_mv - 30, s.fld F.PWR_VCORE_req_mv + 30)
  else (nominalMv r * 95 / 100, nominalMv r * 105 / 100)

/-- Beyond the limits of RAIL_FAULT: 60 mV from the request, or 10 % from nominal. -/
def railFar (s : State) (r mv : Nat) : Bool :=
  if r < 2 then false
  else if r = 4 then decide (mv + 60 < s.fld F.PWR_VCORE_req_mv ∨ s.fld F.PWR_VCORE_req_mv + 60 < mv)
  else decide (mv * 10 < nominalMv r * 9 ∨ nominalMv r * 11 < mv * 10)

/-- What the Deckle remembers of a rail. -/
def railMon (s : State) (r : Nat) : RailMon := Sparse.get (fun _ => {}) s.pwr.mon r
/-- Changes it. -/
def setRailMon (r : Nat) (v : RailMon) (s : State) : State :=
  { s with pwr := { s.pwr with mon := Sparse.put (fun _ => {}) s.pwr.mon r v } }

/-- A sample of one rail while ON: excursions over 10 µs, and how long it has been far (R422). -/
def watchOn (r mv : Nat) (out : Bool) (s : State) : State :=
  let m := railMon s r
  let far := railFar s r mv
  let since := if out then some (m.outSince.getD s.now) else none
  let late := match since with | some t => decide (t + 10000 < s.now) | none => false
  let s := setRailMon r { m with
    outSince := since, counted := out && (m.counted || late),
    farSince := if far then some (m.farSince.getD s.now) else none } s
  let s := if far then s else if s.flt.live.contains (1, locRail r) then endLive 1 (locRail r) s else s
  if late && !m.counted then setAlert 7 (raise Cause.railExcursion (locRail r) (s.bumpSel (0x40 + 4 * r))) else s

/-- A rail found below its window before its own step of the power-down (R421). -/
def watchDown (r mv : Nat) (s : State) : State :=
  let m := railMon s r
  let own := match s.pwr.toOff with | h :: _ => h == r | [] => false
  let waits := s.pwr.toOff.contains r || (s.pwr.toOff.isEmpty && decide (2 ≤ r))
  if waits && !own && !m.early && decide (mv < (railWindow s r).1) then
    let step := if s.pwr.toOff.isEmpty then 3 else s.pwr.step
    let s := setRailMon r { m with early := true } s
    let s := seqError r step (railEvent 0x81 r step s)
    if step = 3 then { s with pwr := { s.pwr with wipeCut := true } } else s
  else s

/-- One rail's sample: its voltage, its state and good bit, and what follows. -/
def sampleRail (r mv : Nat) (s : State) : State :=
  let s := s.setFld (F.PWR_RAIL_MV_mv r) (saturate 16 mv)
  let st := s.fld (F.PWR_RAIL_MV_state r)
  if st < 2 then s
  else
    let out := decide (mv < (railWindow s r).1 ∨ (railWindow s r).2 < mv)
    let s := (s.setFld (F.PWR_RAIL_MV_state r) (if out then 3 else 2)).setFlag ⟨R.PWR_STATUS, r, 1⟩ (!out)
    if seqOf s = 2 then watchOn r mv out s else if seqOf s = 3 then watchDown r mv s else s

/-- RAIL_MONITOR: every 10 µs; `mv` lists the rails' voltages (R414). -/
def railMonitor (mv : List Nat) (s : State) : State := forEach (upTo 7) (fun r s => sampleRail r (nth mv r) s) s

/-- RAIL_FAULT: a rail far from its request for more than 100 µs while ON (R422). -/
def railFault (r : Nat) (s : State) : State :=
  match (railMon s r).farSince with
  | some t => if seqOf s = 2 ∧ t + 100000 < s.now then raiseFatal Cause.railFault (locRail r) 0 s else s
  | none => s

/-! ### Levels (R424 to R431) -/

/-- A throttle reason on a die: 0 PCAP, 1 ICAP, 2 DROOP, 3 TEMP, 4 EXT, 5 MGMT. -/
def thr (s : State) (d r : Nat) : Thr := Sparse.get (fun _ => {}) s.pwr.thr (d * 8 + r)
/-- Sets it; a limit never exceeds 6 (R429). -/
def setThr (d r : Nat) (v : Thr) (s : State) : State :=
  { s with pwr := { s.pwr with thr := Sparse.put (fun _ => {}) s.pwr.thr (d * 8 + r) { v with level := min 6 v.level } } }

/-- The active phase entry. -/
def phaseEntry (s : State) : Nat := (s.rd (R.PWR_PHASE (s.fld F.PWR_PHASE_SEL_phase))).toNat

/-- The requested level of a die: op of the active phase entry, 5 to 7 acting as 4. -/
def reqLvl (s : State) (d : Nat) : Nat := min 4 (bits (phaseEntry s) (3 * d) 3)

/-- The limit level of a die (R424); 0 in standby (R439). -/
def limLvl (s : State) (d : Nat) : Nat :=
  if inStandby s d then 0 else ((upTo 6).map fun r => (thr s d r).level).foldl max 0

/-- The measured VDD_CORE covers a level. -/
def measuredCovers (s : State) (level : Nat) : Bool := decide (needMv s level ≤ s.fld (F.PWR_RAIL_MV_mv 4))

/-- The fastest level that the measured voltage supports where VDD_CORE does not follow requests (R416). -/
def heldLvl (s : State) : Nat := if followsVdd s then 0 else ((upTo 5).find? (measuredCovers s)).getD 4

/-- The target of a die's effective level (R416, R424). -/
def targetLvl (s : State) (d : Nat) : Nat := max (heldLvl s) (max (reqLvl s d) (limLvl s d))

/-- The reasons active on a die (R424). -/
def activeOn (s : State) (d : Nat) : Nat :=
  if inStandby s d then 0
  else ((upTo 6).filter fun r => decide (reqLvl s d < (thr s d r).level)).foldl (fun m r => m + 2 ^ r) 0

/-- PWR_DIE_STATUS follows the levels. -/
def showLevels (s : State) : State :=
  forEach (upTo 4) (fun d s =>
    ((s.setFld (F.PWR_DIE_STATUS_req_lvl d) (reqLvl s d)).setFld (F.PWR_DIE_STATUS_lim_lvl d) (limLvl s d)).setFld
      (F.PWR_DIE_STATUS_active d) (activeOn s d)) s

/-- A reason is active on some die. -/
def activeAny (s : State) (r : Nat) : Bool := (upTo 4).any fun d => bitOf (s.fld (F.PWR_DIE_STATUS_active d)) r

/-- A change of limits or requests: the levels show, and each reason that begins an episode counts and alerts (R426,
R431, R436). -/
def withLevels (f : State → State) (s : State) : State :=
  let t := showLevels (f s)
  forEach (upTo 6) (fun r t =>
    if !activeAny s r && activeAny t r then setAlert r (t.bump (F.PWR_THR_EPI_count r)) else t) t

/-- PHASE_SELECT: a write of PWR_PHASE_SEL (R427). -/
def phaseSelect (val : Word) (s : State) : State := withLevels (State.storeReg R.PWR_PHASE_SEL val) s

/-- LEVEL_STEP: one step of a die's effective level toward its target (R425). -/
def levelStep (d : Nat) (s : State) : State :=
  if inStandby s d then s
  else
    let e := effLvl s d
    let t := targetLvl s d
    if e < t then lowerRequest (s.setFld (F.PWR_DIE_STATUS_eff_lvl d) (e + 1))
    else if t < e then
      let need := needMv s (e - 1)
      if 4 < e then s.setFld (F.PWR_DIE_STATUS_eff_lvl d) (e - 1)
      else if followsVdd s then
        if s.fld F.PWR_VCORE_req_mv < need then
          requestMv need { s with pwr := { s.pwr with raising := true } }
        else if s.pwr.raising then s
        else s.setFld (F.PWR_DIE_STATUS_eff_lvl d) (e - 1)
      else if measuredCovers s (e - 1) then s.setFld (F.PWR_DIE_STATUS_eff_lvl d) (e - 1)
      else s
    else lowerRequest s

/-! ### Throttle reasons (Table 12-9) -/

/-- The dies that take throttle reasons. -/
def throttled (s : State) : List Nat := (upTo 4).filter fun d => !inStandby s d

/-- One evaluation of a reason on a die: above its cap the limit rises by 1; after `span` ns below its lower bound it
falls by 1. -/
def moveThr (d r : Nat) (above below : Bool) (span : Nat) (s : State) : State :=
  let t := thr s d r
  if above then setThr d r { t with level := t.level + 1, lowSince := none } s
  else if below then
    match t.lowSince with
    | none => setThr d r { t with lowSince := some s.now } s
    | some since =>
      if since + span ≤ s.now then setThr d r { t with level := t.level - 1, lowSince := some s.now } s else s
  else setThr d r { t with lowSince := none } s

/-- PCAP: every 1 ms; `watts` is the average over pcap_win (R428). A cap of 0 disables it: its limits are 0. -/
def pcap (watts : Nat) (s : State) : State :=
  let cap := bits (phaseEntry s) 21 11
  let span := max 1 (s.fld F.PWR_LIMITS_pcap_win) * 1000000
  withLevels (fun s => forEach (throttled s) (fun d s =>
    if cap = 0 then setThr d 0 {} s else moveThr d 0 (decide (cap < watts)) (decide (watts * 100 < 95 * cap)) span s) s) s

/-- ICAP: every 10 µs; `amps` is the VDD_CORE current (R428). A cap of 0 disables it. -/
def icap (amps : Nat) (s : State) : State :=
  let cap := s.fld F.PWR_LIMITS_icap
  let s := s.setFld F.PWR_VCORE_amps (saturate 11 amps)
  withLevels (fun s => forEach (throttled s) (fun d s =>
    if cap = 0 then setThr d 1 {} s else moveThr d 1 (decide (cap < amps)) (decide (amps * 10 < 9 * cap)) 1000000 s) s) s

/-- DROOP: the end of a 100 µs window with `stretch` ns of clock stretch (R428). -/
def droop (d stretch : Nat) (s : State) : State :=
  if inStandby s d then s
  else withLevels (fun s =>
    let t := thr s d 2
    if 25000 < stretch then setThr d 2 { t with level := t.level + 1, lowSince := some s.now } s
    else match t.lowSince with
      | none => s
      | some since =>
        if since + 10000000 ≤ s.now then setThr d 2 { t with level := t.level - 1, lowSince := some s.now } s else s) s

/-- A reading in 1/16 °C as a signed number. -/
def reading (w : Nat) : Int := if w < 32768 then Int.ofNat w else Int.ofNat w - 65536

/-- The sensors of a weave die and its two reed dies (Table 01-1). -/
def sensorsOf (d : Nat) : List Nat := [4 * d, 4 * d + 1, 4 * d + 2, 4 * d + 3, 16 + 2 * d, 17 + 2 * d]

/-- The highest last reading of a die's sensors and its reed dies'. -/
def dieTemp (s : State) (d : Nat) : Int :=
  ((sensorsOf d).map fun i => reading (s.fld (F.PWR_TEMP_temp i))).foldl max (-32768)

/-- TEMP: the limit rises by 1 per ms at or above 105.0 °C and falls by 1 per 10 ms below 103.0 °C (R428, R429). -/
def temp (d : Nat) (s : State) : State :=
  if inStandby s d then s
  else withLevels (fun s =>
    let t := thr s d 3
    let x := dieTemp s d
    if 1680 ≤ x then
      let due := match t.raisedAt with | some a => decide (a + 1000000 ≤ s.now) | none => true
      if due then setThr d 3 { level := t.level + 1, raisedAt := some s.now, lowSince := none } s
      else setThr d 3 { t with lowSince := none } s
    else moveThr d 3 false (decide (x < 1648)) 10000000 s) s

/-- ext_lvl, 7 acting as 6. -/
def extLvl (s : State) : Nat := min 6 (s.fld F.PWR_LIMITS_ext_lvl)

/-- The EXT limit of every die follows THROTTLE_N (R428). -/
def setExt (low : Bool) (s : State) : State :=
  withLevels (fun s => forEach (upTo 4) (fun d s => setThr d 4 { level := if low then extLvl s else 0 } s)
    { s with pwr := { s.pwr with extLow := low } }) s

/-- DROOP_TRIP: the die's clock is stretched until hold × 100 ns after the last trip (R430). -/
def droopTrip (d : Nat) (s : State) : State :=
  if inStandby s d then s
  else
    let hold := max 1 (s.fld F.PWR_DROOP_CFG_hold) * 100
    { s.setFlag (F.PWR_DIE_STATUS_stretch d) true with
      pwr := { s.pwr with stretchUntil := setAt s.pwr.stretchUntil d (s.now + hold) } }

/-- STRETCH_END: hold × 100 ns have passed since the last trip (R430). -/
def stretchEnd (d : Nat) (s : State) : State :=
  if nth s.pwr.stretchUntil d ≤ s.now then s.setFlag (F.PWR_DIE_STATUS_stretch d) false else s

/-! ### Energy and sensors -/

/-- ENERGY_UPDATE: `uj` measured over 10 µs, and est_w of rails 0 to 2 (R432). -/
def energyUpdate (uj : Nat) (s : State) : State :=
  let est := ([0, 1, 2].map fun r => (pwrEntry s r).estW).sum * 10
  let e := s.fld F.PWR_ENERGY_LO_energy + 2 ^ 32 * s.fld F.PWR_ENERGY_HI_energy + uj + est
  let e := saturate 64 e
  (s.setFld F.PWR_ENERGY_LO_energy (e % 2 ^ 32)).setFld F.PWR_ENERGY_HI_energy (e / 2 ^ 32)

/-- The die index of a sensor in the Selvedge record: weave dies, then reed dies. -/
def sensorDie (i : Nat) : Nat := if i < 16 then i / 4 else 4 + (i - 16)

/-- A reading reaches PWR_TEMP, the warn alert, the THERMTRIP live bit and the minute's highest (R433, R436, R444). -/
def takeReading (i : Nat) (t : BitVec 16) (s : State) : State :=
  let x := reading t.toNat
  let before := reading (s.fld (F.PWR_TEMP_temp i))
  let s := s.setFld (F.PWR_TEMP_temp i) t.toNat
  let s := if reading (s.fld (F.PWR_TEMP_max i)) < x then s.setFld (F.PWR_TEMP_max i) t.toNat else s
  let k := sensorDie i
  let top := match Sparse.get (fun _ => (none : Option Int)) s.pwr.minMax k with | some y => max x y | none => x
  let s := { s with pwr := { s.pwr with minMax := Sparse.put (fun _ => (none : Option Int)) s.pwr.minMax k (some top) } }
  let warn := Int.ofNat (s.fld F.PWR_TEMP_CFG_warn) * 16
  let s := if before < warn ∧ warn ≤ x then setAlert 6 s else s
  if 1840 ≤ x then beginLive 0 (locSensor i) s
  else if s.flt.live.contains (0, locSensor i) then endLive 0 (locSensor i) s else s

/-- THERMTRIP: a sensor reads 115.0 °C or above (R435). -/
def thermtrip (i : Nat) (t : BitVec 16) (s : State) : State :=
  let s := takeReading i t s
  if 1840 ≤ reading t.toNat then raiseFatal Cause.thermtrip (locSensor i) t.toNat s else s

/-! ### Die standby (R437 to R439) -/

/-- The conditions of R437. -/
def standbyOk (s : State) (d : Nat) : Bool :=
  !(((upTo 128).map (d * 128 + ·)).any (linkUp s))
    && !(s.grp.trk.any fun x => match x.2 with | some t => t.home / 128 == d | none => false)
    && ((upTo 128).all fun i => s.fld (F.GLB_SHT_MAP_w (d * 128 + i)) == 0)
    && !(s.fab.dir.any fun x => lineHome x.1 / 128 == d && x.2.st != .i)

/-- Entry into standby: the shuttles OFF, the level shown as 7, no throttle reason (R438, R439). -/
def enterStandby (d : Nat) (s : State) : State :=
  let s := forEach (upTo 136) (fun i s => unloadSht (d * 136 + i) (setShtP (d * 136 + i) 2 s)) s
  let s := s.setFlag (F.PWR_DIE_STATUS_standby d) true
  let s := s.setFlag (F.PWR_DIE_STATUS_stretch d) false
  let s := forEach [0, 1, 2, 3] (fun r s => setThr d r {} s) s
  lowerRequest (withLevels id (s.setFld (F.PWR_DIE_STATUS_eff_lvl d) 7))

/-- A die's PLL locks at a level, VDD_CORE raised first where it needs that (R404, R439). -/
def relock (d lvl : Nat) (s : State) : State :=
  let s := s.setFld (F.PWR_DIE_STATUS_eff_lvl d) lvl
  if followsVdd s && s.fld F.PWR_VCORE_req_mv < needMv s lvl then
    requestMv (needMv s lvl) { s with pwr := { s.pwr with raising := true } }
  else s

/-- The end of standby: VDD_CORE raised first when the requested level needs it, then the level; without method 1 the
fastest level that the measured voltage supports (R416, R439). -/
def leaveStandby (d : Nat) (s : State) : State :=
  let s := s.setFlag (F.PWR_DIE_STATUS_standby d) false
  let s := withLevels id s
  relock d (targetLvl s d) s

/-- A write of PWR_DIE_CTL: the MGMT limit, then standby (R428, R437, R439). -/
def writeDieCtl (d : Nat) (val : Word) (s : State) : State :=
  let s := withLevels (fun s =>
    setThr d 5 { level := bits val.toNat 0 3 } (s.storeReg (R.PWR_DIE_CTL d) val)) s
  if bitOf val.toNat 31 then
    if inStandby s d then s
    else if standbyOk s d then enterStandby d s
    else s.setFlag (F.PWR_DIE_STATUS_sb_refused d) true
  else if inStandby s d then leaveStandby d s
  else s

/-- A write of PWR_DIE_CTL that changes standby alone (R437, R439). -/
def writeStandby (d : Nat) (b : Bool) (s : State) : State := writeDieCtl d (putBits (s.rd (R.PWR_DIE_CTL d)) 31 1 (ofBool b)) s

/-! ### Clocks (R405 to R407) -/

/-- AON_CLK_LOSS: the always-on domain runs from its internal oscillator until the next power-on reset (R405). -/
def aonClkLoss (s : State) : State :=
  if s.pwr.osc then s else raise Cause.aonClkLoss locNone { s with pwr := { s.pwr with osc := true } }

/-- The PLLs are in holdover. -/
def inHoldover (s : State) : Bool := s.flt.live.contains (Cause.coreRefclkLoss, locNone)

/-- CORE_REFCLK_LOSS: holdover; fabric time becomes unlocked (R406, R216), but for the master's, which is always locked (R214;
DEDUCED, log 103). -/
def coreClkLoss (s : State) : State :=
  let s := rebaseTime (raise Cause.coreRefclkLoss locNone s)
  if s.flag F.SCH_TIME_STATUS_master then s else setTimeLocked false s

/-- CORE_REFCLK_RETURN: the PLLs relock without stopping (R406). -/
def coreClkReturn (s : State) : State := endLive Cause.coreRefclkLoss locNone s

/-- The enabled ports of the reed dies that a lane reference clocks. -/
def clockedPorts (s : State) (b : Bool) : List Nat := (enabledPorts s).filter fun p => decide (256 ≤ p) == b

/-- LANE_REFCLK_LOSS: the lanes stop and lose CDR lock; their ports leave UP (R407). -/
def laneClkLoss (b : Bool) (s : State) : State :=
  let s := raise Cause.laneRefclkLoss (locReed (if b then 4 else 0)) s
  forEach (clockedPorts s b) (fun p s =>
    let s := forEach (portLanes s p) (fun n s =>
      if lstate s n = 0 then s
      else (toDetect n (s.emit (.laneDrive n false))).setFlag (F.LNE_STATUS_cdr_lock n) false) s
    linkLoss p (setActive p 0 s)) s

/-- LANE_REFCLK_RETURN: the lanes retrain under Table 11-6 (R407). -/
def laneClkReturn (b : Bool) (s : State) : State :=
  let s := endLive Cause.laneRefclkLoss (locReed (if b then 4 else 0)) s
  forEach (clockedPorts s b) (fun p s => enablePort p (retrainPort p s)) s

/-! ### Time passing -/

/-- Adds a microsecond to the duration counter of a reason (R431). -/
def addDuration (r : Nat) (s : State) : State :=
  let n := saturate 48 (s.fld (F.PWR_THR_DUR_LO_dur r) + 2 ^ 32 * s.fld (F.PWR_THR_DUR_HI_dur r) + 1)
  (s.setFld (F.PWR_THR_DUR_LO_dur r) (n % 2 ^ 32)).setFld (F.PWR_THR_DUR_HI_dur r) (n / 2 ^ 32)

/-- A microsecond that counts for a reason: it is active on some die, or for DROOP some die's clock is stretched. -/
def reasonCounts (s : State) (r : Nat) : Bool :=
  activeAny s r || (r == 2 && (upTo 4).any fun d => s.flag (F.PWR_DIE_STATUS_stretch d))

/-- The block idles for one cycle of the 500 MHz management tile: 2 ns pass (R520); at the end of a microsecond the
duration counters count (R431). -/
def tick (s : State) : State :=
  let t := { s with now := s.now + 2 }
  if s.now / 1000 = t.now / 1000 then t
  else forEach (upTo 6) (fun r t => if reasonCounts t r then addDuration r t else t) t

end Sys2Proof.Machine
end

