-- ==== Sys2Proof/Machine/Recover.lean ====
section
/-! DEFINITION. Recovery (file 13): FAULT_N (R456, R457), die resets (R468, R469), warm and power-on resets (R470, R471,
R497, R528), die-to-die channels (R25, R445), the Deckle watchdog (R449), life-cycle transitions (R507, R508). -/

namespace Sys2Proof.Machine

/-- A fatal fault holds the device (R442). -/
def isFatal (s : State) : Bool := s.flag F.FLT_STATUS_fatal

/-! ### FAULT_N -/

/-- FAULT_N is released, unless a fatal raise holds it (R457). -/
def releaseFaultN (s : State) : State :=
  if isFatal s then s
  else { s.setFlag F.FLT_STATUS_pin false with flt := { s.flt with minUntil := none, released := false } }

/-- FAULT_N_MINIMUM_END: the 10 µs of the last raise are over (R457). -/
def faultMinEnd (s : State) : State :=
  match s.flt.minUntil with
  | none => s
  | some t =>
    if s.now < t then s
    else if s.flag F.FLT_PIN_CTL_auto_rel || s.flt.released then
      releaseFaultN { s with flt := { s.flt with minUntil := none } }
    else { s with flt := { s.flt with minUntil := none } }

/-- FAULT_N_RELEASE: a write of FLT_PIN_CTL; release acts now, or at the end of a minimum; a raise of the same cycle consumes it
(R457). -/
def faultRelease (val : Word) (s : State) : State :=
  let s := s.storeReg R.FLT_PIN_CTL val
  if !bitOf val.toNat 31 || isFatal s || s.flt.minUntil == some (s.now + 10000) then s
  else if s.flt.minUntil.isSome then { s with flt := { s.flt with released := true } }
  else releaseFaultN s

/-! ### Die-to-die channels -/

/-- The failed channels of a link. -/
def failedOf (s : State) (k : Nat) : List Nat := (s.flt.badCh.filter fun x => x.1 == k).map (·.2)

/-- The spares of a link that carry data: the lowest working ones, one for each failed data channel (R25). -/
def sparesUsed (failed : List Nat) : List Nat :=
  ([32, 33].filter fun c => !failed.contains c).take (failed.filter (· < 32)).length

/-- D2D_CHANNEL_FAIL: a spare takes the channel's place, or the link loses capacity or its last channel (R25, R445). -/
def channelFail (d e ch : Nat) (s : State) : State :=
  let k := d * 4 + e
  let before := failedOf s k
  if d = e ∨ before.contains ch then s
  else
    let carried := decide (ch < 32) || (sparesUsed before).contains ch
    let after := ch :: before
    let s := { s with flt := { s.flt with badCh := s.flt.badCh ++ [(k, ch)] } }
    let s := s.setFld (F.FLT_D2D_STAT_failed k) after.length
    let s := s.setFld (F.FLT_D2D_STAT_spares k) (sparesUsed after).length
    if after.length = 34 then settle (raiseFatal Cause.d2dLost (locLink d e 0x3F) 0 s)
    else if 2 < after.length then raise Cause.d2dDegraded (locLink d e 0x3F) s
    else if carried then raise Cause.d2dSpared (locLink d e ch) s
    else s

/-- Channels that carry a link's data: the working ones of 0 to 31, and the spares in use. -/
def carries (s : State) (k ch : Nat) : Bool :=
  !(failedOf s k).contains ch && (decide (ch < 32) || (sparesUsed (failedOf s k)).contains ch)

/-- D2D_RESEND: a transfer over a channel failed its CRC and is resent, which loses and reorders nothing; the ninth within 1 ms
declares the channel failed (R445). -/
def resend (k ch : Nat) (s : State) : State :=
  if k / 4 = k % 4 ∨ carries s k ch = false then s
  else
    let times := (Sparse.get (fun _ => []) s.flt.resent (k * 34 + ch)).filter (s.now - 1000000 < ·) ++ [s.now]
    let s := s.bump (F.FLT_D2D_STAT_resends k)
    let s := { s with flt := { s.flt with resent := Sparse.put (fun _ => []) s.flt.resent (k * 34 + ch) times } }
    if 8 < times.length then channelFail (k / 4) (k % 4) ch s else s

/-- A free value decides whether a transfer of this slot is resent, and on which channel of which busy link (log 111). -/
def resendSome (s : State) : State :=
  s.withFree fun n s =>
    let k := n / 2 % 16
    if n % 2 = 1 ∧ (Sparse.get (fun _ => []) s.core.xfer k).isEmpty = false then resend k (n / 32 % 34) s else s

/-- The test of a die reset: channels of the die's links that fail it are declared failed (R445). -/
def testChannels (d : Nat) (s : State) : State :=
  forEach (s.flt.weakCh.filter fun x => x.1 / 4 == d || x.1 % 4 == d)
    (fun x s => channelFail (x.1 / 4) (x.1 % 4) x.2 s) s

/-! ### Die reset -/

/-- A die reset of `d` begins: counted, a load abandoned, steps 1 to 4 of Table 13-9; the PLL relocks at the requested level (R468). -/
def beginDieReset (d : Nat) (s : State) : State :=
  let s := dieHold d (abandonLoad (s.bumpSel 0x24))
  settle (if inStandby s d then s else relock d (max (heldLvl s) (reqLvl s d)) s)

/-- DIE_RESET: a write of FLT_DIE_RST; a go for a die in reset is ignored (R468). -/
def dieReset (val : Word) (s : State) : State :=
  let s := s.storeReg R.FLT_DIE_RST val
  let d := bits val.toNat 0 2
  if bitOf val.toNat 31 && !inReset s d && !isFatal s then beginDieReset d s else s

/-- PLL_UNLOCK: PLL_UNLOCK is raised and the die reset begins, with CORE_REFCLK present; a die in standby has stopped its PLL (R406,
R438). -/
def pllUnlock (d : Nat) (s : State) : State :=
  if inHoldover s || inReset s d || inStandby s d || isFatal s then s
  else beginDieReset d (raise Cause.pllUnlock (locDie d 0) s)

/-- Step 5: each coherent line of the die is in state I with poison = 1, and counts (R468, R469). -/
def poisonDie (d : Nat) (s : State) : State :=
  let lines := ((upTo 128).map (d * 128 + ·)).flatMap (linesOf s)
  (forEach lines (fun n s => s.setDir n { poison := true }) s).bumpBy F.GLB_COH_POISON_CNT_count lines.length

/-- DIE_RESET_DONE: the die takes its panels and ends its reset; vector 3 (Table 13-9, steps 5 to 8). -/
def dieResetDone (d : Nat) (s : State) : State :=
  if bitOf (s.fld F.FLT_STATUS_die_rst) d && !s.pwr.por && !s.pwr.testMode && !s.pwr.warming && !isFatal s then
    let s := testChannels d (s.setFlag ⟨R.FLT_STATUS, 26 + d, 1⟩ false)
    let s := homeRebuild (poisonDie d (bootDie d s))
    settle (raiseInt 3 s)
  else s

/-! ### Warm reset (Table 13-10) -/

/-- The live conditions that outlive a warm reset: the sensors, the rails and the missing clocks. -/
def liveAcross (c : Nat) : Bool := [0, 1, 33, 34, 36].contains c

/-- Everything but the always-on domain returns to its initial state (R13, R509). -/
def warmClear (s : State) : State :=
  let regs := (resetRegs (fun _ dom => dom != .p && dom != .a) s).regs
  showAllLive (restartClocks { State.reset with
    pending := s.pending, now := s.now, tbase0 := s.now, ponAt := s.ponAt, ponBase := s.ponBase, free := s.free
    out := s.out, regs := regs, fuses := s.fuses
    mem := { flash := s.mem.flash, sel := s.mem.sel }
    flt := { s.flt with live := s.flt.live.filter fun x => liveAcross x.1, badCh := [], resent := [] }
    pwr := { s.pwr with warming := true, thr := [], stretchUntil := [0, 0, 0, 0] }
    mgt := { s.mgt with cfg := {} }
    lanes := { eqTable := s.lanes.eqTable }
    ecc := { badSht := s.ecc.badSht, fuseBad := s.ecc.fuseBad }
    jtag := s.jtag })

/-- The levels after a warm reset: THROTTLE_N keeps its level. -/
def warmLevels (s : State) : State := if s.pwr.extLow then setExt true s else showLevels s

/-- A warm reset begins (Table 13-10, steps 1 and 2). -/
def beginWarm (s : State) : State := tileUp (warmLevels (warmClear (s.bumpSel 0x20)))

/-- WARM_RESET: the rise of RST_N, or a write of FLT_WARM_RST whose key is 0xA5; ignored in a fatal stop and before the
device is ON; the rise for which the sequence of a cold start waits starts it (R442, R470, R528). -/
def warmReset (key : Option Byte) (s : State) : State :=
  let starts := match key with
    | none => true
    | some k => k == 0xA5#8
  if !starts || isFatal s || s.pwr.por || s.pwr.testMode || seqOf s != 2 then s
  else if s.pwr.rstLow then
    (if key.isNone then tileUp { s with pwr := { s.pwr with rstLow := false } } else s)
  else beginWarm s

/-- Step 3: the draft that the Deckle applies, or the refusal that it shows (R497); without a flash there is no draft
(R488). -/
def takeBootDraft (s : State) : State :=
  if s.fld F.MIO_SPI_STATUS_size_log = 0 then
    showRefusal (if s.flag F.DFT_BOOT_pin then s.fld F.DFT_BOOT_pin_slot else 0) { code := 1 } s
  else match bootChoice s with
    | (slot, none) => applyDraft slot s
    | (slot, some r) => showRefusal slot r s

/-- WARM_RESET_DONE: the memories are tested, the draft applied, the device ready (Table 13-10, steps 3 to 7). -/
def warmDone (s : State) : State :=
  if s.pwr.warming && !s.pwr.testMode && !s.pwr.rstLow then
    let s := { s with pwr := { s.pwr with warming := false } }
    let s := forEach (upTo 4) (fun d s => setShared d (takeSpareMap d [] (fillCells d s))) s
    warmLevels ((takeBootDraft s).setFlag F.FLT_STATUS_ready true)
  else s

/-! ### Power-on reset and the life cycle -/

/-- Bytes of flash that an interrupted or failed operation leaves: the spec gives them no value. -/
def spoilFlash (a n : Nat) (s : State) : State := s.withFree fun k s => flashWrite a (leBytes n k) s

/-- The fuses take a new state; BLANK → PROVISIONED also blows the staged key hash (R507). -/
def blowFuses (t : Nat) (s : State) : State :=
  let hash := (upTo 12).map fun k => s.rd (R.AON_LC_HASH k)
  { s with fuses := { s.fuses with
      lcState := t, lcTarget := none, keyHash := if s.fuses.lcState = 0 then hash else s.fuses.keyHash } }

/-- Power fails in a transition: the new state, or the old one with some key-hash fuses blown (R508, a free choice). -/
def cutTransition (s : State) : State :=
  match s.fuses.lcTarget with
  | none => s
  | some t => s.withFree fun n s =>
    if n % 2 = 1 then blowFuses t s
    else if s.fuses.lcState = 0 then
      let word (k : Nat) : Word :=
        s.fuses.keyHash.getD k 0 ||| (s.rd (R.AON_LC_HASH k) &&& BitVec.ofNat 32 (n / 2 ^ (1 + 32 * k)))
      { s with fuses := { s.fuses with keyHash := (upTo 12).map word } }
    else s

/-- Flash writes in progress when power fails: a Selvedge half, and what a software operation was changing. -/
def cutFlash (s : State) : State :=
  let s := if s.flag F.SEL_STATUS_busy then spoilFlash (halfAddr s.mgt.selHalf) selLen s else s
  match s.mgt.spi with
  | some (1, a, n) => spoilFlash a n s
  | some (2, a, _) => spoilFlash a 65536 s
  | some (3, _, _) => spoilFlash 0x3100000 0x810000 s
  | _ => s

/-- POWER_ON_RESET: POR_N low: everything but fuses, flash and the levels of the pins returns to reset (R13, R528). -/
def powerOnReset (s : State) : State :=
  let s := cutFlash (cutTransition s)
  { State.reset with
    pending := s.pending, now := s.now, tbase0 := s.now, ponAt := s.now, free := s.free, out := s.out
    fuses := { s.fuses with lcTarget := none }
    mem := { flash := s.mem.flash }
    pwr := { extLow := s.pwr.extLow }
    ecc := { badSht := s.ecc.badSht, fuseBad := s.ecc.fuseBad }
    mgt := { perstLow := s.mgt.perstLow } }

/-- The transitions between life-cycle states: BLANK 0 → PROVISIONED 1, PROVISIONED → FIELD 2, PROVISIONED → RETURNED 3,
FIELD → RETURNED (R507). -/
def lcStep (st t : Nat) : Bool := (st == 0 && t == 1) || (st == 1 && t == 2) || (st == 1 && t == 3) || (st == 2 && t == 3)

/-- The requests that the device accepts (R507). -/
def lcAllowed (s : State) (t : Nat) : Bool :=
  lcStep (lcState s) t && (lcState s != 0 || (upTo 12).any fun k => s.rd (R.AON_LC_HASH k) != 0)

/-- LIFE_CYCLE_REQUEST: a write of AON_LC_CTL with key 0x4C: the dump area is erased and the transition runs, or it is
refused with vector 13 (R500, R507). -/
def lifeCycle (val : Word) (s : State) : State :=
  let s := s.storeReg R.AON_LC_CTL val
  let t := bits val.toNat 0 2
  if bits val.toNat 8 8 ≠ 0x4C then s
  else if s.flag F.AON_LC_busy || s.flag F.DFT_STATUS_busy || s.flag F.DFT_STATUS_mixed || !lcAllowed s t then
    raiseInt 13 (s.setFlag F.AON_LC_refused true)
  else
    let s := flashErase 0x3100000 0x810000 (s.setFlag F.AON_LC_busy true)
    { s with fuses := { s.fuses with lcTarget := some t } }

/-- LIFE_CYCLE_TRANSITION_DONE: the record is written, the fuses blown, the always-on SRAM wiped and the record reloaded;
a warm reset starts (R507). -/
def lifeCycleDone (s : State) : State :=
  match s.fuses.lcTarget with
  | none => s
  | some t =>
    let s := raiseInt 12 ((storeSelvedge s).setFlag F.SEL_STATUS_busy false)
    let s := blowFuses t { s with mgt := { s.mgt with selAgain := false } }
    let s := loadSelvedge s
    let s := (s.setFld F.AON_LC_state t).setFlag F.AON_LC_busy false
    let s := forEach (s.fuses.keyHash.take 12).zipIdx (fun x s => s.wr (R.AON_LC_HASH x.2) x.1) s
    if isFatal s then s else beginWarm s

/-! ### Register timeouts, the watchdog -/

/-- REG_TMO: the tile completes an access unanswered for 4 µs: a read returns all ones; a die in reset or standby never
raises it (R448). -/
def regTimeout (off : Nat) (write : Bool) (s : State) : State :=
  let quiet := match dieOfReg off with
    | some d => inReset s d || inStandby s d
    | none => false
  if quiet then s
  else
    let s := raise Cause.regTmo (locReg off) s
    if write then s else s.emit (.readData off 4 0xFFFFFFFF#64)

/-- The Deckle restarts: I2C transfers in progress end ABORTED, and each bus is checked before its next transfer (R449,
R482, R509). -/
def deckleRestart (s : State) : State :=
  let s := { s with mgt := { s.mgt with i2cDue := [true, true] }, flt := { s.flt with wdogAt := some s.now } }
  forEach [0, 1] (fun n s => if s.flag (F.MIO_I2C_STATUS_busy n) then endI2c n 5 s else s) s

/-- WATCHDOG_EXPIRY: DECKLE_RST, or DECKLE_WDOG within 10 s of the last restart (R449). -/
def watchdog (s : State) : State :=
  let again := match s.flt.wdogAt with
    | some t => decide (s.now < t + 10000000000)
    | none => false
  if again then settle (raiseFatal Cause.deckleWdog locNone 0 s)
  else deckleRestart (raise Cause.deckleRst locNone s)

end Sys2Proof.Machine
end

