-- ==== Sys2Proof/Machine/RegRead.lean ====
section
/-! DEFINITION. What a register reads as: stored registers, and those whose value is computed (the time bases, the settings
in use of a lane, the Selvedge and capture windows); an access to a die in reset reads 0 (R27). -/

namespace Sys2Proof.Machine

/-- The index of the instance, in an array of `count` instances `stride` bytes apart, whose register at `sub` is `off`
(R512). -/
def idxOf (off base stride count sub : Nat) : Option Nat :=
  if base + sub ≤ off ∧ (off - base) % stride = sub ∧ (off - base) / stride < count then some ((off - base) / stride)
  else none

/-- A register of a die that is held in die reset (R27). -/
def heldReg (s : State) (off : Nat) : Bool :=
  match dieOfReg off with
  | some d => inReset s d
  | none => false

/-- Four bytes of a window as a register. -/
def byteReg (get : Nat → Byte) (a : Nat) : Word := BitVec.ofNat 32 (ofLe (readBytes get a 4))

/-- The settings in use that LNE_EQ shows while ovr = 0 (R376). -/
def eqInUse (s : State) (n : Nat) : Word :=
  if s.flag (F.LNE_EQ_ovr n) then s.rd (R.LNE_EQ n) else putBits (s.lane n).eqWord 31 1 0

/-- The registers whose value is computed. -/
def computedReg (s : State) (off : Nat) : Option Word :=
  if off = R.GLB_TBASE_LO then some (BitVec.ofNat 32 s.tbase)
  else if off = R.GLB_TBASE_HI then some (BitVec.ofNat 32 (s.tbase / 2 ^ 32))
  else if off = R.GLB_PON_TIME then some (BitVec.ofNat 32 s.ponSeconds)
  else if off = R.SCH_FTIME_LO then some (BitVec.ofNat 32 (ftime s))
  else if off = R.SCH_FTIME_HI then some (BitVec.ofNat 32 (ftime s / 2 ^ 32))
  else if off = 0x3000018 then some (BitVec.ofNat 32 s.ponSeconds)
  else if 0x3000000 ≤ off ∧ off < 0x3000000 + selLen then some (byteReg s.selByte (off - 0x3000000))
  else if 0x3800000 ≤ off then some (byteReg s.capByte (off - 0x3800000))
  else (idxOf off 0xA00000 0x400 512 8).map (eqInUse s)

/-- What a 32-bit read of `off` returns, without its effects. -/
def regValue (s : State) (off : Nat) : Word :=
  if heldReg s off then 0 else (computedReg s off).getD (s.rd off)

/-! ### Clearing and latching reads -/

/-- What an RC field holds after a read (R6, R11, R240, R433): 0, or 1 when its bit of `events` says that hardware counted
in that cycle; the present depth for PRT_Q_PEAK; for PWR_TEMP the value that shows none, or the reading of that cycle. -/
def afterRead (s : State) (off : Nat) (f : FieldSpec) (events : Word) : Nat :=
  let event := events.getLsbD f.lo
  if 0x800000 ≤ off ∧ off < 0xA00000 ∧ 0x2F0 ≤ off % 0x1000 ∧ off % 0x1000 < 0x310 then
    queueCells (s.eqQ ((off - 0x800000) / 0x1000 * 8 + (off % 0x1000 - 0x2F0) / 4))
  else match idxOf off 0x300100 4 24 0 with
    | some i => if event then s.fld (F.PWR_TEMP_temp i) else f.reset
    | none => if event then 1 else 0

/-- Clears the RC fields of a register, `events` telling which of them count in that cycle. -/
def clearRc (off : Nat) (events : Word) (s : State) : State :=
  if heldReg s off then s
  else s.wr off ((regFields off).foldl (fun w f =>
    if f.access == .rc then putBits w f.lo f.width (afterRead s off f events) else w) (s.rd off))

/-- The LO registers of latching pairs (R516). -/
def isLatchLo (off : Nat) : Bool :=
  off == R.GLB_TBASE_LO || off == R.SCH_FTIME_LO || off == R.PWR_ENERGY_LO || (idxOf off 0x300200 0x10 6 0).isSome

/-- The value that a 32-bit BAR read returns: a captured HI half once, otherwise the register (R516). -/
def readValue (s : State) (off : Nat) : Word := ((s.latch.find? fun x => x.1 == off).map (·.2)).getD (regValue s off)

/-- A 32-bit BAR read: its data; a LO half captures its HI half; RC fields clear. -/
def readReg32 (off : Nat) (events : Word) (s : State) : State :=
  let v := readValue s off
  let latch := s.latch.filter fun x => x.1 != off
  let latch := if isLatchLo off then (off + 4, regValue s (off + 4)) :: latch.filter (fun x => x.1 != off + 4) else latch
  (clearRc off events { s with latch := latch }).emit (.readData off 4 (v.setWidth 64))

/-- A 64-bit BAR read: both halves, live, in one cycle (R5, R516), each with the events of its own counters (R11). -/
def readReg64 (off : Nat) (events : BitVec 64) (s : State) : State :=
  let v := regValue s (off + 4) ++ regValue s off
  (clearRc (off + 4) (events.extractLsb' 32 32) (clearRc off (events.setWidth 32) s)).emit (.readData off 8 v)

end Sys2Proof.Machine
end

