-- ==== Sys2Proof/Machine/Mgmt.lean ====
section
/-! DEFINITION. Management peripherals (file 14): the PCI Express function (R476, R530), I2C controllers (R480 to R482), the
I2C target (R483 to R485), software flash operations (R489, R490), GPIO. -/

namespace Sys2Proof.Machine

/-! ### The PCI Express function -/

/-- A register of the MSI-X table or PBA, or MIO_INT_EN (R476). -/
def isFunctionReg (off : Nat) : Bool := decide (0x700000 ≤ off ∧ off < 0x700808) || off == R.MIO_INT_EN

/-- FUNCTION_LEVEL_RESET: the configuration space, the MSI-X table and PBA and MIO_INT_EN return to reset (R476). -/
def functionReset (s : State) : State :=
  { s with regs := s.regs.filter fun x => !isFunctionReg x.1, mgt := { s.mgt with cfg := {} } }

/-- PCIE_LINK_DOWN: PCIE_PERST_N goes low, or the link goes down: the function is reset (R476, R530). -/
def pcieDown (s : State) : State :=
  let s := functionReset s
  { s with mgt := { s.mgt with perstLow := true } }

/-- PCIE_PERST_N_RISE: the function starts link training, from step 2 of Table 13-10 on (R530). -/
def perstRise (s : State) : State :=
  let s := { s with mgt := { s.mgt with perstLow := false } }
  if seqOf s = 2 then trainPcie s else s

/-! ### Configuration space (Table 14-1)

No row of the command table accesses it: its accesses come from free values in idle cycles (log 113). -/

/-- A word of the Type 0 header; the spec gives the offsets and contents of the capabilities no place (free values). -/
def cfgWord (s : State) (off : Nat) : Option Word :=
  match off with
  | 0x00 => some (s.rd R.GLB_ID)
  | 0x04 => some (BitVec.ofNat 32 (0x100000 + 2 * ofBool s.mgt.cfg.memEn + 4 * ofBool s.mgt.cfg.busEn))
  | 0x08 => some (0x088000#24 ++ (s.rd R.GLB_REV).setWidth 8)
  | 0x0C => some 0
  | 0x10 => some (BitVec.ofNat 32 (s.mgt.cfg.bar0 + 4))
  | 0x14 => some (BitVec.ofNat 32 (s.mgt.cfg.bar0 / 2 ^ 32))
  | 0x18 | 0x1C | 0x20 | 0x24 | 0x30 | 0x3C => some 0
  | _ => none

/-- A configuration read; Request Retry Status in the first 20 ms after step 2 of Table 13-10 (R477). -/
def cfgRead (off : Nat) (s : State) : State :=
  if s.now < s.mgt.crsUntil then s.emit (.cfgData off none)
  else match cfgWord s off with
    | some w => s.emit (.cfgData off (some w))
    | none => s.withFree fun n s => s.emit (.cfgData off (some (BitVec.ofNat 32 n)))

/-- Changes the configuration; vectors that may now send do (R478). -/
def onCfg (f : PciCfg → PciCfg) (s : State) : State :=
  forEach (upTo 64) unmaskMsix { s with mgt := { s.mgt with cfg := f s.mgt.cfg } }

/-- A configuration write to a word of the header: memory decoding, bus mastering, BAR0, which keeps the 26 bits of its 64 MiB at 0. -/
def cfgWrite (off v : Nat) (s : State) : State :=
  if s.now < s.mgt.crsUntil then s.emit (.cfgData off none)
  else match off with
    | 0x04 => onCfg (fun c => { c with memEn := bitOf v 1, busEn := bitOf v 2 }) s
    | 0x10 => onCfg (fun c => { c with bar0 := c.bar0 / 2 ^ 32 * 2 ^ 32 + bits v 26 6 * 2 ^ 26 }) s
    | 0x14 => onCfg (fun c => { c with bar0 := v % 2 ^ 32 * 2 ^ 32 + c.bar0 % 2 ^ 32 }) s
    | _ => s

/-- What a host does to the configuration space, named by a free value: a read, a write, D0 or D3hot, MSI-X Enable and Function
Mask, a Hot Reset; nothing while PCIE_PERST_N is low. -/
def hostCfg (n : Nat) (s : State) : State :=
  if s.mgt.perstLow then s
  else match n % 8 with
    | 1 => cfgRead (n / 8 % 1024 * 4) s
    | 2 => cfgWrite (n / 8 % 1024 * 4) (n / 8192) s
    | 3 => onCfg (fun c => { c with d3hot := bitOf n 3 }) s
    | 4 => onCfg (fun c => { c with msixEn := bitOf n 3, msixMask := bitOf n 4 }) s
    | 5 => functionReset s
    | _ => s

/-! ### Byte buffers in registers -/

/-- Byte `i` of a buffer of registers that starts at `base`: byte 4k + i in bits [8i + 7:8i] of register k. -/
def bufByte (s : State) (base i : Nat) : Byte := BitVec.ofNat 8 (bits (s.rd (base + i / 4 * 4)).toNat (i % 4 * 8) 8)

/-- Writes bytes into a buffer of registers. -/
def putBuf (base : Nat) (l : List Byte) (s : State) : State :=
  forEach l.zipIdx (fun x s => s.setFld ⟨base + x.2 / 4 * 4, x.2 % 4 * 8, 8⟩ x.1.toNat) s

/-! ### I2C controllers -/

/-- I2C_TRANSFER: a write of MIO_I2C_XFER; go starts a transfer when software transfers are allowed, and ends at once with
STUCK on a stuck bus (R480, R482); a go while a transfer runs is ignored. -/
def i2cTransfer (n : Nat) (val : Word) (s : State) : State :=
  let s := s.storeReg (R.MIO_I2C_XFER n) val
  if s.flag (F.MIO_I2C_STATUS_busy n) || !bitOf val.toNat 31 || !s.flag (F.MIO_I2C_CFG_en n) then s
  else if s.flag (F.MIO_I2C_STATUS_stuck n) && !checkDue s n then endI2c n 4 s
  else
    let w := min 32 (bits val.toNat 8 6)
    (s.setFlag (F.MIO_I2C_STATUS_busy n) true).emit
      (.i2cStart n (bits val.toNat 16 7) (readBytes (bufByte s (R.MIO_I2C_DATA n 0)) 0 w) (min 32 (bits val.toNat 0 6)))

/-- I2C_TRANSFER_END: a transfer ends with its result and the bytes read; a bus check that was due came first, and one
that the result calls for follows (R480, R482). Result 7 is no result (MIO_I2C_STATUS). -/
def i2cTransferEnd (n result : Nat) (data : List Byte) (sda : Option Nat) (s : State) : State :=
  if !s.flag (F.MIO_I2C_STATUS_busy n) || result == 7 then s
  else
    let noStop := result == 3 || result == 5 || result == 6
    let due := checkDue s n
    let s := if due then busCheck n sda s else s
    if due && s.flag (F.MIO_I2C_STATUS_stuck n) then endI2c n 4 s
    else
      let s := putBuf (R.MIO_I2C_DATA n 0) (data.take 32) s
      let s := if noStop then (if due then setCheckDue n true s else busCheck n sda s) else s
      endI2c n result s

/-- I2C_TIMEOUT: SCL held low for 25 ms ends the transfer with TIMEOUT and releases the bus, or ends a bus check with
STUCK (R481, R482). -/
def i2cTimeout (n : Nat) (s : State) : State :=
  if !s.flag (F.MIO_I2C_STATUS_busy n) then s
  else if checkDue s n then endI2c n 4 (busCheck n none s)
  else endI2c n 3 (setCheckDue n true (s.emit (.i2cBus n false)))

/-- RECOVER: a write of recover repeats the bus check (R482). -/
def i2cRecover (n : Nat) (sda : Option Nat) (s : State) : State := busCheck n sda s

/-! ### The I2C target -/

/-- The target answers (R483). -/
def targetOn (s : State) : Bool := !s.pwr.por && s.flag F.MIO_I2CT_CFG_en

/-- The target's address byte for a write. -/
def targetAddr (s : State) : Nat := 2 * s.fld F.MIO_I2CT_CFG_addr

/-- A block read: byte count, bytes, and the PEC over the whole transaction when pec_en = 1 (R483). -/
def blockRead (cmd : Nat) (data : List Byte) (s : State) : State :=
  if !targetOn s then s
  else
    let count := BitVec.ofNat 8 data.length :: data
    let head : List Byte := [BitVec.ofNat 8 (targetAddr s), BitVec.ofNat 8 cmd, BitVec.ofNat 8 (targetAddr s + 1)]
    s.emit (.i2cBytes (if s.flag F.MIO_I2CT_CFG_pec_en then count ++ [pec (head ++ count)] else count))

/-- A register as four bytes, read without effects (R485). -/
def regBytes (s : State) (off : Nat) : List Byte := leBytes 4 (regValue s off).toNat

/-- IDENT: serial, stepping, life-cycle state (Table 14-3). -/
def targetIdent (s : State) : State :=
  blockRead 0x01 (leBytes 8 s.fuses.serial.toNat ++ [0xB1#8, BitVec.ofNat 8 (lcState s), 0#8, 0#8]) s

/-- FAULT: FLT_STATUS, the causes, FLT_FFC0 and FLT_FFC1. -/
def targetFault (s : State) : State :=
  blockRead 0x02 ([R.FLT_STATUS, R.FLT_CAUSE_LO, R.FLT_CAUSE_HI, R.FLT_FFC0, R.FLT_FFC1].flatMap (regBytes s)) s

/-- The sensor with the highest last reading, the lowest number among equals. -/
def hottest (s : State) : Nat :=
  (upTo 24).foldl (fun best i =>
    if reading (s.fld (F.PWR_TEMP_temp best)) < reading (s.fld (F.PWR_TEMP_temp i)) then i else best) 0

/-- THERMAL: the highest last reading and its sensor. -/
def targetThermal (s : State) : State :=
  blockRead 0x03 (leBytes 2 (s.fld (F.PWR_TEMP_temp (hottest s))) ++ [BitVec.ofNat 8 (hottest s), 0#8]) s

/-- POWER: the energy counter and PWR_STATUS. -/
def targetPower (s : State) : State :=
  blockRead 0x04 ([R.PWR_ENERGY_LO, R.PWR_ENERGY_HI, R.PWR_STATUS].flatMap (regBytes s)) s

/-- ADDR: stores the offset, 4-byte aligned; with pec_en = 1 a wrong or missing PEC is NACKed, discarded and counted
(R484). A write of another length stores nothing. -/
def targetAddress (bytes : List Byte) (p : Option Byte) (s : State) : State :=
  if !targetOn s || bytes.length != 4 then s
  else
    let head : List Byte := [BitVec.ofNat 8 (targetAddr s), 0x10#8, 4#8]
    if s.flag F.MIO_I2CT_CFG_pec_en && p != some (pec (head ++ bytes)) then
      (s.bump F.MIO_I2CT_PEC_CNT_count).emit (.i2cNack 7)
    else { s with mgt := { s.mgt with tgtOff := ofLe bytes / 4 * 4 } }

/-- The blocks that READ reaches: GLB, AON, FLT, PWR and SEL (R485). -/
def targetReads (off : Nat) : Bool := decide (off < 0x400000 ∨ (0x3000000 ≤ off ∧ off < 0x3800000))

/-- READ: the register at the stored offset, which then grows by 4 (R485). -/
def targetRead (s : State) : State :=
  if !targetOn s then s
  else
    let off := s.mgt.tgtOff
    let data := if targetReads off then regBytes s off else leBytes 4 0xFFFFFFFF
    let s := blockRead 0x11 data s
    { s with mgt := { s.mgt with tgtOff := (off + 4) % 2 ^ 32 } }

/-! ### Software flash operations -/

/-- SPI_READ, PROGRAM, ERASE, DUMP: a write of MIO_SPI_CMD; go starts the operation that op names
(R489); a go while one runs is ignored. -/
def spiWrite (val : Word) (s : State) : State :=
  let s := s.storeReg R.MIO_SPI_CMD val
  if s.flag F.MIO_SPI_STATUS_busy || !bitOf val.toNat 31 then s
  else
    let op := (bits val.toNat 28 3, (s.rd R.MIO_SPI_ADDR).toNat, bits val.toNat 0 8 + 1)
    { s.setFlag F.MIO_SPI_STATUS_busy true with mgt := { s.mgt with spi := some op, spiWait := s.flag F.SEL_STATUS_busy } }

/-- Byte ranges [a, a + n) and [b, b + m) meet. -/
def meets (a n b m : Nat) : Bool := decide (a < b + m ∧ b < a + n)

/-- Bytes that PROGRAM and ERASE may not touch (R489): a Selvedge half, the dump area, the active slot, either slot while a
load is mixed or busy. -/
def protectedRange (s : State) (a n : Nat) : Bool :=
  let loading := s.flag F.DFT_STATUS_mixed || s.flag F.DFT_STATUS_busy
  let slotOn (k : Nat) : Bool := loading || (s.flag F.DFT_STATUS_valid && activeSlot s == k)
  meets a n 0x3000000 0x40000 || meets a n 0x3100000 0x810000
    || ((upTo 2).any fun k => slotOn k && meets a n (slotBase k) 0x1800000)

/-- The result of an operation before it runs: 1 PROTECTED, 2 BAD_ARG, 4 NO_FLASH, 0 when it runs (MIO_SPI_STATUS). -/
def spiCheck (s : State) (op a n : Nat) : Nat :=
  let size := 2 ^ s.fld F.MIO_SPI_STATUS_size_log
  if 4 ≤ op then 2
  else if s.fld F.MIO_SPI_STATUS_size_log = 0 then 4
  else match op with
    | 0 => if size < a + n then 2 else 0
    | 1 => if protectedRange s a n then 1 else if size < a + n ∨ 256 < a % 256 + n then 2 else 0
    | 2 =>
      if protectedRange s (a / 65536 * 65536) 65536 then 1 else if size < a + 65536 ∨ a % 65536 ≠ 0 then 2 else 0
    | _ => if s.flag F.FLT_CAP_CTL_held then 0 else 2

/-- The effect of an operation that ran: NOR programming clears bits. -/
def spiPerform (op a n : Nat) (s : State) : State :=
  match op with
  | 0 => putBuf (R.MIO_SPI_BUF 0) (readBytes s.flashByte a n) s
  | 1 =>
    let l := (upTo n).map fun i => s.flashByte (a + i) &&& bufByte s (R.MIO_SPI_BUF 0) i
    flashWrite a l s
  | 2 => flashErase a 65536 s
  | _ => dumpCapture s

/-- What an operation that failed leaves: bytes that the spec does not give. -/
def spiFail (op a n : Nat) (s : State) : State :=
  match op with
  | 0 => s.withFree fun k s => putBuf (R.MIO_SPI_BUF 0) (leBytes n k) s
  | 1 => spoilFlash a n s
  | 2 => spoilFlash a 65536 s
  | _ => spoilFlash 0x3100000 0x810000 s

/-- FLASH_OP_END: the software operation finishes: result, vector 10; one that waits behind a Selvedge write does not yet (R478,
R489). -/
def flashOpEnd (ok : Bool) (s : State) : State :=
  match s.mgt.spi with
  | none => s
  | some (op, a, n) =>
    if s.mgt.spiWait && s.flag F.SEL_STATUS_busy then s
    else
    let code := spiCheck s op a n
    let s := if code ≠ 0 then s else if ok then spiPerform op a n s else spiFail op a n s
    let code := if code = 0 && !ok then 3 else code
    let s := { s with mgt := { s.mgt with spi := none } }
    raiseInt 10 ((s.setFlag F.MIO_SPI_STATUS_busy false).setFld F.MIO_SPI_STATUS_result code)

/-! ### GPIO -/

/-- GPIO_CHANGE: the pins' new levels; a changed input whose ien is 1 sets chg, and vector 11 (MIO_GPIO_INT). -/
def gpioChange (pins : Byte) (s : State) : State :=
  let was := s.fld F.MIO_GPIO_in
  let moved (i : Nat) : Bool :=
    bitOf was i != bitOf pins.toNat i && bitOf (s.fld F.MIO_GPIO_INT_ien) i && !bitOf (s.fld F.MIO_GPIO_dir) i
  let set := (upTo 8).filter moved
  let s := s.setFld F.MIO_GPIO_in pins.toNat
  let s := forEach set (fun i s => s.setFlag ⟨R.MIO_GPIO_INT, i, 1⟩ true) s
  if set.isEmpty then s else raiseInt 11 s

end Sys2Proof.Machine
end

