-- ==== Sys2Proof/Machine/Access.lean ====
section
/-! DEFINITION. Software access through the BAR (R5 to R12, R510 to R516): what a write of each register does, broadcast
windows (R503 to R505, R518). -/

namespace Sys2Proof.Machine

/-! ### Writes of registers with an effect of their own -/

/-- GLB_SHT_MAP: wmax and auto; the weight follows R350. -/
def writeShtMap (L : Nat) (v : Word) (s : State) : State := refreshWeight L (s.storeReg (R.GLB_SHT_MAP L) v)

/-- A write that strict mode blocks is ignored and counted (R354). -/
def strictWrite (off : Nat) (v : Word) (s : State) : State :=
  if s.flag F.GLB_DET_CTL_strict then s.bump F.GLB_DET_BLOCK_CNT_count else s.storeReg off v

/-- FLT_FFC0: clearing valid clears more, unless the captured class is fatal (R452). -/
def writeFfc0 (v : Word) (s : State) : State :=
  if bitOf v.toNat 31 && s.fld F.FLT_FFC0_class != 2 then
    (s.setFlag F.FLT_FFC0_valid false).setFlag F.FLT_FFC0_more false
  else s

/-- MIO_GPIO: the bits of pins that the Deckle owns keep their values. -/
def writeGpio (v : Word) (s : State) : State :=
  let own := BitVec.ofNat 32 (s.fld F.MIO_GPIO_own * 257)
  s.storeReg R.MIO_GPIO ((v &&& ~~~ own) ||| (s.rd R.MIO_GPIO &&& own))

/-- GLB registers. -/
def writeGlb (off : Nat) (v : Word) (s : State) : State :=
  if off = R.GLB_GRP_ABORT then abortGroup v s
  else if off = R.GLB_SHT_MIG then migrate v s
  else if off = R.GLB_SHT_RW_CFG then refreshWeights (s.storeReg off v)
  else if 0x40000 ≤ off ∧ off < 0x80000 then strictWrite off v s
  else match idxOf off 0x4000 4 512 0 with
    | some L => writeShtMap L v s
    | none => s.storeReg off v

/-- AON registers. -/
def writeAon (off : Nat) (v : Word) (s : State) : State :=
  if off = R.AON_LC_CTL then lifeCycle v s
  else if R.AON_LC_HASH 0 ≤ off ∧ off < R.AON_LC_HASH 12 then (if lcState s = 0 then s.storeReg off v else s)
  else s.storeReg off v

/-- FLT registers. -/
def writeFlt (off : Nat) (v : Word) (s : State) : State :=
  if off = R.FLT_PIN_CTL then faultRelease v s
  else if off = R.FLT_FFC0 then writeFfc0 v s
  else if off = R.FLT_CTX_RST then contextReset v s
  else if off = R.FLT_CAP_CTL then captureRelease v s
  else if off = R.FLT_DIE_RST then dieReset v s
  else if off = R.FLT_WARM_RST then warmReset (some (v.setWidth 8)) s
  else s.storeReg off v

/-- PWR registers. -/
def writePwr (off : Nat) (v : Word) (s : State) : State :=
  if off = R.PWR_CTL then orderlyDown v s
  else if off = R.PWR_PHASE_SEL then phaseSelect v s
  else if off = R.PWR_LIMITS then
    let s := s.storeReg off v
    if s.pwr.extLow then setExt true s else s
  else if off = R.PWR_ALERT_EN then watchAlert (State.storeReg off v) s
  else match idxOf off (R.PWR_DIE_CTL 0) 4 4 0, idxOf off (R.PWR_PHASE 0) 4 16 0 with
    | some d, _ => writeDieCtl d v s
    | none, some _ => withLevels (State.storeReg off v) s
    | none, none => s.storeReg off v

/-- DFT registers. -/
def writeDft (off : Nat) (v : Word) (s : State) : State :=
  if off = R.DFT_LOAD then draftLoad v s
  else if off = R.DFT_PORT_RST then portResetWrite v s
  else if off = R.DFT_SHT_RST then shuttleResetWrite v s
  else s.storeReg off v

/-- MIO registers, the MSI-X table and PBA. -/
def writeMio (off : Nat) (v : Word) (s : State) : State :=
  if off = R.MIO_SPI_CMD then spiWrite v s
  else if off = R.MIO_GPIO then writeGpio v s
  else match idxOf off (R.MIO_I2C_CFG 0) 0x100 2 0, idxOf off (R.MIO_I2C_CFG 0) 0x100 2 4, idxOf off 0x700000 0x10 64 12 with
    | some n, _, _ =>
      let s := s.storeReg off v
      if bitOf v.toNat 30 then setCheckDue n true s else s
    | none, some n, _ => i2cTransfer n v s
    | none, none, some k => unmaskMsix k (s.storeReg off v)
    | none, none, none => s.storeReg off v

/-- PRT_TRD_CFG: unlock_act takes effect when an open shed ends (R225). -/
def writeTrdCfg (p : Nat) (v : Word) (s : State) : State :=
  if (s.psch p).openShed.isSome then s.onPsch p fun r => { r with unlockPend := some (bitOf v.toNat 30) }
  else s.storeReg (R.PRT_TRD_CFG p) v

/-- PRT_Q_CFG: shp_en = 0 takes the queue off the calender; switched on, a queue with negative tokens goes on it (R229,
R231). -/
def writeQCfg (p q : Nat) (v : Word) (s : State) : State :=
  let was := s.flag (F.PRT_Q_CFG_shp_en p q)
  let s := s.storeReg (R.PRT_Q_CFG p q) v
  let k := p * 8 + q
  if !s.flag (F.PRT_Q_CFG_shp_en p q) then s.onQsch k fun r => { r with cal := none }
  else if !was && portOn s p && !(s.eqQ k).isEmpty then recheckShaper k s
  else s

/-- A register of port `p`'s block, at offset `o` in it; a block without an enabled port has no effects (R513). -/
def writePrt (p o : Nat) (v : Word) (s : State) : State :=
  let off := 0x800000 + p * 0x1000 + o
  if o = 0x008 then
    let s := s.storeReg off v
    if bitOf v.toNat 31 && portOn s p then widthPropose p (bitOf v.toNat 30) (bits v.toNat 0 8) s else s
  else if o = 0x140 then (if portOn s p then clearCauses p v s else s)
  else if o = 0x2C0 then writeTrdCfg p v s
  else match idxOf o 0x220 4 8 0 with
    | some q => writeQCfg p q v s
    | none => s.storeReg off v

/-- A register of lane `n`'s block. -/
def writeLne (n o : Nat) (v : Word) (s : State) : State :=
  if o = 0 then (if bitOf v.toNat 31 then retrainLane n s else s)
  else if o = 0x20 then marginScan n v s
  else if o = 8 then endOverride n (s.storeReg (R.LNE_EQ n) v)
  else s.storeReg (0xA00000 + n * 0x400 + o) v

/-- A register of physical shuttle `p`'s block. -/
def writeSht (p o : Nat) (v : Word) (s : State) : State :=
  let s := s.storeReg (0x1000000 + p * 0x2000 + o) v
  if o = 0 then
    let s := if bitOf v.toNat 29 then unloadSht p s else s
    if bitOf v.toNat 28 then wakeSht p s else s
  else if o = 0x20 then (if bitOf v.toNat 0 then pushSoft p s else s)
  else s

/-- RTE registers. -/
def writeRte (off : Nat) (v : Word) (s : State) : State :=
  if (routeKey off).isSome then routeWrite32 off v s
  else
    let s := s.storeReg off v
    if off = R.RTE_DISC_CTL then
      let s := if bitOf v.toNat 0 then discStart s else s
      if bitOf v.toNat 1 then discRestart s else s
    else s

/-- CBF, SCH and SHP registers: a mirror session and a policer start afresh when en goes from 0 to 1 (R201, R236). -/
def writeCbf (off : Nat) (v : Word) (s : State) : State :=
  let was := bitOf (s.rd off).toNat 31
  let s := s.storeReg off v
  let starts := !was && bitOf v.toNat 31
  match idxOf off 0x2840000 0x10 16 0, idxOf off 0x28C0000 0x20 8192 0 with
  | some m, _ =>
    if starts then { s with core := { s.core with mirCnt := Sparse.put (fun _ => 0) s.core.mirCnt m 0 } } else s
  | none, some i => if starts then fillPolicer i s else s
  | none, none => s

/-- SEL registers. -/
def writeSel (off : Nat) (v : Word) (s : State) : State :=
  if off = R.SEL_CTL then selFlush v s
  else if off = R.WMK_TRC_CFG then traceRingWrite v s
  else match idxOf off 0x3600000 0x20 16384 12 with
    | some g => if bitOf v.toNat 0 then snapWatermark g s else s
    | none => s.storeReg off v

/-- A 32-bit write to the register at `off`, broadcast windows apart (R6 to R9, R27, R510, R512). -/
def writeOne (off : Nat) (v : Word) (s : State) : State :=
  if heldReg s off then s
  else if off < 0x100000 then writeGlb off v s
  else if off < 0x200000 then writeAon off v s
  else if off < 0x300000 then writeFlt off v s
  else if off < 0x400000 then writePwr off v s
  else if off < 0x500000 then writeDft off v s
  else if off < 0x800000 then writeMio off v s
  else if off < 0xA00000 then writePrt ((off - 0x800000) / 0x1000) (off % 0x1000) v s
  else if off < 0xA80000 then writeLne ((off - 0xA00000) / 0x400) (off % 0x400) v s
  else if 0x1000000 ≤ off ∧ off < 0x1440000 then writeSht ((off - 0x1000000) / 0x2000) (off % 0x2000) v s
  else if 0x2000000 ≤ off ∧ off < 0x2100000 then
    (if off % 0x40 = 0 then groupCommit ((off - 0x2000000) / 0x40) v s else s.storeReg off v)
  else if 0x2200000 ≤ off ∧ off < 0x2300000 ∧ off % 0x100 = 0x60 then strictWrite off v s
  else if 0x2400000 ≤ off ∧ off < 0x2800000 then writeRte off v s
  else if 0x2800000 ≤ off ∧ off < 0x3000000 then writeCbf off v s
  else if 0x3000000 ≤ off then writeSel off v s
  else s.storeReg off v

/-! ### Broadcast windows -/

/-- A broadcast window: where its instances start, their stride and number, its selector, status and group registers, the
words of a group. -/
structure Bcw where
  base : Nat
  stride : Nat
  count : Nat
  sel : Nat
  status : Nat
  grp : Nat → Nat → Nat
  per : Nat

/-- The port window. -/
def bcwPort : Bcw := ⟨0x800000, 0x1000, 512, R.BCW_PRT_SEL, R.BCW_PRT_STATUS, R.BCW_PRT_GRP, 128⟩
/-- The lane window. -/
def bcwLane : Bcw := ⟨0xA00000, 0x400, 512, R.BCW_LNE_SEL, R.BCW_LNE_STATUS, R.BCW_LNE_GRP, 128⟩
/-- The shuttle window. -/
def bcwSht : Bcw := ⟨0x1000000, 0x2000, 544, R.BCW_SHT_SEL, R.BCW_SHT_STATUS, R.BCW_SHT_GRP, 136⟩

/-- The window that a BAR offset lies in, and the offset in the mirrored block (Table 15-12). -/
def windowOf (off : Nat) : Option (Bcw × Nat) :=
  if 0xB00000 ≤ off ∧ off < 0xB01000 then some (bcwPort, off - 0xB00000)
  else if 0xB01000 ≤ off ∧ off < 0xB01400 then some (bcwLane, off - 0xB01000)
  else if 0x1800000 ≤ off ∧ off < 0x1802000 then some (bcwSht, off - 0x1800000)
  else none

/-- The instances that a window's selector selects, ascending (R503). -/
def selected (w : Bcw) (s : State) : List Nat :=
  let v := (s.rd w.sel).toNat
  let kind := bits v 30 2
  let k := bits v 0 5
  (upTo w.count).filter fun i =>
    !inReset s (i / w.per) && (w.stride != 0x1000 || portOn s i)
      && (if kind = 0 then true
          else if kind = 1 then i / w.per == k
          else if kind = 2 then w.per == 128 && i / 64 == k
          else bitOf (s.rd (w.grp k (i / 32))).toNat (i % 32))

/-- The status after an access: how many instances were selected. -/
def showSelected (w : Bcw) (l : List Nat) (s : State) : State :=
  (s.setFlag ⟨w.status, 30, 1⟩ l.isEmpty).setFld ⟨w.status, 0, 10⟩ l.length

/-- A 32-bit write to offset X of a window goes to offset X of every selected instance (R504, R518). -/
def windowWrite (off : Nat) (v : Word) (s : State) : State :=
  match windowOf off with
  | none => s
  | some (w, x) =>
    let l := selected w s
    forEach l (fun i s => writeOne (w.base + i * w.stride + x) v s) (showSelected w l s)

/-- What a 32-bit read at a window offset answers, and what it leaves: the value of the lowest selected instance, 0 with
none selected; an instance with another value sets mismatch and diff (R505). -/
def windowRead (off : Nat) (s : State) : Word × State :=
  match windowOf off with
  | none => (0, s)
  | some (w, x) =>
    let l := selected w s
    let val (i : Nat) : Word := regValue s (w.base + i * w.stride + x)
    let s' := showSelected w l s
    match l with
    | [] => (0, s')
    | i :: rest =>
      (val i, match rest.find? fun j => val j != val i with
        | some j => (s'.setFlag ⟨w.status, 31, 1⟩ true).setFld ⟨w.status, 16, 10⟩ j
        | none => s')

/-- BROADCAST_WRITE: a 32-bit write through a window; an unaligned one ends with Unsupported Request (R5, R504). -/
def broadcastWrite (off : Nat) (v : Word) (s : State) : State :=
  if off % 4 = 0 ∧ s.mgt.cfg.d3hot = false then windowWrite off v s else s.emit (.unsupported off)

/-- BROADCAST_READ: a 32-bit read through a window; an unaligned one ends with Unsupported Request (R5, R505). -/
def broadcastRead (off : Nat) (s : State) : State :=
  if off % 4 = 0 ∧ s.mgt.cfg.d3hot = false then (windowRead off s).2.emit (.readData off 4 ((windowRead off s).1.setWidth 64))
  else s.emit (.unsupported off)

/-- A 64-bit read through a window: both halves in one completion (R5, R505). -/
def broadcastRead64 (off : Nat) (s : State) : State :=
  let lo := windowRead off s
  let hi := windowRead (off + 4) lo.2
  hi.2.emit (.readData off 8 (hi.1 ++ lo.1))

/-! ### BAR accesses -/

/-- Notes a BAR write: a Deckle write to the register later in the same cycle counts as the earlier one (R515). -/
def noteBar (off : Nat) (v : Word) (s : State) : State :=
  let old := if s.mgt.barAt = s.now then s.mgt.barNow else []
  { s with mgt := { s.mgt with barAt := s.now, barNow := (off, v) :: old } }

/-- A 32-bit BAR write. -/
def writeReg (off : Nat) (v : Word) (s : State) : State :=
  noteBar off v (if (windowOf off).isSome then windowWrite off v s else writeOne off v s)

/-- The bits of a register that a write of 1 clears. -/
def w1cMask (off : Nat) : Word :=
  (regFields off).foldl (fun m f => if f.access == .w1c then m ||| fieldMask f.lo f.width else m) 0

/-- A W1C bit that hardware sets in the cycle in which software clears it remains set (R10): of the bits `hw`, those that
were 1 in `before` stay 1. The event itself is a command of its own. -/
def keepSet (off : Nat) (hw : Word) (before s : State) : State :=
  let m := hw &&& w1cMask off &&& before.rd off
  if m = 0 then s else s.wr off (s.rd off ||| m)

/-- An interrupt source that sets its bit in the cycle in which software clears it: the function sends its message again (R478). -/
def sendAgain (off : Nat) (v hw : Word) (before s : State) : State :=
  if off = R.MIO_INT_STATUS then
    let again := (upTo 14).filter fun k =>
      v.getLsbD k && hw.getLsbD k && (before.rd off).getLsbD k && before.flag ⟨R.MIO_INT_EN, k, 1⟩
    forEach again sendMsix s
  else s

/-- A 32-bit BAR write with the W1C bits `hw` that hardware sets in its cycle (R10). -/
def writeKeeping (off : Nat) (v hw : Word) (s : State) : State :=
  sendAgain off v hw s (keepSet off hw s (writeReg off v s))

/-- REGISTER_WRITE: 32-bit and 64-bit writes, aligned; a 64-bit routing entry changes at once; any other access ends with
Unsupported Request (R5, R166), and so does every one in D3hot (R475). The W1C bits `hw` that hardware sets in that cycle stay set
(R10). -/
def registerWrite (off size : Nat) (v hw : BitVec 64) (s : State) : State :=
  if s.mgt.cfg.d3hot then s.emit (.unsupported off)
  else if size = 4 ∧ off % 4 = 0 then writeKeeping off (lo32 v) (lo32 hw) s
  else if size = 8 ∧ off % 8 = 0 then
    if (routeKey off).isSome then routeWrite off size v s
    else writeKeeping (off + 4) (hi32 v) (hi32 hw) (writeKeeping off (lo32 v) (lo32 hw) s)
  else s.emit (.unsupported off)

/-- READ_CLEAR: a BAR read; RC fields return their value and clear, a same-cycle event staying counted (R5, R6, R11); in D3hot
every access ends with Unsupported Request (R475). -/
def readClear (off size : Nat) (events : BitVec 64) (s : State) : State :=
  if s.mgt.cfg.d3hot then s.emit (.unsupported off)
  else if size = 4 ∧ off % 4 = 0 then
    if (windowOf off).isSome then broadcastRead off s else readReg32 off (lo32 events) s
  else if size = 8 ∧ off % 8 = 0 then
    if (windowOf off).isSome then broadcastRead64 off s else readReg64 off events s
  else s.emit (.unsupported off)

/-- LATCHING_READ: a 32-bit read of a LO register captures its HI half for the next read of HI (R516). -/
def latchingRead (off : Nat) (s : State) : State := readClear off 4 0 s

end Sys2Proof.Machine
end

