-- ==== Sys2Proof/Machine/Effect.lean ====
section
/-! DEFINITION. How a command answers: with the next state. It takes no time, leaves the queue of waiting commands alone
and, but for the life cycle and power-on reset, the fuses. -/

namespace Sys2Proof.Machine

/-- State `t` with the queue, the time and the fuses of `s`. -/
def kept (s t : State) : State := { t with pending := s.pending, now := s.now, fuses := s.fuses }

/-- The next state after effect `f`: the queue, the time and the fuses stay. -/
def effect (f : State → State) (s : State) : Host.Outcome State Fault Refusal := .next (kept s (f s))

/-- The next state after an effect that may change the fuses (R507, R508). -/
def effectFused (f : State → State) (s : State) : Host.Outcome State Fault Refusal :=
  .next { f s with pending := s.pending, now := s.now }

/-- An effect on packets, trackers or windows, with what follows from it at once. -/
def settled (f : State → State) (s : State) : State := settle (f s)

/-- An effect inside a weave die: none while the die is held in reset (R27). -/
def whenUp (d : Nat) (f : State → State) (s : State) : State := if inReset s d then s else f s

/-- An effect inside a weave die that its own clock drives: none in die reset or in die standby either (R404, R438). -/
def whenRuns (d : Nat) (f : State → State) (s : State) : State := if inReset s d || inStandby s d then s else f s

end Sys2Proof.Machine
end

