-- ==== Sys2Proof/Machine/ExecAccess.lean ====
section
/-! DEFINITION. The commands of the BAR (R5 to R12, R504, R505, R516). One meaning per command. -/

namespace Sys2Proof.Machine

/-- A BAR write that reaches AON_LC_CTL. -/
def reachesLc (off size : Nat) : Bool :=
  (size == 4 && off == R.AON_LC_CTL) || (size == 8 && off + 4 == R.AON_LC_CTL)

/-- REGISTER_WRITE: a BAR write (R5 to R9); only one that reaches AON_LC_CTL can ask for new fuses (R507). -/
def execRegisterWrite (off : BitVec 26) (size : Nat) (val : BarWrite) (s : State) : Host.Outcome State Fault Refusal :=
  if reachesLc off.toNat size then effectFused (registerWrite off.toNat size val.data val.hw) s
  else effect (settled (registerWrite off.toNat size val.data val.hw)) s

/-- READ_CLEAR: a BAR read; RC fields return their value and clear (R5, R6, R11). -/
def execReadClear (off : BitVec 26) (size : Nat) (events : BitVec 64) (s : State) : Host.Outcome State Fault Refusal :=
  effect (readClear off.toNat size events) s

/-- LATCHING_READ: a 32-bit read of the LO register of a latching pair captures the HI half (R516). -/
def execLatchingRead (off : BitVec 26) (s : State) : Host.Outcome State Fault Refusal :=
  effect (latchingRead off.toNat) s

/-- BROADCAST_WRITE: a write through a broadcast window reaches every selected instance (R504). -/
def execBroadcastWrite (off : BitVec 26) (val : Word) (s : State) : Host.Outcome State Fault Refusal :=
  effect (settled (broadcastWrite off.toNat val)) s

/-- BROADCAST_READ: the lowest selected instance answers; differing instances are recorded (R505). -/
def execBroadcastRead (off : BitVec 26) (s : State) : Host.Outcome State Fault Refusal :=
  effect (broadcastRead off.toNat) s

end Sys2Proof.Machine
end

