-- ==== Sys2Proof/Machine/ExecFabric.lean ====
section
/-! DEFINITION. The fabric operations and what their tables and timers do (files 02 and 03). One meaning per command. -/

namespace Sys2Proof.Machine

/-- LOAD: checked at the leaf, given a fabric tag and forwarded, or performed in the switch window (R41, R546, R547). -/
def execLoad (port : Fin 512) (p : Packet) (s : State) : Host.Outcome State Fault Refusal :=
  effect (arrive port.val (.data { p with op := .load })) s

/-- STORE: checked, forwarded, or written in the switch window (R41, R546, R547). -/
def execStore (port : Fin 512) (p : Packet) (s : State) : Host.Outcome State Fault Refusal :=
  effect (arrive port.val (.data { p with op := .store })) s

/-- FADD: a fetch-and-add; the old value returns (R42, R546, R547). -/
def execFadd (port : Fin 512) (p : Packet) (s : State) : Host.Outcome State Fault Refusal :=
  effect (arrive port.val (.data { p with op := .fadd })) s

/-- SWAP: the new value is written and the old one returns (R42, R546, R547). -/
def execSwap (port : Fin 512) (p : Packet) (s : State) : Host.Outcome State Fault Refusal :=
  effect (arrive port.val (.data { p with op := .swap })) s

/-- CAS: compared, and swapped when equal; the old value returns (R42, R546, R547). -/
def execCas (port : Fin 512) (p : Packet) (s : State) : Host.Outcome State Fault Refusal :=
  effect (arrive port.val (.data { p with op := .cas })) s

/-- ACC: a contribution, checked at the leaf and passed to its tracker, or rejected with a PCPL (R546, R551). -/
def execAcc (port : Fin 512) (p : Packet) (s : State) : Host.Outcome State Fault Refusal :=
  effect (arrive port.val (.data { p with op := .acc })) s

/-- RD_S: a coherent read-shared request (R84). -/
def execRdS (port : Fin 512) (p : Packet) (s : State) : Host.Outcome State Fault Refusal :=
  effect (arrive port.val (.data { p with op := .rdS })) s

/-- RD_M: a coherent read for ownership (R84). -/
def execRdM (port : Fin 512) (p : Packet) (s : State) : Host.Outcome State Fault Refusal :=
  effect (arrive port.val (.data { p with op := .rdM })) s

/-- UPG: a coherent upgrade (R84). -/
def execUpg (port : Fin 512) (p : Packet) (s : State) : Host.Outcome State Fault Refusal :=
  effect (arrive port.val (.data { p with op := .upg })) s

/-- WB: a coherent writeback (R84). -/
def execWb (port : Fin 512) (p : Packet) (s : State) : Host.Outcome State Fault Refusal :=
  effect (arrive port.val (.data { p with op := .wb })) s

/-- INV: an INV, forwarded, or taken with a fan-out record when it names this switch (R548). -/
def execInv (port : Fin 512) (p : Packet) (s : State) : Host.Outcome State Fault Refusal :=
  effect (arrive port.val (.data { p with op := .inv })) s

/-- CPL: a completion, matched at its leaf, taken by the directory or a fan-out record, forwarded, or discarded as late (R66). -/
def execCpl (port : Fin 512) (p : Packet) (s : State) : Host.Outcome State Fault Refusal :=
  effect (arrive port.val (.data { p with op := .cpl })) s

/-- SACC: a short contribution, checked as an ACC and passed to its tracker (R103, R551). -/
def execSacc (port : Fin 512) (c : Ctl) (s : State) : Host.Outcome State Fault Refusal :=
  effect (arrive port.val (.ctl { c with ckind := 1 })) s

/-- FANOUT_ADMIT: an INV that waits takes the fan-out record that has freed (R548). -/
def execFanoutAdmit (s : State) : Host.Outcome State Fault Refusal := effect (settled fanAdmit) s

/-- FANOUT_EXPIRE: a fan-out record frees 2 × T after it was taken (R548). -/
def execFanoutExpire (r : Fin 4096) (s : State) : Host.Outcome State Fault Refusal := effect (fanExpire r.val) s

/-- EXPIRE: a directory entry's timer expires in a transient state (R84). -/
def execExpire (line : Fin 65536) (s : State) : Host.Outcome State Fault Refusal :=
  effect (settled (dirExpire line.val)) s

/-- WAIT_LIST_HEAD: the directory takes the due head of a line's wait list (R81). -/
def execWaitListHead (line : Fin 65536) (s : State) : Host.Outcome State Fault Refusal :=
  effect (settled (waitListHead line.val)) s

/-- TIMEOUT: an outstanding-request entry expires; its endpoint gets TIMEOUT and the entry is quarantined (R63). -/
def execTimeout (e : Fin 131072) (s : State) : Host.Outcome State Fault Refusal :=
  effect (settled (ortTimeout e.val)) s

/-- QUARANTINE_END: a quarantined entry becomes free (R65, R68). -/
def execQuarantineEnd (e : Fin 131072) (s : State) : Host.Outcome State Fault Refusal :=
  effect (quarantineDone e.val) s

/-- STALE_EXPIRE: a stale generation mark ends (R68). -/
def execStaleExpire (e : Fin 131072) (gen : BitVec 4) (s : State) : Host.Outcome State Fault Refusal :=
  effect (staleDone e.val gen.toNat) s

/-- WAIT_DISCARD: a copy that has waited too long is discarded (R69). -/
def execWaitDiscard (port : Fin 512) (q : Fin 8) (i : Nat) (s : State) : Host.Outcome State Fault Refusal :=
  effect (settled (waitDiscard port.val q.val i)) s

end Sys2Proof.Machine
end

