-- ==== Sys2Proof/Machine/ExecFaults.lean ====
section
/-! DEFINITION. Faults and resets (file 13). One meaning per command. -/

namespace Sys2Proof.Machine

/-- FAULT_N_MINIMUM_END: the 10 µs minimum of FAULT_N ends (R457). -/
def execFaultNMinimumEnd (s : State) : Host.Outcome State Fault Refusal := effect faultMinEnd s

/-- FAULT_N_RELEASE: a write of FLT_PIN_CTL (R457). -/
def execFaultNRelease (val : Word) (s : State) : Host.Outcome State Fault Refusal := effect (faultRelease val) s

/-- D2D_CHANNEL_FAIL: a die-to-die channel is declared failed (R445). -/
def execD2dChannelFail (src dst : Fin 4) (ch : Fin 34) (s : State) : Host.Outcome State Fault Refusal :=
  effect (settled (channelFail src.val dst.val ch.val)) s

/-- REG_TMO: a BAR access unanswered for 4 µs (R448). -/
def execRegTmo (off : BitVec 26) (write : Bool) (s : State) : Host.Outcome State Fault Refusal :=
  effect (regTimeout off.toNat write) s

/-- WATCHDOG_EXPIRY: the Deckle watchdog expires (R449). -/
def execWatchdogExpiry (s : State) : Host.Outcome State Fault Refusal := effect watchdog s

/-- CONTEXT_RESET: a write of FLT_CTX_RST; go removes a context (R460). -/
def execContextReset (val : Word) (s : State) : Host.Outcome State Fault Refusal :=
  effect (settled (contextReset val)) s

/-- CTX_RESET_TMO: a context reset is still busy at 2 ms (R464). -/
def execCtxResetTmo (s : State) : Host.Outcome State Fault Refusal := effect (settled ctxResetTmo) s

/-- CONTEXT_RESET_DONE: the gate opens; result and a waiting panel (R460). -/
def execContextResetDone (s : State) : Host.Outcome State Fault Refusal := effect (settled contextResetDone) s

/-- CAPTURE_RELEASE: a write of FLT_CAP_CTL frees the capture buffer (R466). -/
def execCaptureRelease (val : Word) (s : State) : Host.Outcome State Fault Refusal := effect (captureRelease val) s

/-- DIE_RESET: a write of FLT_DIE_RST; go resets a die (R468). -/
def execDieReset (val : Word) (s : State) : Host.Outcome State Fault Refusal := effect (settled (dieReset val)) s

/-- DIE_RESET_DONE: a die reset reaches step 8 (R468). -/
def execDieResetDone (die : Fin 4) (s : State) : Host.Outcome State Fault Refusal := effect (dieResetDone die.val) s

/-- WARM_RESET: the rise of RST_N, or a key write to FLT_WARM_RST (R470). -/
def execWarmReset (key : Option Byte) (s : State) : Host.Outcome State Fault Refusal := effect (warmReset key) s

/-- WARM_RESET_DONE: the warm-reset sequence completes; ready (R470). -/
def execWarmResetDone (s : State) : Host.Outcome State Fault Refusal := effect warmDone s

/-- POWER_ON_RESET: POR_N goes low or power fails (R528). -/
def execPowerOnReset (s : State) : Host.Outcome State Fault Refusal := effectFused powerOnReset s

/-- SELVEDGE_FLUSH: a write of SEL_CTL; flush writes the record (R472). -/
def execSelvedgeFlush (val : Word) (s : State) : Host.Outcome State Fault Refusal := effect (selFlush val) s

/-- SELVEDGE_HOURLY: the record is written each hour (R472). -/
def execSelvedgeHourly (s : State) : Host.Outcome State Fault Refusal := effect startSelWrite s

/-- SELVEDGE_WRITE_DONE: a flash write of the record ends (R472). -/
def execSelvedgeWriteDone (ok : Bool) (s : State) : Host.Outcome State Fault Refusal := effect (selWriteDone ok) s

end Sys2Proof.Machine
end

