-- ==== Sys2Proof/Machine/ExecGroups.lean ====
section
/-! DEFINITION. Collective groups, their trackers and watermarks (files 07 and 10). One meaning per command. -/

namespace Sys2Proof.Machine

/-- GROUP_COMMIT: a write of GRP_ENTRY_CTL; commit = 1 checks and makes a version (R243). -/
def execGroupCommit (g : Fin 16384) (val : Word) (s : State) : Host.Outcome State Fault Refusal :=
  effect (settled (groupCommit g.val val)) s

/-- GROUP_VERSION_RETIRE: a retiring version has nothing in flight; a pending commit applies (R271). -/
def execGroupVersionRetire (g : Fin 16384) (s : State) : Host.Outcome State Fault Refusal :=
  effect (settled (groupRetire g.val)) s

/-- IN: input i in transit reaches its tracker (R264). -/
def execInEvent (i : Nat) (s : State) : Host.Outcome State Fault Refusal := effect (settled (inArrive i)) s

/-- RES: a result packet arrives and becomes result stores (R264). -/
def execRes (port : Fin 512) (p : Pkt) (s : State) : Host.Outcome State Fault Refusal := effect (arrive port.val p) s

/-- SENT: a tracker's last outgoing packet is enqueued; its sheets return (R264). -/
def execSent (t : Fin 16384) (s : State) : Host.Outcome State Fault Refusal := effect (settled (sentTrk t.val)) s

/-- TMO: a pick timer expires (R263). -/
def execTmo (t : Fin 16384) (s : State) : Host.Outcome State Fault Refusal := effect (settled (trkTimeout t.val)) s

/-- ABORT: a write of GLB_GRP_ABORT; go ends a pick, or all open picks of a group (R274). -/
def execAbort (val : Word) (s : State) : Host.Outcome State Fault Refusal := effect (settled (abortGroup val)) s

/-- ABORT_DONE: a group abort finishes; result, count and vector 5 (R274). -/
def execAbortDone (s : State) : Host.Outcome State Fault Refusal := effect (settled abortFinish) s

/-- STRAGGLER: the lag of a member has stayed above its limit (R273). -/
def execStraggler (g : Fin 16384) (slot : Fin 131072) (s : State) : Host.Outcome State Fault Refusal :=
  effect (stragglerAt g.val slot.val) s

/-- HOME_TAB_REBUILD: the home table is rebuilt after a weight change (R259). -/
def execHomeTabRebuild (s : State) : Host.Outcome State Fault Refusal := effect homeRebuild s

/-- SNAP: the live watermark of a group is copied and cleared (R362). -/
def execSnap (g : Fin 16384) (s : State) : Host.Outcome State Fault Refusal := effect (snapWatermark g.val) s

/-- TRACE_RING_ENABLE: a write of WMK_TRC_CFG; en from 0 to 1 empties the ring (R365). -/
def execTraceRingEnable (val : Word) (s : State) : Host.Outcome State Fault Refusal := effect (traceRingWrite val) s

end Sys2Proof.Machine
end

