-- ==== Sys2Proof/Machine/ExecLanes.lean ====
section
/-! DEFINITION. Lanes (file 11), lane clocks, and the histogram of corrected symbols. One meaning per command. -/

namespace Sys2Proof.Machine

/-- TRAINING_FRAME: a training frame arrives (R379). -/
def execTrainingFrame (lane : Fin 512) (cdr : Bool) (block : BitVec 128) (s : State) : Host.Outcome State Fault Refusal :=
  effect (settled (trainingFrame lane.val cdr block)) s

/-- FLL: frame lock is lost; back to DETECT (R380). -/
def execFll (lane : Fin 512) (s : State) : Host.Outcome State Fault Refusal := effect (settled (frameLoss lane.val)) s

/-- AD: the adaptation of a receiver converges (R380). -/
def execAd (lane : Fin 512) (s : State) : Host.Outcome State Fault Refusal := effect (adapted lane.val) s

/-- JOIN: a port joins its trained lanes (R382). -/
def execJoin (port : Fin 512) (s : State) : Host.Outcome State Fault Refusal := effect (settled (joinPort port.val)) s

/-- CWLOSS: a lane loses codeword lock (R384). -/
def execCwloss (lane : Fin 512) (s : State) : Host.Outcome State Fault Refusal := effect (settled (cwLoss lane.val)) s

/-- RT: a lane retrains (R380). -/
def execRt (lane : Fin 512) (s : State) : Host.Outcome State Fault Refusal :=
  effect (settled (whenUp (lane.val / 128) (retrainLane lane.val))) s

/-- TTMO: 40 ms in DETECT or ADAPT (R380). -/
def execTtmo (lane : Fin 512) (signal : Bool) (s : State) : Host.Outcome State Fault Refusal :=
  effect (settled (trainTimeout lane.val signal)) s

/-- EI_ENTRY: a quiet transmitter enters electrical idle (R385). -/
def execEiEntry (port : Fin 512) (s : State) : Host.Outcome State Fault Refusal := effect (settled (eiEntry port.val)) s

/-- EI_ENTER: the peer announces electrical idle (R386). -/
def execEiEnter (port : Fin 512) (c : Ctl) (s : State) : Host.Outcome State Fault Refusal :=
  effect (arrive port.val (.ctl { c with ckind := 0x12, ks := 4#4 ++ c.ks.setWidth 12 })) s

/-- EI_EXIT: a transmitter in electrical idle resumes (R387). -/
def execEiExit (port : Fin 512) (s : State) : Host.Outcome State Fault Refusal := effect (settled (eiExit port.val)) s

/-- EI_EXIT_FAIL: no codeword within 1 µs; LOSS (R388). -/
def execEiExitFail (port : Fin 512) (s : State) : Host.Outcome State Fault Refusal :=
  effect (settled (eiExitFail port.val)) s

/-- RECEIVE_ELECTRICAL_IDLE: an armed receive direction goes idle (R386). -/
def execReceiveElectricalIdle (port : Fin 512) (s : State) : Host.Outcome State Fault Refusal :=
  effect (settled (receiveIdle port.val)) s

/-- WIDTH_PROPOSE: a width-change proposal goes (R393). -/
def execWidthPropose (port : Fin 512) (kind : Bool) (mask : BitVec 8) (s : State) : Host.Outcome State Fault Refusal :=
  effect (settled (whenUp (portDie port.val) (widthPropose port.val kind mask.toNat))) s

/-- PROP: a width-change proposal arrives (R394). -/
def execProp (port : Fin 512) (c : Ctl) (s : State) : Host.Outcome State Fault Refusal :=
  effect (arrive port.val (.ctl { c with ckind := 0x12, ks := 1#4 ++ c.ks.setWidth 12 })) s

/-- ACK: the answer to a proposal arrives (R396). -/
def execAck (port : Fin 512) (c : Ctl) (s : State) : Host.Outcome State Fault Refusal :=
  effect (arrive port.val (.ctl { c with ckind := 0x12, ks := 2#4 ++ c.ks.setWidth 12 })) s

/-- GO: the receive direction switches to the new active set (R396). -/
def execGo (port : Fin 512) (c : Ctl) (s : State) : Host.Outcome State Fault Refusal :=
  effect (arrive port.val (.ctl { c with ckind := 0x12, ks := 3#4 ++ c.ks.setWidth 12 })) s

/-- LAPSE: a proposal has had no ACK for 100 µs (R393). -/
def execLapse (port : Fin 512) (s : State) : Host.Outcome State Fault Refusal := effect (settled (lapse port.val)) s

/-- PROPOSAL_RETRY: a withdrawn proposal goes again after its back-off (R395). -/
def execProposalRetry (port : Fin 512) (s : State) : Host.Outcome State Fault Refusal :=
  effect (settled (proposalRetry port.val)) s

/-- REMOVAL_INTERVAL: 1 ms of a lane's error counts (R397). -/
def execRemovalInterval (lane : Fin 512) (corrected uncorrectable prbsErrors : Nat) (s : State) : Host.Outcome State Fault Refusal :=
  effect (settled (removalInterval lane.val corrected uncorrectable prbsErrors)) s

/-- MARGIN_SCAN: a write of LNE_MARGIN_CTL; go starts a scan (R400). -/
def execMarginScan (lane : Fin 512) (val : Word) (s : State) : Host.Outcome State Fault Refusal :=
  effect (whenUp (lane.val / 128) (marginScan lane.val val)) s

/-- MARGIN_SCAN_END: a margin scan ends and its result shows (R401). -/
def execMarginScanEnd (lane : Fin 512) (neg pos : BitVec 7) (s : State) : Host.Outcome State Fault Refusal :=
  effect (whenUp (lane.val / 128) (marginScanEnd lane.val neg.toNat pos.toNat)) s

/-- LANE_REFCLK_LOSS: a lane reference clock stops (R407). -/
def execLaneRefclkLoss (b : Bool) (s : State) : Host.Outcome State Fault Refusal := effect (settled (laneClkLoss b)) s

/-- LANE_REFCLK_RETURN: a lane reference clock returns; its lanes retrain (R407). -/
def execLaneRefclkReturn (b : Bool) (s : State) : Host.Outcome State Fault Refusal := effect (settled (laneClkReturn b)) s

/-- FEC_HISTOGRAM: a second of an ACTIVE lane's corrected symbols is binned (R473). -/
def execFecHistogram (lane : Fin 512) (corrected : Nat) (s : State) : Host.Outcome State Fault Refusal :=
  effect (fecHistogram lane.val corrected) s

end Sys2Proof.Machine
end

