-- ==== Sys2Proof/Machine/ExecLink.lean ====
section
/-! DEFINITION. The link layer's commands (file 03). One meaning per command. -/

namespace Sys2Proof.Machine

/-- PACKET_RECEIVE: the link units of a counted group arrive (R92, R105, R546). -/
def execPacketReceive (port : Fin 512) (units : List LinkUnit) (s : State) : Host.Outcome State Fault Refusal :=
  effect (packetArrive port.val units) s

/-- LOCK: codeword lock on every lane; DOWN to INIT (R124). -/
def execLock (port : Fin 512) (s : State) : Host.Outcome State Fault Refusal := effect (settled (lock port.val)) s

/-- LOSS: lock is lost; the link goes DOWN (R124). -/
def execLoss (port : Fin 512) (s : State) : Host.Outcome State Fault Refusal := effect (settled (linkLoss port.val)) s

/-- LCU_I: a good link-control unit with init = 1 (R124). -/
def execLcuI (port : Fin 512) (l : Lcu) (s : State) : Host.Outcome State Fault Refusal :=
  effect (settled (lcuOne port.val { l with init := true })) s

/-- LCU_U: a good link-control unit with init = 0 (R124). -/
def execLcuU (port : Fin 512) (l : Lcu) (s : State) : Host.Outcome State Fault Refusal :=
  effect (settled (lcuZero port.val { l with init := false })) s

/-- RPL_GROUP: an uncounted group that tells where a replay resumes (R122). -/
def execRplGroup (port : Fin 512) (l : Lcu) (s : State) : Host.Outcome State Fault Refusal :=
  effect (settled (lcuZero port.val { l with init := false, rpl := true })) s

/-- BADCW: a bad group in UP; a NAK goes, groups are discarded until the replay (R119). -/
def execBadcw (port : Fin 512) (s : State) : Host.Outcome State Fault Refusal := effect (settled (badGroup port.val)) s

/-- RTMO: no acknowledgement for rtmo; the transmitter replays (R121). -/
def execRtmo (port : Fin 512) (s : State) : Host.Outcome State Fault Refusal := effect (settled (rtmo port.val)) s

/-- RLIM: the replay limit is reached; the link goes DOWN and retrains (R124). -/
def execRlim (port : Fin 512) (s : State) : Host.Outcome State Fault Refusal := effect (settled (rlim port.val)) s

/-- ITMO: 1 ms in INIT (R124). -/
def execItmo (port : Fin 512) (s : State) : Host.Outcome State Fault Refusal := effect (settled (itmo port.val)) s

/-- LCU_SEND: the receiver sends a link-control unit (R118). -/
def execLcuSend (port : Fin 512) (s : State) : Host.Outcome State Fault Refusal := effect (settled (lcuSend port.val)) s

end Sys2Proof.Machine
end

