-- ==== Sys2Proof/Machine/ExecLoom.lean ====
section
/-! DEFINITION. Discovery, learning and routing (file 04). One meaning per command. -/

namespace Sys2Proof.Machine

/-- DISC_START: start in RTE_DISC_CTL; pinned or automatic placement begins (R138). -/
def execDiscStart (s : State) : Host.Outcome State Fault Refusal := effect (settled discStart) s

/-- DISC_RESTART: restart in RTE_DISC_CTL; coordinates, unlocked routes and assignments clear (R144). -/
def execDiscRestart (s : State) : Host.Outcome State Fault Refusal := effect (settled discRestart) s

/-- HELLO_SEND: HELLO goes on every UP fabric port at its state's interval (R137). -/
def execHelloSend (s : State) : Host.Outcome State Fault Refusal := effect (settled helloSend) s

/-- HELLO: a HELLO arrives (R138). -/
def execHello (port : Fin 512) (c : Ctl) (s : State) : Host.Outcome State Fault Refusal :=
  effect (arrive port.val (.ctl { c with ckind := 0x10, ks := 1#4 ++ c.ks.setWidth 12 })) s

/-- QUIET: the quiet timer expires; COLLECT as root, or NBR goes and AWAIT (R138). -/
def execQuiet (s : State) : Host.Outcome State Fault Refusal := effect (settled quiet) s

/-- NBR: a part of a neighbour report arrives (R138). -/
def execNbr (port : Fin 512) (c : Ctl) (s : State) : Host.Outcome State Fault Refusal :=
  effect (arrive port.val (.ctl { c with ckind := 0x10, ks := 2#4 ++ c.ks.setWidth 12 })) s

/-- ASSIGN: a placement arrives, for this switch or to relay (R141). -/
def execAssign (port : Fin 512) (c : Ctl) (s : State) : Host.Outcome State Fault Refusal :=
  effect (arrive port.val (.ctl { c with ckind := 0x10, ks := 3#4 ++ c.ks.setWidth 12 })) s

/-- ATMO: the assign timer expires; the root places the loom, a waiting switch joins (R138). -/
def execAtmo (s : State) : Host.Outcome State Fault Refusal := effect (settled atmo) s

/-- EP_HELLO: an endpoint presents its serial (R148). -/
def execEpHello (port : Fin 512) (c : Ctl) (s : State) : Host.Outcome State Fault Refusal :=
  effect (arrive port.val (.ctl { c with ckind := 0x10, ks := 5#4 ++ c.ks.setWidth 12 })) s

/-- LEARN_COMMIT: the learning arbiter of a die commits one learn (R149). -/
def execLearnCommit (die : Fin 4) (s : State) : Host.Outcome State Fault Refusal := effect (settled (learnCommit die.val)) s

/-- WIN: a learn that has not lost for 256 ns wins; EP_ASSIGN goes (R149). -/
def execWin (port : Fin 512) (s : State) : Host.Outcome State Fault Refusal := effect (settled (win port.val)) s

/-- EP_ACK: the endpoint acknowledges; OFFER to ASSIGNED (R148). -/
def execEpAck (port : Fin 512) (c : Ctl) (s : State) : Host.Outcome State Fault Refusal :=
  effect (arrive port.val (.ctl { c with ckind := 0x10, ks := 7#4 ++ c.ks.setWidth 12 })) s

/-- CLR: software clears quarantine causes of a port (R151). -/
def execClr (port : Fin 512) (val : Word) (s : State) : Host.Outcome State Fault Refusal :=
  effect (settled (whenUp (portDie port.val) (clearCauses port.val val))) s

/-- ROUTE_WRITE: a write of a routing entry makes, stages or pends a version (R166). -/
def execRouteWrite (off : BitVec 26) (size : Nat) (val : BitVec 64) (s : State) : Host.Outcome State Fault Refusal :=
  effect (settled (routeWrite off.toNat size val)) s

/-- VERSION_RETIRE: nothing is in flight on a retiring version; a pending write applies (R167). -/
def execVersionRetire (off : BitVec 26) (s : State) : Host.Outcome State Fault Refusal :=
  effect (settled (versionRetire off.toNat)) s

/-- ORD_HOLD_RELEASE: ordered packets held by a route change go on (R168). -/
def execOrdHoldRelease (off : BitVec 26) (s : State) : Host.Outcome State Fault Refusal :=
  effect (settled (releaseHeld off.toNat)) s

end Sys2Proof.Machine
end

