-- ==== Sys2Proof/Machine/ExecManage.lean ====
section
/-! DEFINITION. Management, drafts and the life cycle (file 14). One meaning per command. -/

namespace Sys2Proof.Machine

/-- FUNCTION_LEVEL_RESET: the PCI Express function is reset (R476). -/
def execFunctionLevelReset (s : State) : Host.Outcome State Fault Refusal := effect functionReset s

/-- PCIE_LINK_DOWN: the link is down; the function is reset (R530). -/
def execPcieLinkDown (s : State) : Host.Outcome State Fault Refusal := effect pcieDown s

/-- PCIE_PERST_N_RISE: link training starts (R530). -/
def execPciePerstNRise (s : State) : Host.Outcome State Fault Refusal := effect perstRise s

/-- I2C_TRANSFER: a write of MIO_I2C_XFER; go starts a transfer (R480). -/
def execI2cTransfer (n : Fin 2) (val : Word) (s : State) : Host.Outcome State Fault Refusal :=
  effect (i2cTransfer n.val val) s

/-- I2C_TRANSFER_END: a transfer ends; the bus is checked when due (R480, R482). -/
def execI2cTransferEnd (n : Fin 2) (result : BitVec 3) (data : List Byte) (sdaHigh : Option (Fin 10)) (s : State) : Host.Outcome State Fault Refusal :=
  effect (i2cTransferEnd n.val result.toNat data (sdaHigh.map (·.val))) s

/-- I2C_TIMEOUT: SCL has been held low for 25 ms (R481). -/
def execI2cTimeout (n : Fin 2) (s : State) : Host.Outcome State Fault Refusal := effect (i2cTimeout n.val) s

/-- RECOVER: the bus check is repeated (R482). -/
def execRecover (n : Fin 2) (sdaHigh : Option (Fin 10)) (s : State) : Host.Outcome State Fault Refusal :=
  effect (i2cRecover n.val (sdaHigh.map (·.val))) s

/-- IDENT: the I2C target answers IDENT (R483). -/
def execIdent (s : State) : Host.Outcome State Fault Refusal := effect targetIdent s

/-- FAULT: the I2C target answers FAULT (R483). -/
def execI2cFault (s : State) : Host.Outcome State Fault Refusal := effect targetFault s

/-- THERMAL: the I2C target answers THERMAL (R483). -/
def execThermal (s : State) : Host.Outcome State Fault Refusal := effect targetThermal s

/-- POWER: the I2C target answers POWER (R483). -/
def execPower (s : State) : Host.Outcome State Fault Refusal := effect targetPower s

/-- ADDR: the I2C target stores a register offset (R484). -/
def execAddr (bytes : List Byte) (pec : Option Byte) (s : State) : Host.Outcome State Fault Refusal :=
  effect (targetAddress bytes pec) s

/-- READ: the I2C target returns a register and steps its offset (R485). -/
def execRead (s : State) : Host.Outcome State Fault Refusal := effect targetRead s

/-- SPI_READ: a software flash READ (R489). -/
def execSpiRead (val : Word) (s : State) : Host.Outcome State Fault Refusal :=
  effect (spiWrite ((val &&& 0x8FFFFFFF#32) ||| 0x00000000#32)) s

/-- PROGRAM: a software flash PROGRAM (R489). -/
def execProgram (val : Word) (s : State) : Host.Outcome State Fault Refusal :=
  effect (spiWrite ((val &&& 0x8FFFFFFF#32) ||| 0x10000000#32)) s

/-- ERASE: a software flash ERASE (R489). -/
def execErase (val : Word) (s : State) : Host.Outcome State Fault Refusal :=
  effect (spiWrite ((val &&& 0x8FFFFFFF#32) ||| 0x20000000#32)) s

/-- DUMP: the capture buffer is copied into the flash dump area (R490). -/
def execDump (val : Word) (s : State) : Host.Outcome State Fault Refusal :=
  effect (spiWrite ((val &&& 0x8FFFFFFF#32) ||| 0x30000000#32)) s

/-- FLASH_OP_END: a software flash operation finishes (R489). -/
def execFlashOpEnd (ok : Bool) (s : State) : Host.Outcome State Fault Refusal := effect (flashOpEnd ok) s

/-- DRAFT_LOAD: a write of DFT_LOAD; go starts a load (R498). -/
def execDraftLoad (val : Word) (s : State) : Host.Outcome State Fault Refusal := effect (draftLoad val) s

/-- DRAFT_VERIFY_DONE: the verification ends; the reloads start or the draft is refused (R498). -/
def execDraftVerifyDone (s : State) : Host.Outcome State Fault Refusal := effect (settled draftVerified) s

/-- PANEL_DRAIN_END: the region of a panel has drained; the panel is applied (R499). -/
def execPanelDrainEnd (s : State) : Host.Outcome State Fault Refusal := effect (settled panelDrained) s

/-- DRAIN_TMO: a drain reaches 5 ms (R499). -/
def execDrainTmo (s : State) : Host.Outcome State Fault Refusal := effect (settled drainTimeout) s

/-- PORT_RESET: a write of DFT_PORT_RST; go resets a port (R501). -/
def execPortReset (val : Word) (s : State) : Host.Outcome State Fault Refusal :=
  effect (settled (portResetWrite val)) s

/-- SHUTTLE_RESET: a write of DFT_SHT_RST; go resets a spare or failed shuttle (R502). -/
def execShuttleReset (val : Word) (s : State) : Host.Outcome State Fault Refusal := effect (shuttleResetWrite val) s

/-- LIFE_CYCLE_REQUEST: a write of AON_LC_CTL (R507). -/
def execLifeCycleRequest (val : Word) (s : State) : Host.Outcome State Fault Refusal := effectFused (lifeCycle val) s

/-- LIFE_CYCLE_TRANSITION_DONE: the fuses are blown; a warm reset starts (R507). -/
def execLifeCycleTransitionDone (s : State) : Host.Outcome State Fault Refusal := effectFused lifeCycleDone s

/-- GPIO_CHANGE: the GPIO inputs change (R478). -/
def execGpioChange (pins : Byte) (s : State) : Host.Outcome State Fault Refusal := effect (gpioChange pins) s

end Sys2Proof.Machine
end

