-- ==== Sys2Proof/Machine/ExecPower.lean ====
section
/-! DEFINITION. Clocks, rails, levels, sensors, standby (file 12). One meaning per command. -/

namespace Sys2Proof.Machine

/-- AON_CLK_LOSS: the 25 MHz input stops (R405). -/
def execAonClkLoss (s : State) : Host.Outcome State Fault Refusal := effect aonClkLoss s

/-- CORE_REFCLK_LOSS: every PLL enters holdover (R406). -/
def execCoreRefclkLoss (s : State) : Host.Outcome State Fault Refusal := effect coreClkLoss s

/-- CORE_REFCLK_RETURN: the PLLs relock (R406). -/
def execCoreRefclkReturn (s : State) : Host.Outcome State Fault Refusal := effect coreClkReturn s

/-- PLL_UNLOCK: a die PLL loses lock; the die enters die reset (R406). -/
def execPllUnlock (die : Fin 4) (s : State) : Host.Outcome State Fault Refusal := effect (settled (pllUnlock die.val)) s

/-- POWER_UP: POR_N rises; the power-up sequence starts (R417). -/
def execPowerUp (board : Board) (s : State) : Host.Outcome State Fault Refusal := effect (powerUp board) s

/-- RAIL_GOOD: a switched rail is good; the sequence advances (R417). -/
def execRailGood (rail : Fin 7) (s : State) : Host.Outcome State Fault Refusal := effect (railGood rail.val) s

/-- RAIL_SEQ: a rail is not good within on_tmo (R418). -/
def execRailSeq (s : State) : Host.Outcome State Fault Refusal := effect (settled railSeqFail) s

/-- ORDERLY_POWER_DOWN: a write of PWR_CTL; off starts the sequence (R419). -/
def execOrderlyPowerDown (val : Word) (s : State) : Host.Outcome State Fault Refusal :=
  effect (settled (orderlyDown val)) s

/-- SRAM_WIPE_DONE: steps 2 and 3 of the power-down finish (R419). -/
def execSramWipeDone (s : State) : Host.Outcome State Fault Refusal := effect wipeDone s

/-- RAIL_OFF: a rail is below its off threshold; the next one goes off (R419). -/
def execRailOff (rail : Fin 7) (s : State) : Host.Outcome State Fault Refusal := effect (railOff rail.val) s

/-- RAIL_OFF_FAIL: a rail stays on past off_tmo (R420). -/
def execRailOffFail (rail : Fin 7) (s : State) : Host.Outcome State Fault Refusal := effect (railOffFail rail.val) s

/-- RAIL_MONITOR: the monitors sample each rail (R414). -/
def execRailMonitor (mv : List Nat) (s : State) : Host.Outcome State Fault Refusal := effect (railMonitor mv) s

/-- RAIL_FAULT: a rail stays far from its request (R422). -/
def execRailFault (rail : Fin 7) (s : State) : Host.Outcome State Fault Refusal :=
  effect (settled (railFault rail.val)) s

/-- PHASE_SELECT: a write of PWR_PHASE_SEL (R427). -/
def execPhaseSelect (val : Word) (s : State) : Host.Outcome State Fault Refusal := effect (phaseSelect val) s

/-- LEVEL_STEP: one step of a die's effective level (R425). -/
def execLevelStep (die : Fin 4) (s : State) : Host.Outcome State Fault Refusal := effect (levelStep die.val) s

/-- PCAP: the averaged package power moves the PCAP limit (R428). -/
def execPcap (watts : Nat) (s : State) : Host.Outcome State Fault Refusal := effect (pcap watts) s

/-- ICAP: the VDD_CORE current moves the ICAP limit (R428). -/
def execIcap (amps : Nat) (s : State) : Host.Outcome State Fault Refusal := effect (icap amps) s

/-- DROOP: the stretch time of a window moves the DROOP limit (R428). -/
def execDroop (die : Fin 4) (stretchNs : Nat) (s : State) : Host.Outcome State Fault Refusal :=
  effect (droop die.val stretchNs) s

/-- TEMP: the highest reading of a die moves the TEMP limit (R428). -/
def execTemp (die : Fin 4) (s : State) : Host.Outcome State Fault Refusal := effect (temp die.val) s

/-- THROTTLE_N_FALL: every EXT limit goes to ext_lvl (R429). -/
def execThrottleNFall (s : State) : Host.Outcome State Fault Refusal := effect (setExt true) s

/-- THROTTLE_N_RISE: every EXT limit returns to 0 (R428). -/
def execThrottleNRise (s : State) : Host.Outcome State Fault Refusal := effect (setExt false) s

/-- MGMT: a write of PWR_DIE_CTL sets the MGMT limit of a die (R428). -/
def execMgmt (die : Fin 4) (val : Word) (s : State) : Host.Outcome State Fault Refusal :=
  effect (writeDieCtl die.val val) s

/-- DROOP_TRIP: the die's clock is stretched (R430). -/
def execDroopTrip (die : Fin 4) (s : State) : Host.Outcome State Fault Refusal := effect (droopTrip die.val) s

/-- STRETCH_END: clock stretch ends (R430). -/
def execStretchEnd (die : Fin 4) (s : State) : Host.Outcome State Fault Refusal := effect (stretchEnd die.val) s

/-- ENERGY_UPDATE: the energy counter adds 10 µs of energy (R432). -/
def execEnergyUpdate (measuredUj : Nat) (s : State) : Host.Outcome State Fault Refusal :=
  effect (energyUpdate measuredUj) s

/-- SENSOR_READ: a sensor takes a reading (R433). -/
def execSensorRead (sensor : Fin 24) (t : BitVec 16) (s : State) : Host.Outcome State Fault Refusal :=
  effect (takeReading sensor.val t) s

/-- THERMTRIP: a sensor reads 115 °C or above (R435). -/
def execThermtrip (sensor : Fin 24) (t : BitVec 16) (s : State) : Host.Outcome State Fault Refusal :=
  effect (settled (thermtrip sensor.val t)) s

/-- DIE_STANDBY: a write of standby = 1 puts an idle die into standby or is refused (R437). -/
def execDieStandby (die : Fin 4) (s : State) : Host.Outcome State Fault Refusal :=
  effect (writeStandby die.val true) s

/-- DIE_STANDBY_EXIT: a write of standby = 0 ends standby (R439). -/
def execDieStandbyExit (die : Fin 4) (s : State) : Host.Outcome State Fault Refusal :=
  effect (writeStandby die.val false) s

/-- TEMP_HISTOGRAM: each die adds the highest reading of a minute (R473). -/
def execTempHistogram (s : State) : Host.Outcome State Fault Refusal := effect tempHistogram s

end Sys2Proof.Machine
end

