-- ==== Sys2Proof/Machine/ExecShuttles.lean ====
section
/-! DEFINITION. Shuttles: descriptors, power states, migration, reweighting, timeouts (files 08, 09, 13). One meaning per command. -/

namespace Sys2Proof.Machine

/-- ADD: an input payload is decoded and combined into the accumulators (R285). -/
def execAdd (sh : Fin 544) (s : State) : Host.Outcome State Fault Refusal :=
  effect (settled (whenUp (sh.val / 136) (addAt sh.val))) s

/-- PART: the accumulators are encoded and the partial goes (R292). -/
def execPart (sh : Fin 544) (s : State) : Host.Outcome State Fault Refusal :=
  effect (settled (whenUp (sh.val / 136) (partAt sh.val))) s

/-- RESULT: the root rounds once, runs the egress operators and sends the result (R297). -/
def execResult (sh : Fin 544) (s : State) : Host.Outcome State Fault Refusal :=
  effect (settled (whenUp (sh.val / 136) (resultAt sh.val))) s

/-- FORWARD: the old shuttle copies a tracker's sheets to the target (R345). -/
def execForward (sh : Fin 544) (s : State) : Host.Outcome State Fault Refusal :=
  effect (settled (whenUp (sh.val / 136) (forwardAt sh.val))) s

/-- DRAIN: the target takes the marker and starts the emission (R345). -/
def execDrain (sh : Fin 544) (s : State) : Host.Outcome State Fault Refusal :=
  effect (settled (whenUp (sh.val / 136) (drainAt sh.val))) s

/-- FILL: a pattern is written to the named sheets (R317). -/
def execFill (sh : Fin 544) (s : State) : Host.Outcome State Fault Refusal :=
  effect (settled (whenUp (sh.val / 136) (fillSht sh.val))) s

/-- COPY: sheets are copied to another shuttle of the die (R317). -/
def execCopy (sh : Fin 544) (s : State) : Host.Outcome State Fault Refusal :=
  effect (settled (whenUp (sh.val / 136) (copySht sh.val))) s

/-- UNLOAD: a write of unload clears the loaded context (R336). -/
def execUnload (sh : Fin 544) (s : State) : Host.Outcome State Fault Refusal :=
  effect (whenUp (sh.val / 136) (unloadSht sh.val)) s

/-- WAKE: a parked or off shuttle goes to WAKING (R338). -/
def execWake (sh : Fin 544) (s : State) : Host.Outcome State Fault Refusal :=
  effect (whenUp (sh.val / 136) (wakeSht sh.val)) s

/-- POWER_UP_PLACE: a wake from OFF gets a power-up place (R339). -/
def execPowerUpPlace (die : Fin 4) (s : State) : Host.Outcome State Fault Refusal :=
  effect (whenUp die.val (powerUpPlace die.val)) s

/-- WAKE_DONE: WAKING ends; the shuttle runs and takes its waiting work (R338). -/
def execWakeDone (sh : Fin 544) (s : State) : Host.Outcome State Fault Refusal :=
  effect (settled (whenUp (sh.val / 136) (wakeDone sh.val))) s

/-- PARK: an idle shuttle parks (R337). -/
def execPark (sh : Fin 544) (s : State) : Host.Outcome State Fault Refusal :=
  effect (whenUp (sh.val / 136) (parkSht sh.val)) s

/-- OFF: a parked shuttle goes off (R337). -/
def execOff (sh : Fin 544) (s : State) : Host.Outcome State Fault Refusal :=
  effect (whenUp (sh.val / 136) (offSht sh.val)) s

/-- MIGRATION: a write of GLB_SHT_MIG; go starts a migration or refuses it (R342). -/
def execMigration (val : Word) (s : State) : Host.Outcome State Fault Refusal := effect (migrate val) s

/-- SHEETS_CLEARED: the target has cleared its sheets (R343, R348). -/
def execSheetsCleared (s : State) : Host.Outcome State Fault Refusal := effect (settled clearSheets) s

/-- SWITCH_CYCLE: the window moves and the spare map switches (R343). -/
def execSwitchCycle (s : State) : Host.Outcome State Fault Refusal := effect (settled switchCycle) s

/-- REDIRECT_RELEASE: no tracker is recorded on the old shuttle; it becomes SPARE (R347). -/
def execRedirectRelease (sh : Fin 544) (s : State) : Host.Outcome State Fault Refusal :=
  effect (releaseRedirect sh.val) s

/-- REWEIGHT: the die reweights its logical shuttles (R351). -/
def execReweight (die : Fin 4) (busyNs : List Nat) (s : State) : Host.Outcome State Fault Refusal :=
  effect (whenRuns die.val (reweight die.val busyNs)) s

/-- CMD_TMO: a descriptor whose command timer has expired is stopped (R458). -/
def execCmdTmo (sh : Fin 544) (s : State) : Host.Outcome State Fault Refusal :=
  effect (settled (whenUp (sh.val / 136) (commandTimeout sh.val))) s

/-- SHT_HANG: a hung shuttle is migrated or unmapped (R459). -/
def execShtHang (sh : Fin 544) (s : State) : Host.Outcome State Fault Refusal :=
  effect (settled (whenUp (sh.val / 136) (shuttleHang sh.val))) s

end Sys2Proof.Machine
end

