-- ==== Sys2Proof/Machine/ExecSwitch.lean ====
section
/-! DEFINITION. The switch core: admission, crossbar, arbitration, flushes (files 05 and 06). One meaning per command. -/

namespace Sys2Proof.Machine

/-- ADMISSION: the head packet waiting on an ingress queue is admitted (R188). -/
def execAdmission (port : Fin 512) (q : Fin 8) (s : State) : Host.Outcome State Fault Refusal :=
  effect (settled (admitQueue port.val q.val)) s

/-- CROSSBAR_SLOT: the schedulers grant and accept; cells cross the die-to-die links (R194), where a transfer may be resent
(R445). -/
def execCrossbarSlot (s : State) : Host.Outcome State Fault Refusal := effect (settled fun s => resendSome (crossbarSlot s)) s

/-- EGRESS_ARBITRATION: the arbiter acts at a link-unit boundary (R207). -/
def execEgressArbitration (port : Fin 512) (s : State) : Host.Outcome State Fault Refusal :=
  effect (settled (egressBoundary port.val)) s

/-- HOL_FLUSH: a queue starved of credits for 2^hol_exp µs is flushed (R199). -/
def execHolFlush (port : Fin 512) (q : Fin 8) (s : State) : Host.Outcome State Fault Refusal :=
  effect (settled (holFlush port.val q.val)) s

end Sys2Proof.Machine
end

