-- ==== Sys2Proof/Machine/ExecTraffic.lean ====
section
/-! DEFINITION. Scheduling and fabric time (file 06). One meaning per command. -/

namespace Sys2Proof.Machine

/-- AGE_TICK: the age counters of eligible queues that were not granted advance (R210). -/
def execAgeTick (s : State) : Host.Outcome State Fault Refusal := effect ageTick s

/-- PROMOTION: a queue whose age exceeds starve_lim is promoted (R211). -/
def execPromotion (port : Fin 512) (q : Fin 8) (s : State) : Host.Outcome State Fault Refusal :=
  effect (promote port.val q.val) s

/-- TIME_EXCHANGE: the child sends REQ to its parent (R215). -/
def execTimeExchange (s : State) : Host.Outcome State Fault Refusal := effect (settled timeExchangeAt) s

/-- REQ: a time request arrives and is answered (R218). -/
def execReq (port : Fin 512) (c : Ctl) (s : State) : Host.Outcome State Fault Refusal :=
  effect (arrive port.val (.ctl { c with ckind := 0x11, ks := 1#4 ++ c.ks.setWidth 12 })) s

/-- RSP: a time response arrives; the child steps or slews (R216). -/
def execRsp (port : Fin 512) (c : Ctl) (s : State) : Host.Outcome State Fault Refusal :=
  effect (arrive port.val (.ctl { c with ckind := 0x11, ks := 2#4 ++ c.ks.setWidth 12 })) s

/-- SHED_OPEN: a shed opens at its phase (R222). -/
def execShedOpen (port : Fin 512) (i : Nat) (s : State) : Host.Outcome State Fault Refusal :=
  effect (shedOpen port.val i) s

/-- SHED_CLOSE: the open shed ends (R225). -/
def execShedClose (port : Fin 512) (s : State) : Host.Outcome State Fault Refusal := effect (shedClose port.val) s

/-- TREADLING_HANDOVER: a reloaded treadling takes over (R225). -/
def execTreadlingHandover (port : Fin 512) (s : State) : Host.Outcome State Fault Refusal :=
  effect (handover port.val) s

/-- FINE_SLOT: a slot of the fine calender falls due (R230). -/
def execFineSlot (die : Fin 4) (s : State) : Host.Outcome State Fault Refusal :=
  effect (whenRuns die.val (fineSlot die.val)) s

/-- COARSE_SLOT: a slot of the coarse calender falls due (R230). -/
def execCoarseSlot (die : Fin 4) (s : State) : Host.Outcome State Fault Refusal :=
  effect (whenRuns die.val (coarseSlot die.val)) s

/-- SAMPLE: depth and delay of every egress queue are sampled (R239). -/
def execSample (s : State) : Host.Outcome State Fault Refusal := effect sample s

/-- SCH_LATE: a Q1 head has waited longer than its period (R223). -/
def execSchLate (port : Fin 512) (s : State) : Host.Outcome State Fault Refusal := effect (schLate port.val) s

end Sys2Proof.Machine
end

