-- ==== Sys2Proof/Machine/Dispatch.lean ====
section
/-! DEFINITION. One arm per command: its meaning. -/

namespace Sys2Proof.Machine

/-- The effect of a command on everything but the queue. -/
def exec (i : Instr) (s : State) : Host.Outcome State Fault Refusal :=
  match i with
  | .registerWrite off size val => Sys2Proof.Machine.execRegisterWrite off size val s
  | .readClear off size events => Sys2Proof.Machine.execReadClear off size events s
  | .latchingRead off => Sys2Proof.Machine.execLatchingRead off s
  | .load port p => Sys2Proof.Machine.execLoad port p s
  | .store port p => Sys2Proof.Machine.execStore port p s
  | .fadd port p => Sys2Proof.Machine.execFadd port p s
  | .swap port p => Sys2Proof.Machine.execSwap port p s
  | .cas port p => Sys2Proof.Machine.execCas port p s
  | .acc port p => Sys2Proof.Machine.execAcc port p s
  | .sacc port c => Sys2Proof.Machine.execSacc port c s
  | .rdS port p => Sys2Proof.Machine.execRdS port p s
  | .rdM port p => Sys2Proof.Machine.execRdM port p s
  | .upg port p => Sys2Proof.Machine.execUpg port p s
  | .wb port p => Sys2Proof.Machine.execWb port p s
  | .inv port p => Sys2Proof.Machine.execInv port p s
  | .fanoutAdmit => Sys2Proof.Machine.execFanoutAdmit s
  | .fanoutExpire r => Sys2Proof.Machine.execFanoutExpire r s
  | .cpl port p => Sys2Proof.Machine.execCpl port p s
  | .expire line => Sys2Proof.Machine.execExpire line s
  | .waitListHead line => Sys2Proof.Machine.execWaitListHead line s
  | .timeout e => Sys2Proof.Machine.execTimeout e s
  | .quarantineEnd e => Sys2Proof.Machine.execQuarantineEnd e s
  | .staleExpire e gen => Sys2Proof.Machine.execStaleExpire e gen s
  | .waitDiscard port q k => Sys2Proof.Machine.execWaitDiscard port q k s
  | .packetReceive port units => Sys2Proof.Machine.execPacketReceive port units s
  | .lock port => Sys2Proof.Machine.execLock port s
  | .loss port => Sys2Proof.Machine.execLoss port s
  | .lcuI port l => Sys2Proof.Machine.execLcuI port l s
  | .lcuU port l => Sys2Proof.Machine.execLcuU port l s
  | .rplGroup port l => Sys2Proof.Machine.execRplGroup port l s
  | .badcw port => Sys2Proof.Machine.execBadcw port s
  | .rtmo port => Sys2Proof.Machine.execRtmo port s
  | .rlim port => Sys2Proof.Machine.execRlim port s
  | .itmo port => Sys2Proof.Machine.execItmo port s
  | .lcuSend port => Sys2Proof.Machine.execLcuSend port s
  | .discStart => Sys2Proof.Machine.execDiscStart s
  | .discRestart => Sys2Proof.Machine.execDiscRestart s
  | .helloSend => Sys2Proof.Machine.execHelloSend s
  | .hello port c => Sys2Proof.Machine.execHello port c s
  | .quiet => Sys2Proof.Machine.execQuiet s
  | .nbr port c => Sys2Proof.Machine.execNbr port c s
  | .assign port c => Sys2Proof.Machine.execAssign port c s
  | .atmo => Sys2Proof.Machine.execAtmo s
  | .epHello port c => Sys2Proof.Machine.execEpHello port c s
  | .learnCommit die => Sys2Proof.Machine.execLearnCommit die s
  | .win port => Sys2Proof.Machine.execWin port s
  | .epAck port c => Sys2Proof.Machine.execEpAck port c s
  | .clr port val => Sys2Proof.Machine.execClr port val s
  | .routeWrite off size val => Sys2Proof.Machine.execRouteWrite off size val s
  | .versionRetire off => Sys2Proof.Machine.execVersionRetire off s
  | .ordHoldRelease off => Sys2Proof.Machine.execOrdHoldRelease off s
  | .admission port q => Sys2Proof.Machine.execAdmission port q s
  | .crossbarSlot => Sys2Proof.Machine.execCrossbarSlot s
  | .egressArbitration port => Sys2Proof.Machine.execEgressArbitration port s
  | .holFlush port q => Sys2Proof.Machine.execHolFlush port q s
  | .ageTick => Sys2Proof.Machine.execAgeTick s
  | .promotion port q => Sys2Proof.Machine.execPromotion port q s
  | .timeExchange => Sys2Proof.Machine.execTimeExchange s
  | .req port c => Sys2Proof.Machine.execReq port c s
  | .rsp port c => Sys2Proof.Machine.execRsp port c s
  | .shedOpen port k => Sys2Proof.Machine.execShedOpen port k s
  | .shedClose port => Sys2Proof.Machine.execShedClose port s
  | .treadlingHandover port => Sys2Proof.Machine.execTreadlingHandover port s
  | .fineSlot die => Sys2Proof.Machine.execFineSlot die s
  | .coarseSlot die => Sys2Proof.Machine.execCoarseSlot die s
  | .sample => Sys2Proof.Machine.execSample s
  | .groupCommit g val => Sys2Proof.Machine.execGroupCommit g val s
  | .groupVersionRetire g => Sys2Proof.Machine.execGroupVersionRetire g s
  | .inEvent k => Sys2Proof.Machine.execInEvent k s
  | .res port p => Sys2Proof.Machine.execRes port p s
  | .sent t => Sys2Proof.Machine.execSent t s
  | .tmo t => Sys2Proof.Machine.execTmo t s
  | .abort val => Sys2Proof.Machine.execAbort val s
  | .straggler g slot => Sys2Proof.Machine.execStraggler g slot s
  | .homeTabRebuild => Sys2Proof.Machine.execHomeTabRebuild s
  | .add sh => Sys2Proof.Machine.execAdd sh s
  | .part sh => Sys2Proof.Machine.execPart sh s
  | .result sh => Sys2Proof.Machine.execResult sh s
  | .forward sh => Sys2Proof.Machine.execForward sh s
  | .drain sh => Sys2Proof.Machine.execDrain sh s
  | .fill sh => Sys2Proof.Machine.execFill sh s
  | .copy sh => Sys2Proof.Machine.execCopy sh s
  | .unload sh => Sys2Proof.Machine.execUnload sh s
  | .wake sh => Sys2Proof.Machine.execWake sh s
  | .powerUpPlace die => Sys2Proof.Machine.execPowerUpPlace die s
  | .wakeDone sh => Sys2Proof.Machine.execWakeDone sh s
  | .park sh => Sys2Proof.Machine.execPark sh s
  | .off sh => Sys2Proof.Machine.execOff sh s
  | .migration val => Sys2Proof.Machine.execMigration val s
  | .switchCycle => Sys2Proof.Machine.execSwitchCycle s
  | .redirectRelease sh => Sys2Proof.Machine.execRedirectRelease sh s
  | .reweight die busyNs => Sys2Proof.Machine.execReweight die busyNs s
  | .snap g => Sys2Proof.Machine.execSnap g s
  | .traceRingEnable val => Sys2Proof.Machine.execTraceRingEnable val s
  | .trainingFrame lane cdr block => Sys2Proof.Machine.execTrainingFrame lane cdr block s
  | .fll lane => Sys2Proof.Machine.execFll lane s
  | .ad lane => Sys2Proof.Machine.execAd lane s
  | .join port => Sys2Proof.Machine.execJoin port s
  | .cwloss lane => Sys2Proof.Machine.execCwloss lane s
  | .rt lane => Sys2Proof.Machine.execRt lane s
  | .ttmo lane signal => Sys2Proof.Machine.execTtmo lane signal s
  | .eiEntry port => Sys2Proof.Machine.execEiEntry port s
  | .eiEnter port c => Sys2Proof.Machine.execEiEnter port c s
  | .eiExit port => Sys2Proof.Machine.execEiExit port s
  | .eiExitFail port => Sys2Proof.Machine.execEiExitFail port s
  | .widthPropose port kind mask => Sys2Proof.Machine.execWidthPropose port kind mask s
  | .prop port c => Sys2Proof.Machine.execProp port c s
  | .ack port c => Sys2Proof.Machine.execAck port c s
  | .go port c => Sys2Proof.Machine.execGo port c s
  | .lapse port => Sys2Proof.Machine.execLapse port s
  | .proposalRetry port => Sys2Proof.Machine.execProposalRetry port s
  | .removalInterval lane corrected uncorrectable prbsErrors => Sys2Proof.Machine.execRemovalInterval lane corrected uncorrectable prbsErrors s
  | .marginScan lane val => Sys2Proof.Machine.execMarginScan lane val s
  | .marginScanEnd lane neg pos => Sys2Proof.Machine.execMarginScanEnd lane neg pos s
  | .aonClkLoss => Sys2Proof.Machine.execAonClkLoss s
  | .coreRefclkLoss => Sys2Proof.Machine.execCoreRefclkLoss s
  | .coreRefclkReturn => Sys2Proof.Machine.execCoreRefclkReturn s
  | .pllUnlock die => Sys2Proof.Machine.execPllUnlock die s
  | .laneRefclkLoss b => Sys2Proof.Machine.execLaneRefclkLoss b s
  | .laneRefclkReturn b => Sys2Proof.Machine.execLaneRefclkReturn b s
  | .powerUp board => Sys2Proof.Machine.execPowerUp board s
  | .railGood rail => Sys2Proof.Machine.execRailGood rail s
  | .railSeq => Sys2Proof.Machine.execRailSeq s
  | .orderlyPowerDown val => Sys2Proof.Machine.execOrderlyPowerDown val s
  | .railOff rail => Sys2Proof.Machine.execRailOff rail s
  | .railOffFail rail => Sys2Proof.Machine.execRailOffFail rail s
  | .railMonitor mv => Sys2Proof.Machine.execRailMonitor mv s
  | .railFault rail => Sys2Proof.Machine.execRailFault rail s
  | .phaseSelect val => Sys2Proof.Machine.execPhaseSelect val s
  | .levelStep die => Sys2Proof.Machine.execLevelStep die s
  | .pcap watts => Sys2Proof.Machine.execPcap watts s
  | .icap amps => Sys2Proof.Machine.execIcap amps s
  | .droop die stretchNs => Sys2Proof.Machine.execDroop die stretchNs s
  | .temp die => Sys2Proof.Machine.execTemp die s
  | .throttleNFall => Sys2Proof.Machine.execThrottleNFall s
  | .throttleNRise => Sys2Proof.Machine.execThrottleNRise s
  | .mgmt die val => Sys2Proof.Machine.execMgmt die val s
  | .droopTrip die => Sys2Proof.Machine.execDroopTrip die s
  | .stretchEnd die => Sys2Proof.Machine.execStretchEnd die s
  | .energyUpdate measuredUj => Sys2Proof.Machine.execEnergyUpdate measuredUj s
  | .sensorRead sensor t => Sys2Proof.Machine.execSensorRead sensor t s
  | .thermtrip sensor t => Sys2Proof.Machine.execThermtrip sensor t s
  | .dieStandby die => Sys2Proof.Machine.execDieStandby die s
  | .dieStandbyExit die => Sys2Proof.Machine.execDieStandbyExit die s
  | .faultNMinimumEnd => Sys2Proof.Machine.execFaultNMinimumEnd s
  | .faultNRelease val => Sys2Proof.Machine.execFaultNRelease val s
  | .d2dChannelFail src dst ch => Sys2Proof.Machine.execD2dChannelFail src dst ch s
  | .regTmo off write => Sys2Proof.Machine.execRegTmo off write s
  | .watchdogExpiry => Sys2Proof.Machine.execWatchdogExpiry s
  | .cmdTmo sh => Sys2Proof.Machine.execCmdTmo sh s
  | .shtHang sh => Sys2Proof.Machine.execShtHang sh s
  | .contextReset val => Sys2Proof.Machine.execContextReset val s
  | .ctxResetTmo => Sys2Proof.Machine.execCtxResetTmo s
  | .captureRelease val => Sys2Proof.Machine.execCaptureRelease val s
  | .dieReset val => Sys2Proof.Machine.execDieReset val s
  | .warmReset key => Sys2Proof.Machine.execWarmReset key s
  | .selvedgeFlush val => Sys2Proof.Machine.execSelvedgeFlush val s
  | .selvedgeHourly => Sys2Proof.Machine.execSelvedgeHourly s
  | .fecHistogram lane corrected => Sys2Proof.Machine.execFecHistogram lane corrected s
  | .tempHistogram => Sys2Proof.Machine.execTempHistogram s
  | .functionLevelReset => Sys2Proof.Machine.execFunctionLevelReset s
  | .pcieLinkDown => Sys2Proof.Machine.execPcieLinkDown s
  | .i2cTransfer n val => Sys2Proof.Machine.execI2cTransfer n val s
  | .i2cTransferEnd n result data sdaHigh => Sys2Proof.Machine.execI2cTransferEnd n result data sdaHigh s
  | .i2cTimeout n => Sys2Proof.Machine.execI2cTimeout n s
  | .recover n sdaHigh => Sys2Proof.Machine.execRecover n sdaHigh s
  | .ident => Sys2Proof.Machine.execIdent s
  | .i2cFault => Sys2Proof.Machine.execI2cFault s
  | .thermal => Sys2Proof.Machine.execThermal s
  | .power => Sys2Proof.Machine.execPower s
  | .addr bytes pec => Sys2Proof.Machine.execAddr bytes pec s
  | .read => Sys2Proof.Machine.execRead s
  | .spiRead val => Sys2Proof.Machine.execSpiRead val s
  | .program val => Sys2Proof.Machine.execProgram val s
  | .erase val => Sys2Proof.Machine.execErase val s
  | .dump val => Sys2Proof.Machine.execDump val s
  | .flashOpEnd ok => Sys2Proof.Machine.execFlashOpEnd ok s
  | .draftLoad val => Sys2Proof.Machine.execDraftLoad val s
  | .panelDrainEnd => Sys2Proof.Machine.execPanelDrainEnd s
  | .drainTmo => Sys2Proof.Machine.execDrainTmo s
  | .portReset val => Sys2Proof.Machine.execPortReset val s
  | .shuttleReset val => Sys2Proof.Machine.execShuttleReset val s
  | .broadcastWrite off val => Sys2Proof.Machine.execBroadcastWrite off val s
  | .broadcastRead off => Sys2Proof.Machine.execBroadcastRead off s
  | .lifeCycleRequest val => Sys2Proof.Machine.execLifeCycleRequest val s
  | .gpioChange pins => Sys2Proof.Machine.execGpioChange pins s
  | .receiveElectricalIdle port => Sys2Proof.Machine.execReceiveElectricalIdle port s
  | .sheetsCleared => Sys2Proof.Machine.execSheetsCleared s
  | .sramWipeDone => Sys2Proof.Machine.execSramWipeDone s
  | .selvedgeWriteDone ok => Sys2Proof.Machine.execSelvedgeWriteDone ok s
  | .abortDone => Sys2Proof.Machine.execAbortDone s
  | .contextResetDone => Sys2Proof.Machine.execContextResetDone s
  | .dieResetDone die => Sys2Proof.Machine.execDieResetDone die s
  | .warmResetDone => Sys2Proof.Machine.execWarmResetDone s
  | .draftVerifyDone => Sys2Proof.Machine.execDraftVerifyDone s
  | .lifeCycleTransitionDone => Sys2Proof.Machine.execLifeCycleTransitionDone s
  | .powerOnReset => Sys2Proof.Machine.execPowerOnReset s
  | .pciePerstNRise => Sys2Proof.Machine.execPciePerstNRise s
  | .schLate port => Sys2Proof.Machine.execSchLate port s

end Sys2Proof.Machine
end

