-- ==== Sys2Proof/Machine/Ecc.lean ====
section
/-! DEFINITION. Errors that appear in memories of themselves: in cells (R175), scratchpads (R315, R446), tables (R447), the
always-on domain and the fuses (Table 13-2). No row of the command table brings one: they come from free values in idle cycles
(log 111). What an error does to the reader that meets it stands with that reader. -/

namespace Sys2Proof.Machine

/-! ### Table errors (R447) -/

/-- No copy of an entry is good: TABLE_UE. -/
def tableUe (t d i : Nat) (s : State) : State := raise Cause.tableUe (locTable t d i) s

/-- A group entry: its active version takes valid := 0, and the trackers opened under it end as the ABORT rows. -/
def badGroupEntry (d e : Nat) (s : State) : State :=
  let s := tableUe 0 d e s
  let g := s.grpE e
  let hit := s.grp.trk.filterMap fun x => match x.2 with
    | some t => if t.entry == e && t.ver.vn == g.active.vn then some (x.1, t) else none
    | none => none
  let words := g.active.words.set 0 (putBits (g.active.words.getD 0 0) 31 1 0)
  let s := s.setGrpE e { g with active := { g.active with words := words } }
  showEntry e (forEach hit (fun x s => endTrk x.1 x.2 2 s) s)

/-- A member slot takes active := 0. -/
def badMember (d m : Nat) (s : State) : State := (tableUe 0 d (16384 + m) s).setFlag (F.MBR_SLOT_HI_active m) false

/-- Context resets that bad context entries cause start when none is busy. -/
def startDue (s : State) : State :=
  match s.ecc.ctxDue with
  | c :: rest => if s.ctxRst.isSome then s else startCtxReset [c] false false { s with ecc := { s.ecc with ctxDue := rest } }
  | [] => s

/-- A context entry causes a context reset of its context without a sample. -/
def badContext (d c : Nat) (s : State) : State :=
  let s := tableUe 1 d c s
  startDue { s with ecc := { s.ecc with ctxDue := s.ecc.ctxDue ++ [c] } }

/-- The routing entries by number: RTE_LOCAL, RTE_ROW, RTE_COL, RTE_DEST. -/
def routeKeyOf (i : Nat) : Nat :=
  if i < 32 then R.RTE_LOCAL i
  else if i < 64 then R.RTE_ROW_LO (i - 32)
  else if i < 96 then R.RTE_COL_LO (i - 64)
  else R.RTE_DEST ((i - 96) % 1024)

/-- The RTE block's first offset (Table 15-9). -/
def rteBase : Nat := 0x2400000

/-- A routing entry takes the value 0 under a new epoch (R166). -/
def badRoute (d i : Nat) (s : State) : State :=
  let k := routeKeyOf i
  let s := tableUe 2 d ((k - rteBase) / 4) s
  let s := s.wr k 0
  newVersion k 0 true (if isWide k then s.wr (k + 4) 0 else s)

/-- A shed entry stops the Q1 of the ports whose treadling holds it. -/
def badShed (d j : Nat) (s : State) : State :=
  let s := tableUe 3 d j s
  let hit := (enabledPorts s).filter fun p =>
    portDie p == d && decide (s.fld (F.PRT_TRD_SHEDS_base p) ≤ j)
      && decide (j < s.fld (F.PRT_TRD_SHEDS_base p) + s.fld (F.PRT_TRD_SHEDS_count p))
  { s with ecc := { s.ecc with q1Stop := (s.ecc.q1Stop ++ hit).dedup } }

/-! ### What a free value brings -/

/-- An error appears in a word; an uncorrectable one stays uncorrectable. -/
def worse (old : Option Bool) (ue : Bool) : Option Bool := some (ue || old == some true)

/-- The error that a free value brings, if any: where it strikes, and what a table, always-on or fuse error does. -/
def upset (n : Nat) (s : State) : State :=
  let kind := n % 16
  let ue := bitOf n 4
  let i := n / 32
  let d := i % 4
  let j := i / 4
  if s.pwr.por then (if kind = 10 then { s with ecc := { s.ecc with fuseBad := ue } } else s)
  else if kind = 9 then raiseFatal Cause.aonEcc locNone 0 s
  else if kind = 11 then { s with ecc := { s.ecc with badSht := (j % 544) :: s.ecc.badSht } }
  else if inReset s d then s
  else
    match kind with
    | 1 => let c := d * 2 ^ 18 + j % 196608
           s.setCellErr c (worse (s.cellErr c) ue)
    | 2 => let w := d * (136 * 131072) + j % (136 * 131072)
           s.setWordErr w (worse (s.wordErr w) ue)
    | 3 => raise Cause.eccCe (locDie d 0) s
    | 4 => badGroupEntry d (j % 16384) s
    | 5 => badMember d (j % 131072) s
    | 6 => badContext d (j % 4096) s
    | 7 => badRoute d (j % 1120) s
    | 8 => badShed d (j % 131072) s
    | 12 => { s with flt := { s.flt with weakCh := (j % 16, j / 16 % 34) :: s.flt.weakCh } }
    | _ => s

end Sys2Proof.Machine
end

