-- ==== Sys2Proof/Machine/Jtag.lean ====
section
/-! DEFINITION. The JTAG port (R533): the TAP controller of IEEE 1149.1, IDCODE, the instructions that the life cycle allows (Table
14-11). No row of the command table drives it: its clock edges come from free values in idle cycles (log 112). -/

namespace Sys2Proof.Machine

/-- The state after a rising edge of TCK (IEEE 1149.1). -/
def tapNext (t : Tap) (tms : Bool) : Tap :=
  match t, tms with
  | .reset, true => .reset
  | .reset, false => .idle
  | .idle, false => .idle
  | .idle, true => .selDr
  | .selDr, false => .capDr
  | .selDr, true => .selIr
  | .capDr, false => .shiftDr
  | .capDr, true => .exit1Dr
  | .shiftDr, false => .shiftDr
  | .shiftDr, true => .exit1Dr
  | .exit1Dr, false => .pauseDr
  | .exit1Dr, true => .updDr
  | .pauseDr, false => .pauseDr
  | .pauseDr, true => .exit2Dr
  | .exit2Dr, false => .shiftDr
  | .exit2Dr, true => .updDr
  | .updDr, false => .idle
  | .updDr, true => .selDr
  | .selIr, false => .capIr
  | .selIr, true => .reset
  | .capIr, false => .shiftIr
  | .capIr, true => .exit1Ir
  | .shiftIr, false => .shiftIr
  | .shiftIr, true => .exit1Ir
  | .exit1Ir, false => .pauseIr
  | .exit1Ir, true => .updIr
  | .pauseIr, false => .pauseIr
  | .pauseIr, true => .exit2Ir
  | .exit2Ir, false => .shiftIr
  | .exit2Ir, true => .updIr
  | .updIr, false => .idle
  | .updIr, true => .selDr

/-- IDCODE: version 0x1, part 0x5120, manufacturer 0x44D, and 1 (R533). -/
def idcode : BitVec 32 := 0x1512089B#32

/-- The instruction is available in the life-cycle state (Table 14-11): internal scan and debug in BLANK and RETURNED alone. -/
def jtagAllowed (lc : Nat) (i : JtagIns) : Bool := i != .internal || lc == 0 || lc == 3

/-- Boundary scan reaches the lane contacts: VDD_LANE_A and VDD_LANE_H are good (R533). -/
def laneContacts (s : State) : Bool := s.fld (F.PWR_RAIL_MV_state 5) == 2 && s.fld (F.PWR_RAIL_MV_state 6) == 2

/-- `n` bits, from bit 0. -/
def bitList (n v : Nat) : List Bool := (upTo n).map (bitOf v)

/-- The instruction that a free number names: the spec gives no codes. One that is not available selects BYPASS, as IEEE 1149.1 has
every unused code do (PRESUMED, log 112). -/
def namedIns (lc n : Nat) : JtagIns :=
  let i : JtagIns := match n % 4 with
    | 0 => .idcode
    | 1 => .boundary
    | 2 => .internal
    | _ => .bypass
  if jtagAllowed lc i then i else .bypass

/-- What CAPTURE-DR loads: IDCODE, the 0 of BYPASS, or contents of a length that the spec does not give (free). -/
def captureDr (i : JtagIns) (n : Nat) : List Bool :=
  match i with
  | .idcode => bitList 32 idcode.toNat
  | .bypass => [false]
  | .boundary | .internal => bitList (n % 65536) (n / 65536)

/-- A rising edge of TCK with TMS and TDI; `n` is free. -/
def tck (tms tdi : Bool) (n : Nat) (s : State) : State :=
  let j := s.jtag
  let j := match j.tap with
    | .capDr => { j with dr := captureDr j.ir n, lanes := decide (j.ir = JtagIns.boundary) && laneContacts s }
    | .shiftDr => { j with tdo := j.dr.head?, dr := j.dr.drop 1 ++ [tdi] }
    | .shiftIr => { j with tdo := some (bitOf n 0) }
    | .updIr => { j with ir := namedIns s.fuses.lcState n }
    | _ => { j with tdo := none }
  let t := tapNext j.tap tms
  { s with jtag := { j with tap := t, ir := if t = Tap.reset then JtagIns.idcode else j.ir } }

end Sys2Proof.Machine
end

