-- ==== Sys2Proof/Machine/Idle.lean ====
section
/-! DEFINITION. What a cycle does in which no command waits. -/

namespace Sys2Proof.Machine

/-- An idle cycle: time passes (R520), and free values decide what else happens: a memory error (R447), a rising edge of TCK
(R533), an access of the host to the configuration space (R509). -/
def idle (s : State) : State :=
  let t := tick s
  let k := t.free
  let m := Config.freeNat (k + 1)
  let u := settle (startDue (upset (Config.freeNat k) { t with free := k + 3 }))
  let v := if m % 2 = 1 then tck (bitOf m 1) (bitOf m 2) (m / 8) u else u
  { hostCfg (Config.freeNat (k + 2)) v with pending := s.pending, now := t.now, fuses := s.fuses }

end Sys2Proof.Machine
end

