-- ==== Sys2Proof/Safety.lean ====
section
/-! DEFINITION. The terms in which statements speak of runs: what a legal life cycle is, what a canonical memory is, what a
command leaves alone. -/

namespace Sys2Proof

open Sys2Proof.Machine

/-- The command (or idle cycle) `o` completes: it answers a next state. -/
def Completes (o : Host.Outcome State Fault Refusal) : Prop := ∃ t, o = .next t

/-- The life cycle is legal: the state is one of Table 14-11, and a transition in progress is one that R507 accepts. -/
def LifeCycleLegal (s : State) : Prop :=
  s.fuses.lcState ≤ 3 ∧ ∀ t, s.fuses.lcTarget = some t → lcStep s.fuses.lcState t = true

/-- What the fuses keep for good: serial number, failed shuttles and cells, voltage trims (R509: fuses are kept). -/
def SameSilicon (a b : Fuses) : Prop :=
  b.serial = a.serial ∧ b.failedSht = a.failedSht ∧ b.badCells = a.badCells ∧ b.vtrim = a.vtrim

/-- The memories are in canonical form: addresses strictly rising, no byte listed at the value an unlisted one reads. -/
def Machine.Mem.wf (m : Mem) : Bool :=
  Sparse.wf (fun _ => (0 : Byte)) m.sheets && Sparse.wf (fun _ => (0xFF : Byte)) m.flash
    && Sparse.wf (fun _ => (0 : Byte)) m.cap && Sparse.wf (fun _ => (0 : Byte)) m.sel

/-! ### How statements name packets and what follows them -/

/-- A port that takes packets: enabled, and its link UP. -/
abbrev Machine.TakesPackets (s : State) (port : Nat) : Prop := portOn s port = true ∧ linkUp s port = true

/-- A control packet that fits: one link unit, in Q0 or Q1 (R101, R102). -/
abbrev Machine.FitsControl (c : Ctl) : Prop := c.queue.toNat ≤ 1 ∧ c.lenM1.toNat ≤ 47

/-- A control packet with the kind and the type that a row fixes. -/
def Machine.ctlOf (ckind : BitVec 5) (type : BitVec 4) (c : Ctl) : Ctl :=
  { c with ckind := ckind, ks := type ++ c.ks.setWidth 12 }

/-- What a control packet received on `port` leaves: it disarms the receive direction, its credits go back, effect `f`, its mirror
copies, and what follows at once. -/
def Machine.afterControl (port : Nat) (c : Ctl) (f : State → State) (s : State) : State :=
  let s := disarmed port s
  settle (mirrorOnly port (mirSelect s false port (.ctl c)) (.ctl c) (f (giveCredits port c.queue.toNat 1 s)))

/-- What a control packet that a row brings leaves, when `f` is the effect of its kind: on a port that takes packets the effect, or a
link protocol error when it does not fit; on any other port nothing. -/
def Machine.controlArrives (port : Nat) (c : Ctl) (f : State → State) (s : State) : State :=
  if TakesPackets s port then (if FitsControl c then afterControl port c f s else settle (protoError port (disarmed port s)))
  else s

/-- The commands that bring a request which gets a completion, with its operation (Table 02-4). -/
def requestRows : List ((Fin 512 → Packet → Instr) × Op) :=
  [(.load, .load), (.store, .store), (.fadd, .fadd), (.swap, .swap), (.cas, .cas), (.rdS, .rdS), (.rdM, .rdM),
   (.upg, .upg), (.wb, .wb)]

/-- Nothing is left to do at once: no NACK due, no packet of the switch to itself, none that waits for a shaper, its stream's order or
a wait-list entry, no descriptor queued on a shuttle, no open tracker, no lag, no collection that is complete, no time lock without a
parent, no purge, no link-control unit due. -/
def Machine.Settled (s : State) : Prop :=
  s.core.nacks = [] ∧ s.fab.self = [] ∧ s.fab.shaped = [] ∧ s.fab.ordWait = [] ∧ s.fab.noc = []
  ∧ (∀ x ∈ s.grp.transit, x.shaped = 0) ∧ (∀ x ∈ s.shts.sht, x.2.dq = []) ∧ s.grp.trk = [] ∧ s.grp.lag = []
  ∧ ¬ (dstate s = 2 ∧ nbrAll s = true)
  ∧ (timeLocked s && !s.flag F.SCH_TIME_STATUS_master && (timeParent s).isNone) = false
  ∧ (∀ r, s.ctxRst = some r → r.purging = false) ∧ ∀ x ∈ s.link, lcuDue s x.1 = false

end Sys2Proof
end

