-- ==== Sys2Proof/WellFormed.lean ====
section
/-! DEFINITION. Well-formed packets, link units and commands: what their types do not say. A packet's payload has the size
its header gives it, a field that its form does not carry is 0, a code has one spelling; a command's data fits its row. The
machine's meanings are total and do not depend on this. -/

namespace Sys2Proof

open Sys2Proof.Machine

/-- The fields that neither compact header carries are 0 (Tables 03-5, 03-7). -/
def Packet.compactOnly (p : Packet) : Bool :=
  p.epoch == 0 && !p.tree && p.stage == 0 && p.lclass == 0 && p.pick == 0

/-- The fields that a compact ACC does not carry are 0, and its address is the group address of its fields (Table 03-5). -/
def Packet.accFields (p : Packet) : Bool :=
  p.compactOnly && p.ftag == 0 && p.dst == 0 && !p.dsw && p.handle == 0 && !p.dat && p.offset == 0
    && p.address.extractLsb' 51 13 == 1#1 ++ p.ctx

/-- The fields that another compact header does not carry are 0 (Table 03-5). -/
def Packet.compactFields (p : Packet) : Bool :=
  p.compactOnly && p.operator == .sum && p.format == .fp32 && p.address == 0
    && (if p.op == .cpl then p.handle == 0 else !p.dat)

/-- The fields that a direct header does not carry are 0 (Table 03-7). -/
def Packet.directFields (p : Packet) : Bool := p.dst == 0 && !p.dsw && p.handle == 0 && p.offset == 0

/-- A well-formed data packet. -/
def Packet.wf (p : Packet) : Bool :=
  opOf (opCode p.op) == p.op && statusOf (statusCode p.status) == p.status
    && operatorOf (operatorCode p.operator) == p.operator && formatOf (formatCode p.format) == p.format
    && p.payload.length == payloadSize p.op p.dat (pktLen p)
    && match p.form with
      | .compact => if p.op == .acc then p.accFields else p.compactFields
      | .direct => p.directFields

/-- A well-formed control packet: its body has 48 bytes (R101). -/
def Ctl.wf (c : Ctl) : Bool := c.body.length == 48

/-- A well-formed packet. -/
def Pkt.wf : Pkt → Bool
  | .data p => p.wf
  | .ctl c => c.wf

/-- A link unit has 64 bytes (R87). -/
def LinkUnit.wf (u : LinkUnit) : Bool := u.bytes.length == 64

/-- A link-control unit lists eight limits (Table 03-10). -/
def Lcu.wf (l : Lcu) : Bool := l.lims.length == 8

/-- The data of a packet row: a well-formed packet of the row's operation. -/
def rowPacket (op : Op) (p : Packet) : Bool := p.op == op && p.wf

/-- The data of a control row: a well-formed control packet of the row's kind and type. -/
def rowCtl (ckind : BitVec 5) (type : Option (BitVec 4)) (c : Ctl) : Bool :=
  c.wf && c.ckind == ckind && (match type with | some t => c.ks.extractLsb' 12 4 == t | none => true)

/-- A well-formed command. -/
def Instr.wf : Instr → Bool
  | .load _ p => rowPacket .load p | .store _ p => rowPacket .store p | .fadd _ p => rowPacket .fadd p
  | .swap _ p => rowPacket .swap p | .cas _ p => rowPacket .cas p | .acc _ p => rowPacket .acc p
  | .rdS _ p => rowPacket .rdS p | .rdM _ p => rowPacket .rdM p | .upg _ p => rowPacket .upg p
  | .wb _ p => rowPacket .wb p | .inv _ p => rowPacket .inv p | .cpl _ p => rowPacket .cpl p
  | .sacc _ c => rowCtl 1 none c
  | .hello _ c => rowCtl 0x10 (some 1) c | .nbr _ c => rowCtl 0x10 (some 2) c | .assign _ c => rowCtl 0x10 (some 3) c
  | .epHello _ c => rowCtl 0x10 (some 5) c | .epAck _ c => rowCtl 0x10 (some 7) c
  | .req _ c => rowCtl 0x11 (some 1) c | .rsp _ c => rowCtl 0x11 (some 2) c
  | .prop _ c => rowCtl 0x12 (some 1) c | .ack _ c => rowCtl 0x12 (some 2) c | .go _ c => rowCtl 0x12 (some 3) c
  | .eiEnter _ c => rowCtl 0x12 (some 4) c
  | .res _ p => p.wf
  | .packetReceive _ units => units.all (·.wf)
  | .lcuI _ l => l.wf && l.init
  | .lcuU _ l => l.wf && !l.init
  | .rplGroup _ l => l.wf && !l.init && l.rpl
  | .reweight _ busyNs => busyNs.length == 136
  | .railMonitor mv => mv.length == 7
  | .droop _ stretchNs => decide (stretchNs ≤ 100000)
  | .d2dChannelFail src dst _ => src != dst
  | .i2cTransferEnd _ r data _ => r != 7 && decide (data.length ≤ 32)
  | .powerUp board => decide (board.flashLog ≤ 32)
  | .registerWrite _ _ _ | .readClear _ _ _ | .latchingRead _ | .fanoutAdmit | .fanoutExpire _ | .expire _
  | .waitListHead _ | .timeout _ | .quarantineEnd _ | .staleExpire _ _ | .waitDiscard _ _ _ | .lock _ | .loss _
  | .badcw _ | .rtmo _ | .rlim _ | .itmo _ | .lcuSend _ | .discStart | .discRestart | .helloSend | .quiet | .atmo
  | .learnCommit _ | .win _ | .clr _ _ | .routeWrite _ _ _ | .versionRetire _ | .ordHoldRelease _ | .admission _ _
  | .crossbarSlot | .egressArbitration _ | .holFlush _ _ | .ageTick | .promotion _ _ | .timeExchange | .shedOpen _ _
  | .shedClose _ | .treadlingHandover _ | .fineSlot _ | .coarseSlot _ | .sample | .groupCommit _ _
  | .groupVersionRetire _ | .inEvent _ | .sent _ | .tmo _ | .abort _ | .straggler _ _ | .homeTabRebuild | .add _
  | .part _ | .result _ | .forward _ | .drain _ | .fill _ | .copy _ | .unload _ | .wake _ | .powerUpPlace _
  | .wakeDone _ | .park _ | .off _ | .migration _ | .switchCycle | .redirectRelease _ | .snap _ | .traceRingEnable _
  | .trainingFrame _ _ _ | .fll _ | .ad _ | .join _ | .cwloss _ | .rt _ | .ttmo _ _ | .eiEntry _ | .eiExit _
  | .eiExitFail _ | .widthPropose _ _ _ | .lapse _ | .proposalRetry _ | .removalInterval _ _ _ _ | .marginScan _ _
  | .marginScanEnd _ _ _ | .aonClkLoss | .coreRefclkLoss | .coreRefclkReturn | .pllUnlock _ | .laneRefclkLoss _
  | .laneRefclkReturn _ | .railGood _ | .railSeq | .orderlyPowerDown _ | .railOff _ | .railOffFail _ | .railFault _
  | .phaseSelect _ | .levelStep _ | .pcap _ | .icap _ | .temp _ | .throttleNFall | .throttleNRise | .mgmt _ _
  | .droopTrip _ | .stretchEnd _ | .energyUpdate _ | .sensorRead _ _ | .thermtrip _ _ | .dieStandby _
  | .dieStandbyExit _ | .faultNMinimumEnd | .faultNRelease _ | .regTmo _ _ | .watchdogExpiry | .cmdTmo _ | .shtHang _
  | .contextReset _ | .ctxResetTmo | .captureRelease _ | .dieReset _ | .warmReset _ | .selvedgeFlush _
  | .selvedgeHourly | .fecHistogram _ _ | .tempHistogram | .functionLevelReset | .pcieLinkDown | .i2cTransfer _ _
  | .i2cTimeout _ | .recover _ _ | .ident | .i2cFault | .thermal | .power | .addr _ _ | .read | .spiRead _ | .program _
  | .erase _ | .dump _ | .flashOpEnd _ | .draftLoad _ | .panelDrainEnd | .drainTmo | .portReset _ | .shuttleReset _
  | .broadcastWrite _ _ | .broadcastRead _ | .lifeCycleRequest _ | .gpioChange _ | .receiveElectricalIdle _
  | .sheetsCleared | .sramWipeDone | .selvedgeWriteDone _ | .abortDone | .contextResetDone | .dieResetDone _
  | .warmResetDone | .draftVerifyDone | .lifeCycleTransitionDone | .powerOnReset | .pciePerstNRise | .schLate _ => true

end Sys2Proof
end

