-- ==== Sys2Proof/Certificates/Slice0/Obligations.lean ====
section
/-! DEFINITION. The statements for the provers. -/

open Sys2Proof Sys2Proof.Machine

/-! ### The machine as a whole -/

/-- With command `c` at the front of the queue, a step is `exec c` on the state with the queue's rest. -/
def Obligations.StepRunsFrontCommand : Prop :=
  ∀ (c : Instr) (rest : List Instr) (s : State), s.pending = c :: rest → step s = exec c { s with pending := rest }

/-- On an empty queue a step is one idle cycle of the 500 MHz clock: 2 ns pass, no command runs, no command is queued and no fuse
changes (the model's choice, log entry 3). -/
def Obligations.EmptyQueueIdles : Prop :=
  ∀ s : State, s.pending = [] →
    step s = .next (idle s) ∧ (idle s).now = s.now + 2 ∧ (idle s).pending = [] ∧ (idle s).fuses = s.fuses

/-- Every command completes: it answers a next state, takes no time and leaves the queue of waiting commands. What that state
is, the statements of the command's family say. -/
def Obligations.EveryCommandCompletes : Prop :=
  ∀ (c : Instr) (s : State), ∃ t, exec c s = .next t ∧ t.pending = s.pending ∧ t.now = s.now

/-- The queue drains first in, first out: after as many steps as commands wait, none does, and the commands ran in
order. -/
def Obligations.QueueDrainsInOrder : Prop :=
  ∀ (l : List Instr) (s : State), s.pending = l →
    ∃ t, core.run l.length s = .next t ∧ t.pending = [] ∧ t.now = s.now
      ∧ ∀ (k : Nat) (u : State), k ≤ l.length → core.run k s = .next u → u.pending = l.drop k

/-- Only a BAR write, a life-cycle request, the end of a transition and power-on reset can change a fuse. -/
def Obligations.OnlyLifeCycleCommandsBlowFuses : Prop :=
  ∀ (c : Instr) (s t : State), exec c s = .next t → t.fuses ≠ s.fuses →
    (∃ off size v, c = .registerWrite off size v) ∨ (∃ v, c = .lifeCycleRequest v) ∨ c = .lifeCycleTransitionDone
      ∨ c = .powerOnReset

/-- No step changes the serial number, the fused list of failed shuttles, the failed cells or the voltage trims. -/
def Obligations.StepKeepsSilicon : Prop :=
  ∀ s t : State, step s = .next t → SameSilicon s.fuses t.fuses

/-- The life-cycle state only advances: no step from a state with a legal life cycle lowers the fused state. -/
def Obligations.LifeCycleOnlyAdvances : Prop :=
  ∀ s t : State, LifeCycleLegal s → step s = .next t → s.fuses.lcState ≤ t.fuses.lcState ∧ t.fuses.lcState ≤ 3

/-- A legal life cycle stays legal: every step keeps the state one of Table 14-11 and a transition in progress one of
R507. -/
def Obligations.LifeCycleStaysLegal : Prop :=
  ∀ s t : State, LifeCycleLegal s → step s = .next t → LifeCycleLegal t

/-- The fused key hash stays once the device has left BLANK. -/
def Obligations.KeyHashKeptAfterBlank : Prop :=
  ∀ s t : State, LifeCycleLegal s → s.fuses.lcState ≠ 0 → step s = .next t → t.fuses.keyHash = s.fuses.keyHash

/-- The life cycle is legal at reset. -/
def Obligations.LifeCycleLegalAtReset : Prop := LifeCycleLegal State.reset

/-- At reset every register holds the value its table row gives for reset, the queue is empty, the memories are in
canonical form with nothing listed in the scratchpads, the capture buffer and the staging record, every directory
entry is I, every outstanding-request entry and tracker is free, every queue is empty. -/
def Obligations.ResetValues : Prop :=
  State.reset.pending = [] ∧ (∀ off, State.reset.rd off = regDefault off) ∧ Mem.wf State.reset.mem = true
    ∧ (∀ a, State.reset.sheetByte a = 0) ∧ (∀ a, State.reset.capByte a = 0) ∧ (∀ a, State.reset.selByte a = 0)
    ∧ (∀ n, (State.reset.dirE n).st = .i) ∧ (∀ e, (State.reset.ortE e).busy = false)
    ∧ (∀ t, State.reset.trkE t = none) ∧ (∀ k, State.reset.eqQ k = []) ∧ (∀ k, State.reset.waitQ k = [])

/-- With nothing left to do at once, what every command does after its own effect changes nothing. -/
def Obligations.SettleChangesNothingWhenSettled : Prop := ∀ s : State, Settled s → settle s = s

/-! ### Register access -/

/-- REGISTER_WRITE, READ_CLEAR and LATCHING_READ complete. A REGISTER_WRITE that is neither 32 bits aligned to 4 nor 64 bits aligned
to 8, and any in D3hot, ends with Unsupported Request; a 32-bit one has the register's effect, with the W1C bits that hardware
sets in its cycle kept; a 64-bit one of a routing entry changes the entry at once, and any other has the effects of its low half and
then of its high half. Only one that reaches AON_LC_CTL can touch the fuses. A READ_CLEAR of the same kinds, outside D3hot and the
broadcast windows, returns the register (a captured high half once) and changes that register alone; a 64-bit one returns both halves
live; any other ends with Unsupported Request. A LATCHING_READ of a LO register of a latching pair returns it and captures its HI half. -/
def Obligations.RegisterAccesses : Prop :=
  (∀ (s : State) (off : BitVec 26) (size : Nat) (w : BarWrite),
      let o := off.toNat
      let u := if s.mgt.cfg.d3hot = true ∨ ¬ ((size = 4 ∧ o % 4 = 0) ∨ (size = 8 ∧ o % 8 = 0)) then s.emit (.unsupported o)
        else if size = 4 then writeKeeping o (lo32 w.data) (lo32 w.hw) s
        else if (routeKey o).isSome = true then routeWrite o 8 w.data s
        else writeKeeping (o + 4) (hi32 w.data) (hi32 w.hw) (writeKeeping o (lo32 w.data) (lo32 w.hw) s)
      exec (.registerWrite off size w) s
        = .next (if reachesLc o size = true then { u with pending := s.pending, now := s.now } else kept s (settle u)))
  ∧ (∀ (s : State) (off : BitVec 26) (size : Nat) (events : BitVec 64),
      s.mgt.cfg.d3hot = true ∨ ¬ ((size = 4 ∧ off.toNat % 4 = 0) ∨ (size = 8 ∧ off.toNat % 8 = 0)) →
        exec (.readClear off size events) s = .next (kept s (s.emit (.unsupported off.toNat))))
  ∧ (∀ (s : State) (off : BitVec 26) (events : BitVec 64), windowOf off.toNat = none → s.mgt.cfg.d3hot = false →
      (off.toNat % 4 = 0 → ∃ t, exec (.readClear off 4 events) s = .next t
        ∧ t.out = s.out ++ [.readData off.toNat 4 ((readValue s off.toNat).setWidth 64)]
        ∧ (isLatchLo off.toNat = false → t.latch = s.latch.filter fun x => x.1 != off.toNat)
        ∧ (∀ o, o ≠ off.toNat → t.rd o = s.rd o) ∧ t.mem = s.mem ∧ t.fab = s.fab ∧ t.core = s.core ∧ t.link = s.link)
      ∧ (off.toNat % 8 = 0 → ∃ t, exec (.readClear off 8 events) s = .next t
        ∧ t.out = s.out ++ [.readData off.toNat 8 (regValue s (off.toNat + 4) ++ regValue s off.toNat)]
        ∧ t.latch = s.latch ∧ (∀ o, o ≠ off.toNat → o ≠ off.toNat + 4 → t.rd o = s.rd o) ∧ t.mem = s.mem)
      ∧ (off.toNat % 4 = 0 → isLatchLo off.toNat = true → ∃ t, exec (.latchingRead off) s = .next t
        ∧ t.out = s.out ++ [.readData off.toNat 4 ((readValue s off.toNat).setWidth 64)]
        ∧ t.latch.find? (fun x => x.1 == off.toNat + 4) = some (off.toNat + 4, regValue s (off.toNat + 4))
        ∧ (∀ o, o ≠ off.toNat → t.rd o = s.rd o) ∧ t.mem = s.mem ∧ t.fab = s.fab ∧ t.core = s.core ∧ t.link = s.link))

/-- What a software write leaves of each field of a register (Table 00-3): RW stores, W1C clears the bits written 1,
W1S sets them, RO, WO, RC and DL fields keep their value; so do the bits of no field. Every other register is
unchanged. -/
def Obligations.SoftwareWriteByAccessType : Prop :=
  ∀ (s : State) (off : Nat) (v : Word),
    (∀ f ∈ regFields off, (s.storeReg off v).fld ⟨off, f.lo, f.width⟩
      = match f.access with
        | .rw => bits v.toNat f.lo f.width
        | .w1c => (s.fld ⟨off, f.lo, f.width⟩) &&& (2 ^ f.width - 1 - bits v.toNat f.lo f.width)
        | .w1s => (s.fld ⟨off, f.lo, f.width⟩) ||| bits v.toNat f.lo f.width
        | .ro | .wo | .rc | .dl => s.fld ⟨off, f.lo, f.width⟩)
    ∧ (∀ i, (∀ f ∈ regFields off, i < f.lo ∨ f.lo + f.width ≤ i) →
        ((s.storeReg off v).rd off).getLsbD i = (s.rd off).getLsbD i)
    ∧ (∀ o, o ≠ off → (s.storeReg off v).rd o = s.rd o)

/-- BROADCAST_WRITE and BROADCAST_READ complete. Outside D3hot, at an offset of a window aligned to 4: a BROADCAST_WRITE reaches every
selected instance, in ascending order, with the selector in force, and shows how many were selected; with none selected it writes
nothing else. A BROADCAST_READ returns the value of the lowest selected instance, 0 when none is selected; it writes no register but
the window's status and captures nothing; the first selected instance with another value sets mismatch and is recorded in diff. In
D3hot, and unaligned, both end with Unsupported Request. -/
def Obligations.BroadcastWindows : Prop :=
  (∀ (s : State) (off : BitVec 26) (val : Word) (w : Bcw) (x : Nat), windowOf off.toNat = some (w, x) →
      s.mgt.cfg.d3hot = false → off.toNat % 4 = 0 →
      exec (.broadcastWrite off val) s
        = .next (kept s (settle (forEach (selected w s) (fun i u => writeOne (w.base + i * w.stride + x) val u)
            (showSelected w (selected w s) s))))
      ∧ (selected w s = [] → exec (.broadcastWrite off val) s
        = .next (kept s (settle ((s.setFld ⟨w.status, 30, 1⟩ 1).setFld ⟨w.status, 0, 10⟩ 0)))))
  ∧ (∀ (s : State) (off : BitVec 26) (w : Bcw) (x : Nat), windowOf off.toNat = some (w, x) →
      s.mgt.cfg.d3hot = false → off.toNat % 4 = 0 →
      (selected w s = [] → ∃ t, exec (.broadcastRead off) s = .next t ∧ t.out = s.out ++ [.readData off.toNat 4 0]
        ∧ t.latch = s.latch ∧ (∀ o, o ≠ w.status → t.rd o = s.rd o))
      ∧ (∀ (i : Nat) (rest : List Nat), selected w s = i :: rest →
        ∃ t, exec (.broadcastRead off) s = .next t
          ∧ t.out = s.out ++ [.readData off.toNat 4 ((regValue s (w.base + i * w.stride + x)).setWidth 64)]
          ∧ t.latch = s.latch ∧ (∀ o, o ≠ w.status → t.rd o = s.rd o)
          ∧ (∀ j, (rest.find? fun j => regValue s (w.base + j * w.stride + x) != regValue s (w.base + i * w.stride + x)) = some j →
              t.flag ⟨w.status, 31, 1⟩ = true ∧ t.fld ⟨w.status, 16, 10⟩ = j % 1024)))
  ∧ (∀ (s : State) (off : BitVec 26) (val : Word), s.mgt.cfg.d3hot = true ∨ off.toNat % 4 ≠ 0 →
      exec (.broadcastWrite off val) s = .next (kept s (settle (s.emit (.unsupported off.toNat))))
      ∧ exec (.broadcastRead off) s = .next (kept s (s.emit (.unsupported off.toNat))))

/-! ### Fabric operations -/

/-- LOAD, STORE, FADD, SWAP, CAS, ACC, RD_S, RD_M, UPG, WB, INV and CPL complete. One that arrives on an enabled port whose link is UP
disarms a receive direction armed for electrical idle; in Q7 of a port that is no service port it is a link protocol error; on a
restricted or service port it is discarded and counted, and its credits return; on any other port its header is looked up and what
the lookup decides is carried out. On a port that is off or not UP nothing happens. The lookup: on an endpoint port an operation that
fails a check of R546 is rejected with that check's status; one that passes gets its outstanding-request entry and is policed; a red
one returns its credits and is answered by R242; any other is routed, yellow when it is marked so. On a fabric port a packet that is
no group packet is routed. -/
def Obligations.RequestsAreRoutedOrRejected : Prop :=
  (∀ x ∈ requestRows ++ [(.acc, .acc), (.inv, .inv), (.cpl, .cpl)], ∀ (s : State) (port : Fin 512) (p : Packet),
      let n := port.val
      let d := disarmed n s
      let q := { p with op := x.2 }
      exec (x.1 port p) s = .next (kept s (
        if portOn s n = true ∧ linkUp s n = true then
          settle (
            if p.queue = 7 ∧ isSvc d n = false then protoError n d
            else if restricted d n = true ∨ isSvc d n = true then
              giveCredits n p.queue.toNat (nLuOf (.data q)) (d.bump F.RTE_QUAR_DROP_CNT_count)
            else carryOut n q (mirSelect d false n (.data q)) (lookup n q d))
        else s)))
  ∧ (∀ (s : State) (port : Nat) (p : Packet), isEp s port = true → p.op ≠ .acc →
      (∀ st, leafCheck s port { p with ssw := false } = some st → lookup port p s = (.reject st, s))
      ∧ (leafCheck s port { p with ssw := false } = none →
          let a := allocate port { p with ssw := false } s
          let c := police port a.1 a.2
          (c.1 = 2 → lookup port p s
            = (.done, nackFor port (.data a.1) (giveCredits port p.queue.toNat (nLuOf (.data { p with ssw := false })) c.2)))
          ∧ (c.1 ≠ 2 → ∀ x t, routeData port (nmSource port { p with ssw := false }) a.1 c.2 = (.send x, t) →
            lookup port p s = (.send { x with yellow := c.1 == 1 }, t))
          ∧ (c.1 ≠ 2 → ∀ t, routeData port (nmSource port { p with ssw := false }) a.1 c.2 = (.done, t) →
            lookup port p s = (.done, t))))
  ∧ (∀ (s : State) (port : Nat) (p : Packet), isEp s port = false → isGroupPkt p = false →
      lookup port p s = routeData port none p s)

/-- The allocation of a request's outstanding-request entry: the next generation goes into the fabric tag, the entry
is busy with the port, tag, context and deadline of the request, and no other entry changes. -/
def Obligations.AllocationFillsOneEntry : Prop :=
  ∀ (s : State) (port : Nat) (p : Packet), getsCpl p.op = true →
    let i := ortIndex s port (p.ftag.toNat % 4096)
    let a := allocate port p s
    (a.2.ortE i).busy = true ∧ (a.2.ortE i).port = port ∧ (a.2.ortE i).tag = p.ftag.toNat % 4096
      ∧ (a.2.ortE i).ctx = p.ctx.toNat ∧ (a.2.ortE i).deadline = s.now + tmoNs s p.ctx.toNat
      ∧ (a.2.ortE i).gen = nextGen (s.ortE i)
      ∧ a.1.ftag.toNat = (nextGen (s.ortE i) * 4096 + p.ftag.toNat % 4096) % 65536
      ∧ (∀ j, j ≠ i → a.2.ortE j = s.ortE j) ∧ (∀ o, a.2.rd o = s.rd o) ∧ a.2.mem = s.mem

/-- A completion at the leaf of its request whose tag, generation and destination are those of a busy entry: the match frees the entry
and restores the endpoint's tag. -/
def Obligations.CompletionFreesItsEntry : Prop :=
  ∀ (s : State) (p : Packet) (port : Nat), localPort s (idLocal (dstEpOf p)) = some port →
    let tag := p.ftag.toNat % 4096
    let i := ortIndex s port tag
    tag ≤ s.fld (F.PRT_TAG_CFG_tags_m1 port) → (s.ortE i).busy = true → (s.ortE i).gen = p.ftag.toNat / 4096 →
    fromDst (s.ortE i) p = true →
      matchCpl p s = (some (port, { p with ftag := BitVec.ofNat 16 tag }), s.setOrt i { s.ortE i with busy := false })

/-- ACC and SACC complete: on an enabled endpoint port that is UP, neither restricted nor a service port, a contribution that passes
the checks of its leaf goes in transit to its tracker with the version that the group has at lookup, and one that fails a check
gets a PCPL with the check's status. For an ACC the checks of R546 come first; for a SACC: a gated context, a port that its context
does not enable, and an address that names no group. A SACC of more than 48 bytes or in a queue above Q1 is a link protocol error. -/
def Obligations.ContributionGoesInTransit : Prop :=
  (∀ (s : State) (port : Fin 512) (p : Packet), TakesPackets s port.val → isEp s port.val = true →
      restricted s port.val = false → isSvc s port.val = false → p.queue ≠ 7 →
      let n := port.val
      let d := disarmed n s
      let q : Packet := { p with op := .acc }
      let l : Packet := { q with ssw := false }
      let mir := mirSelect d false n (.data q)
      (∀ st, leafCheck d n l = some st → exec (.acc port p) s = .next (kept s (settle (
          mirrorOnly n mir (.data l) (rejectAcc n (some (n, p.queue.toNat, nLuOf (.data l), [])) (grpPkt (.data l)) st
            (if st = .unreach then d.bump F.RTE_UNREACH_CNT_count else d))))))
      ∧ (leafCheck d n l = none →
          (∀ e v, contribCheck d (grpPkt (.data l)) = .ok (e, v) → exec (.acc port p) s
            = .next (kept s (settle (mirrorOnly n mir (.data q) (toTransit n (.data l) e v d)))))
          ∧ (∀ st, contribCheck d (grpPkt (.data l)) = .error st → exec (.acc port p) s
            = .next (kept s (settle (mirrorOnly n mir (.data q)
                (rejectAcc n (some (n, p.queue.toNat, nLuOf (.data l), [])) (grpPkt (.data l)) st d)))))))
  ∧ (∀ (s : State) (port : Fin 512) (c : Ctl), TakesPackets s port.val → isEp s port.val = true →
      restricted s port.val = false → isSvc s port.val = false →
      let n := port.val
      let d := disarmed n s
      let k : Ctl := { c with ckind := 1 }
      let g := grpPkt (.ctl k)
      let mir := mirSelect d false n (.ctl k)
      let bad (st : Status) : State := rejectAcc n (some (n, c.queue.toNat, 1, [])) g st d
      (¬ FitsControl c → exec (.sacc port c) s = .next (kept s (settle (protoError n d))))
      ∧ (FitsControl c →
          (gateClosed d g.ctx = true ∨ ctxPortEn d g.ctx n = false →
            exec (.sacc port c) s = .next (kept s (settle (mirrorOnly n mir (.ctl k) (bad .access)))))
          ∧ (gateClosed d g.ctx = false → ctxPortEn d g.ctx n = true →
            (isGroupAddr g.addr = false → exec (.sacc port c) s
              = .next (kept s (settle (mirrorOnly n mir (.ctl k) (bad .unsup)))))
            ∧ (isGroupAddr g.addr = true →
              (∀ e v, contribCheck d g = .ok (e, v) → exec (.sacc port c) s
                = .next (kept s (settle (mirrorOnly n mir (.ctl k) (toTransit n (.ctl k) e v d)))))
              ∧ (∀ st, contribCheck d g = .error st → exec (.sacc port c) s
                = .next (kept s (settle (mirrorOnly n mir (.ctl k) (bad st)))))))))

/-- FANOUT_ADMIT, FANOUT_EXPIRE, EXPIRE, WAIT_LIST_HEAD, TIMEOUT, QUARANTINE_END, STALE_EXPIRE and WAIT_DISCARD complete. The first
waiting INV takes the lowest free fan-out record; a record whose deadline has come frees. A busy entry past its deadline counts and
ends with TIMEOUT; a quarantine that has lasted its time ends; a stale mark of the generation named ends at its time. A transient
line past its deadline expires at its home: COH_TIMEOUT is raised and counted, and with invalidations out the pending request
completes, while a recall leaves the line poisoned in I and answers POISON. The head of a wait list is served when its line is
stable and its home runs. A copy that waits for an egress queue for longer than R69 allows leaves wherever it waits, counted and
answered, unless it crosses from another die. Where the condition does not hold the command changes nothing of its own. -/
def Obligations.FabricExpiriesAct : Prop :=
  (∀ s : State, exec .fanoutAdmit s = .next (kept s (settle (
      match freeFan s, s.fab.fanWait with
      | some r, (p, port) :: rest => fanTake r p (takeReq ⟨p, port⟩ { s with fab := { s.fab with fanWait := rest } })
      | _, _ => s))))
  ∧ (∀ (s : State) (r : Fin 4096), exec (.fanoutExpire r) s = .next (kept s (
      match s.fanE r.val with
      | some f => if f.deadline ≤ s.now then s.setFan r.val none else s
      | none => s)))
  ∧ (∀ (s : State) (e : Fin 131072),
      let x := s.ortE e.val
      exec (.timeout e) s = .next (kept s (settle (
        if x.busy = true ∧ x.deadline < s.now then endEntry e.val .timeout (s.bump (F.CTX_TIMEOUT_CNT_count x.ctx)) else s)))
      ∧ (∀ t, x.quarUntil = some t → exec (.quarantineEnd e) s
          = .next (kept s (if t ≤ s.now then s.setOrt e.val { x with quarUntil := none } else s)))
      ∧ (x.quarUntil = none → exec (.quarantineEnd e) s = .next (kept s s))
      ∧ ∀ g : BitVec 4, exec (.staleExpire e g) s = .next (kept s (s.setOrt e.val
          { x with stale := x.stale.filter fun m => !(m.1 == g.toNat && decide (m.2 ≤ s.now)) })))
  ∧ (∀ (s : State) (n : Fin 65536),
      exec (.expire n) s = .next (kept s (settle (
        if transient (s.dirE n.val) = true ∧ (s.dirE n.val).deadline < s.now then
          atHome (lineHome n.val) (.expire n.val) (expireLine n.val) s
        else s)))
      ∧ exec (.waitListHead n) s = .next (kept s (settle (
          match physOf s (lineHome n.val) with
          | none => takeDueHead n.val s
          | some p =>
            if (s.dirE n.val).wait = [] then s
            else if shtP (wakeSht p s) p = 0 then takeDueHead n.val (wakeSht p s) else wakeSht p s)))
      ∧ (∀ r rest, (s.dirE n.val).wait = r :: rest → transient (s.dirE n.val) = false →
          takeDueHead n.val s = serveStable n.val r (served n.val r (onDir n.val (fun d => { d with wait := rest }) s)))
      ∧ (∀ u, u = (raiseCause Cause.cohTimeout (lineLoc s n.val) ((s.dirE n.val).pend.map fun r => r.p.ctx.toNat) 0 s).bump
            F.GLB_COH_TMO_CNT_count →
          ((s.dirE n.val).st = .sInv → expireLine n.val s = completeP n.val u)
          ∧ (∀ r, (s.dirE n.val).st = .mRcl → (s.dirE n.val).pend = some r →
              expireLine n.val s = answer r .poison none
                (poisonLine n.val (onDir n.val (fun d => { noSharers d with st := .i, pend := none }) u)))))
  ∧ (∀ (s : State) (port : Fin 512) (q : Fin 8) (i : Nat),
      exec (.waitDiscard port q i) s = .next (kept s (settle (
        match (waitingFor s (port.val * 8 + q.val))[i]? with
        | some c =>
          if waitedOut s c = true ∧ crossing s c = false then
            removeHeld (fun h => h.copy.any fun x => x.head == c.head && x.queue == c.queue && x.desc == c.desc)
              (dropQueued (fun x => x.head == c.head && x.queue == c.queue && x.desc == c.desc)
                (dropWaiting (fun x => x.head == c.head && x.queue == c.queue && x.desc == c.desc)
                  (nackFor port.val c.pkt (s.bump (F.PRT_FLUSH_CNT_count port.val)))))
          else s
        | none => s))))

/-- The atomics of the switch window (Table 02-4): FADD adds modulo the size, SWAP writes, CAS writes when the
compared value is equal; each returns the old value. LOAD returns it and STORE writes. -/
def Obligations.WindowAtomics : Prop :=
  ∀ (s : State) (ph : Nat) (p : Packet),
    let off := windowOff p.address
    let n := pktLen p
    (p.op = .load → performWin ph p s = (some (winRead s ph off n), s))
    ∧ (p.op = .store → performWin ph p s = (none, winWrite ph off (p.payload.take n) s))
    ∧ (p.op = .fadd → performWin ph p s = (some (winRead s ph off n),
        winWrite ph off (leBytes n ((ofLe (winRead s ph off n) + ofLe (p.payload.take n)) % 2 ^ (8 * n))) s))
    ∧ (p.op = .swap → performWin ph p s = (some (winRead s ph off n), winWrite ph off (p.payload.take n) s))
    ∧ (p.op = .cas → winRead s ph off n = p.payload.take n →
        performWin ph p s = (some (winRead s ph off n), winWrite ph off ((p.payload.drop n).take n) s))
    ∧ (p.op = .cas → winRead s ph off n ≠ p.payload.take n → performWin ph p s = (some (winRead s ph off n), s))

/-! ### The link layer (file 03) -/

/-- LOCK, LOSS, LCU_I, LCU_U, RPL_GROUP, BADCW, RTMO, RLIM, ITMO and LCU_SEND complete, each row of Table 03-11 in its state and
nothing in any other. Lock on every lane takes an enabled port from DOWN to INIT. Loss ends INIT, and in UP it discards, raises
LL_FAIL and takes the port down. A unit with init = 1 in INIT gives its limits and, with pseen, ends INIT, else is answered with
pseen; in UP it is a loss and INIT again. A unit with init = 0 ends INIT and names the next number, and is applied in UP. A bad
group in UP counts, and the first for the expected number sends a NAK and discards until a replay. The oldest unacknowledged group is
replayed after the retry timer. At the replay limit in UP, and after 1 ms in INIT, the link goes down and its lanes retrain. Outside
DOWN a link-control unit is sent. A replay that begins at the expected number resumes reception, one that begins before it skips to
it, one that begins ahead of it fails the link. -/
def Obligations.LinkStatesAndRetry : Prop :=
  (∀ (s : State) (port : Fin 512),
      let n := port.val
      let lost : State := portDown n (setLl n 0 (raise Cause.llFail (locPort n) (clearLink n s)))
      exec (.lock port) s = .next (kept s (settle (
        if portOn s n = true ∧ llState s n = 0 ∧ allLocked s n = true then enterInit n false s else s)))
      ∧ exec (.loss port) s = .next (kept s (settle (
        if llState s n = 1 then setLl n 0 s else if llState s n = 2 then lost else s)))
      ∧ (∀ l : Lcu, exec (.lcuI port l) s = .next (kept s (settle (
        let i := { l with init := true }
        let u := (takeLimits n i s).onLnk n fun k => { k with pseen := true }
        if llState s n = 1 then
          (if l.pseen = true then enterUp n (takeLimits n i s) else sendLcu n (lcuNow u n) u)
        else if llState s n = 2 then enterInit n true lost
        else s))))
      ∧ (∀ l : Lcu, exec (.lcuU port l) s = .next (kept s (settle (
        let i := { l with init := false }
        if llState s n = 1 then enterUp n ((takeLimits n i s).onLnk n fun k => { k with rxExp := l.txSeq.toNat })
        else if llState s n = 2 then applyLcu n i s
        else s))))
      ∧ (∀ l : Lcu, exec (.rplGroup port l) s = .next (kept s (settle (
        let i := { l with init := false, rpl := true }
        if llState s n = 1 then enterUp n ((takeLimits n i s).onLnk n fun k => { k with rxExp := l.txSeq.toNat })
        else if llState s n = 2 then applyLcu n i s
        else s))))
      ∧ (∀ l : Lcu, llState s n = 2 → l.nakVld = false → l.ackVld = false →
          exec (.rplGroup port l) s = .next (kept s (settle (
            takeReplay n l.txSeq.toNat (adoptLimits n { l with init := false, rpl := true } s))))))
  ∧ (∀ (s : State) (port : Fin 512),
      let n := port.val
      let c := s.bump (F.PRT_BAD_CW_CNT_count n)
      let k := c.onLnk n fun l => { l with nak := some l.rxExp, mode := .waitReplay }
      (llState s n = 2 → (c.lnk n).nak ≠ some (c.lnk n).rxExp →
        exec (.badcw port) s = .next (kept s (settle (sendLcu n (lcuNow k n) k))))
      ∧ (llState s n = 2 → (c.lnk n).nak = some (c.lnk n).rxExp → exec (.badcw port) s = .next (kept s (settle c)))
      ∧ (llState s n ≠ 2 → exec (.badcw port) s = .next (kept s (settle s)))
      ∧ (∀ old g rest, (s.lnk n).replay = (old, g) :: rest → exec (.rtmo port) s = .next (kept s (settle (
          if llState s n = 2 ∧ (s.lnk n).ackAt + max 1 (s.fld (F.PRT_LL_CFG_rtmo n)) * 64 ≤ s.now then replayFrom n old s
          else s))))
      ∧ ((s.lnk n).replay = [] → exec (.rtmo port) s = .next (kept s (settle s)))
      ∧ exec (.rlim port) s = .next (kept s (settle (
          if llState s n = 2 ∧ max 1 (s.fld (F.PRT_LL_CFG_rlim n)) ≤ (s.lnk n).replays then linkFail n s else s)))
      ∧ exec (.itmo port) s = .next (kept s (settle (
          if llState s n = 1 ∧ (s.lnk n).initAt + 1000000 ≤ s.now then
            retrainPort n (setLl n 0 (raise Cause.llFail (locPort n) s))
          else s)))
      ∧ exec (.lcuSend port) s = .next (kept s (settle (if llState s n = 0 then s else sendLcu n (lcuNow s n) s))))
  ∧ (∀ (s : State) (p tx : Nat),
      (tx = (s.lnk p).rxExp → takeReplay p tx s = s.onLnk p fun l => { l with mode := .take, nak := none })
      ∧ (tx ≠ (s.lnk p).rxExp → seqGe tx (s.lnk p).rxExp = true → takeReplay p tx s = linkFail p s)
      ∧ (seqGe tx (s.lnk p).rxExp = false → takeReplay p tx s = s.onLnk p fun l => { l with mode := .skipTo tx, nak := none })
      ∧ linkFail p s = retrainPort p (portDown p (setLl p 0 (raise Cause.llFail (locPort p) (clearLink p s)))))

/-- INIT shows state 1 and starts every number at 0, with nothing to replay, no NAK outstanding and each of the eight limits at the
allotment of its queue; other ports' links and the memories are unchanged. -/
def Obligations.LinkInitStartsFresh : Prop :=
  ∀ (s : State) (p : Nat) (b : Bool), p < 512 →
    llState (enterInit p b s) p = 1 ∧ ((enterInit p b s).lnk p).txSeq = 0 ∧ ((enterInit p b s).lnk p).rxExp = 0
      ∧ ((enterInit p b s).lnk p).replay = [] ∧ ((enterInit p b s).lnk p).nak = none
      ∧ ((enterInit p b s).lnk p).pseen = b
      ∧ ((enterInit p b s).lnk p).myLim = (upTo 8).map (fun q => s.fld (F.PRT_IG_RES_res p q))
      ∧ (∀ j, j ≠ p → (enterInit p b s).lnk j = s.lnk j) ∧ (enterInit p b s).mem = s.mem

/-- PACKET_RECEIVE completes: a link group of ten link units on an enabled port that is in INIT or UP. An uncounted group gives its
link-control unit. A counted group in UP disarms, is counted for R118, and: in sequence, its link units are taken one by one and the
expected number goes on by one; while a replay is awaited it is discarded; while a replay catches up, only its link-control units are
taken; out of sequence it is a bad group (R92, R119, R122). On any other port nothing happens. -/
def Obligations.CountedGroupIsTaken : Prop :=
  (∀ (s : State) (port : Fin 512) (units : List LinkUnit),
      let n := port.val
      let g := tenUnits units
      exec (.packetReceive port units) s = .next (kept s (
        if portOn s n = true ∧ llState s n ≠ 0 then
          settle (
            if isUncounted g = true then takeUncounted n g s
            else if linkUp s n = true then takeCounted n g s
            else takeInInit n g s)
        else s)))
  ∧ (∀ (s : State) (n : Nat) (g : List LinkUnit),
      let c := countedGroup n s
      ((c.lnk n).mode = .take → wrongSeq (c.lnk n).rxExp g = false →
        takeCounted n g s = forEach g (takeUnit n) (c.onLnk n fun l => { l with rxExp := (l.rxExp + 1) % 65536, ackSeen := true }))
      ∧ ((c.lnk n).mode = .take → wrongSeq (c.lnk n).rxExp g = true → takeCounted n g s = badGroup n c)
      ∧ ((c.lnk n).mode = .waitReplay → takeCounted n g s = c)
      ∧ (∀ k, (c.lnk n).mode = .skipTo k →
          (wrongSeq k g = true → takeCounted n g s = badGroup n c)
          ∧ (wrongSeq k g = false → takeCounted n g s = takeControls n g (c.onLnk n fun l =>
              { l with mode := if (k + 1) % 65536 = l.rxExp then .take else .skipTo ((k + 1) % 65536) }))))

/-! ### Discovery, learning and routing (file 04) -/

/-- DISC_START, DISC_RESTART, HELLO_SEND, QUIET, ATMO, HELLO, NBR, ASSIGN, EP_HELLO and EP_ACK complete (Tables 04-2 and 04-4). start
in IDLE begins discovery; restart in any other state clears placement, unlocked routes and assignments and begins it again. Automatic
placement elects from the switch's own serial with the quiet timer running; pinned coordinates inside their dimensions are taken, others
end UNPLACED. HELLO goes when due, every 1 ms in RUN and UNPLACED and every 10 µs before. The quiet timer ends ELECT: the root
collects, another reports to the root and awaits. The assign timer makes the root place the loom and a waiting switch join, or end
UNPLACED. A HELLO is a ROLE event on an endpoint port and is taken on a fabric port. On a fabric port that is not quarantined a
neighbour report is recorded under its reporter and part; an ASSIGN to relay goes to the neighbour that it names, and one for
this switch from its root places it in ELECT and AWAIT. An EP_HELLO quarantines a fabric port; on a waiting endpoint port it starts
a learn, or is answered NO_ID; in OFFER it is answered again. The acknowledgement of its own ID ends OFFER. -/
def Obligations.DiscoveryActs : Prop :=
  (∀ s : State,
      exec .discStart s = .next (kept s (settle (if dstate s = 0 then discEnable s else s)))
      ∧ exec .discRestart s = .next (kept s (settle (if dstate s = 0 then s else discEnable (clearDiscovery s))))
      ∧ (s.flag F.RTE_COORD_coord_mode = false → discEnable s = sendHellos (setDisc 1 (setRoot (ownSerial s)
          { s with disc := { s.disc with
              reports := [], helloAt := s.now, pinned := false, quietAt := some (s.now + tQuiet s) } })))
      ∧ (s.flag F.RTE_COORD_coord_mode = true →
          let u := setRoot (BitVec.allOnes 64) { s with disc := { s.disc with reports := [], helloAt := s.now, pinned := true } }
          discEnable s =
            if u.fld F.RTE_COORD_pin_row ≤ u.fld F.RTE_COORD_pin_rows_m1 ∧ u.fld F.RTE_COORD_pin_col ≤ u.fld F.RTE_COORD_pin_cols_m1
            then takePlace (u.fld F.RTE_COORD_pin_row) (u.fld F.RTE_COORD_pin_col) (u.fld F.RTE_COORD_pin_rows_m1)
              (u.fld F.RTE_COORD_pin_cols_m1) u
            else raise Cause.discUnplaced locNone (setDisc 5 u))
      ∧ exec .helloSend s = .next (kept s (settle (
          if dstate s = 0 ∨ s.now < s.disc.helloAt then s
          else sendHellos { s with disc := { s.disc with helloAt := s.now + (if 4 ≤ dstate s then 1000000 else 10000) } })))
      ∧ exec .quiet s = .next (kept s (settle (
          match s.disc.quietAt with
          | some t =>
            let u := { s with disc := { s.disc with quietAt := none, assignAt := some (s.now + tAssign s) } }
            if dstate s = 1 ∧ t ≤ s.now then
              (if rootSerial u = ownSerial u then nbrCheck (setDisc 2 u) else setDisc 3 (sendNbr u))
            else s
          | none => s)))
      ∧ exec .atmo s = .next (kept s (settle (
          match s.disc.assignAt with
          | some t =>
            let u := { s with disc := { s.disc with assignAt := none } }
            if t ≤ s.now then
              if dstate s = 2 then placement u
              else if dstate s = 3 then
                match joinRule s with
                | some (r, c, rm, cm) => takePlace r c rm cm u
                | none => raise Cause.discUnplaced locNone (setDisc 5 u)
              else s
            else s
          | none => s))))
  ∧ (∀ (s : State) (port : Fin 512) (c : Ctl),
      let n := port.val
      let k (t : BitVec 4) : Ctl := ctlOf 0x10 t c
      exec (.hello port c) s = .next (kept s (controlArrives n (k 1)
        (fun u => if isEp u n = true then portRole n u else if isFab u n = true then fabricHello n (k 1) u else u) s))
      ∧ exec (.nbr port c) s = .next (kept s (controlArrives n (k 2) (takeNbr n (k 2)) s))
      ∧ exec (.assign port c) s = .next (kept s (controlArrives n (k 3) (takeAssign n (k 3)) s))
      ∧ exec (.epHello port c) s = .next (kept s (controlArrives n (k 5) (epHello n (k 5)) s))
      ∧ exec (.epAck port c) s = .next (kept s (controlArrives n (k 7) (fun u =>
          if isEp u n = true ∧ pstate u n = pOffer ∧ bits (wordAt c.body 0).toNat 0 15 = portEp u n then
            setPstate n pAssigned u
          else u) s)))
  ∧ (∀ (s : State) (p : Nat) (c : Ctl),
      let w := (wordAt c.body 0).toNat
      let serial := c.w1 ++ c.w2
      let target := wordAt c.body 4 ++ wordAt c.body 0
      let a := (wordAt c.body 8).toNat
      let root := wordAt c.body 16 ++ wordAt c.body 12
      (isFab s p = true → quarantined s p = false →
        takeNbr p c s = nbrCheck { s with disc := { s.disc with
            reports := (s.disc.reports.filter fun r => !(r.1 == serial && r.2.1 == bits w 28 4))
              ++ [(serial, bits w 28 4, bits w 24 4,
                  (upTo (min 5 (bits w 21 3))).map fun i => wordAt c.body (8 + 8 * i) ++ wordAt c.body (4 + 8 * i))] } }
        ∧ takeAssign p c s =
            if bitOf a 11 = true then
              match portToward s target with
              | some q => sendAssign q target (bits a 27 5) (bits a 22 5) (bits a 17 5) (bits a 12 5) false root s
              | none => s
            else if target = ownSerial s ∧ root = rootSerial s ∧ (dstate s = 1 ∨ dstate s = 3) then
              takePlace (bits a 27 5) (bits a 22 5) (bits a 17 5) (bits a 12 5) s
            else s)
      ∧ (isFab s p = false ∨ quarantined s p = true → takeNbr p c s = s ∧ takeAssign p c s = s)
      ∧ (isFab s p = true → epHello p c s = quarantine p (F.PRT_DISC_STATUS_role p) Cause.portRole s)
      ∧ (isFab s p = false → isEp s p = true → pstate s p = pWait →
          let u := s.onPdisc p fun d => { d with epTags := bits w 0 12 + 1 }
          epHello p c s = if dstate s = 4 ∧ (localOf s p).isSome = true then submitLearn p serial u else sendEpAssign p 2 u)
      ∧ (isFab s p = false → isEp s p = true → pstate s p = pOffer → epHello p c s = sendEpAssign p 0 s))

/-- LEARN_COMMIT, WIN and CLR complete (R148, R149, R151). The arbiter of a die commits the learn of its lowest port in LEARN whose
commit is not done. A learn committed for 256 ns wins: OFFER, its ID shown, EP_ASSIGN sent; any other is left alone. CLR, unless the
port's die is held in reset, clears exactly the causes whose bit is written 1 and is set; when the last one goes an endpoint port
waits, or is DOWN with its link. -/
def Obligations.LearningAndQuarantine : Prop :=
  ∀ s : State,
    (∀ die : Fin 4, exec (.learnCommit die) s = .next (kept s (settle (
        match ((upTo 128).map (die.val * 128 + ·)).find? (fun p => pstate s p == pLearn &&
            match (s.pdisc p).learn with | some l => l.stamp.isNone | none => false) with
        | some p => commitLearn p s
        | none => s))))
    ∧ (∀ (port : Fin 512) (l : Learn) (t : Nat), (s.pdisc port.val).learn = some l → l.stamp = some t →
        let u := setPstate port.val pOffer s
        exec (.win port) s = .next (kept s (settle (
          if pstate s port.val = pLearn ∧ t + 256 ≤ s.tbase then
            sendEpAssign port.val 0 (u.wr (R.PRT_DISC_ID port.val) (BitVec.ofNat 32 (portEp u port.val)))
          else s))))
    ∧ (∀ port : Fin 512, (∀ l, (s.pdisc port.val).learn = some l → l.stamp = none) →
        exec (.win port) s = .next (kept s (settle s)))
    ∧ (∀ (port : Fin 512) (val : Word), inReset s (portDie port.val) = false →
        let u := forEach (quarCauses port.val) (fun c s => if bitOf val.toNat c.1.lo && s.flag c.1 then
            endLive c.2 (locPort port.val) (s.setFlag c.1 false) else s) s
        (quarantined s port.val = false ∨ quarantined u port.val = true →
          exec (.clr port val) s = .next (kept s (settle u)))
        ∧ (quarantined s port.val = true → quarantined u port.val = false → isFab u port.val = false →
          exec (.clr port val) s
            = .next (kept s (settle (setPstate port.val (if linkUp u port.val = true then pWait else pDown) u)))))
    ∧ (∀ (port : Fin 512) (val : Word), inReset s (portDie port.val) = true →
        exec (.clr port val) s = .next (kept s (settle s)))

/-- ROUTE_WRITE, VERSION_RETIRE and ORD_HOLD_RELEASE complete (R165 to R168). A write that is not aligned to its size of 4 or 8
bytes ends with Unsupported Request. A 64-bit write of a wide entry stores both halves and makes a version at once; a 32-bit write of
its lower half stages it, and one of its upper half makes a version with what is staged, or else with the newest lower half; a
32-bit write of a narrow entry makes a version. A version made with no other retiring becomes active under the next epoch, and
the old one retires while packets are in flight on it; one made while another retires is pending. A retiring version on which nothing
is in flight ends and the pending write applies. Once a change holds no longer, the packets held by it go on in their order. -/
def Obligations.RoutingVersions : Prop :=
  ∀ (s : State) (off : BitVec 26),
    let o := off.toNat
    (∀ (val : BitVec 64) (k : Nat), o % 8 = 0 → routeKey o = some k → isWide k = true →
      exec (.routeWrite off 8 val) s
        = .next (kept s (settle (writtenVersion k ((s.storeReg k (lo32 val)).storeReg (k + 4) (hi32 val))))))
    ∧ (∀ (val : BitVec 64) (k : Nat), o % 8 = 0 → routeKey o = some k → isWide k = false →
      exec (.routeWrite off 8 val) s = .next (kept s (settle (routeWrite32 (o + 4) (hi32 val) (routeWrite32 o (lo32 val) s)))))
    ∧ (∀ (val : BitVec 64) (k : Nat), o % 4 = 0 → routeKey o = some k →
      exec (.routeWrite off 4 val) s = .next (kept s (settle (
        if isWide k = true then
          if o = k then (s.storeReg k (lo32 val)).onRver k fun r => { r with staged := some (lo32 val) }
          else writtenVersion k ((s.storeReg k ((s.rver k).staged.getD (lo32 (latest s k)))).storeReg (k + 4) (lo32 val))
        else writtenVersion k (s.storeReg k (lo32 val))))))
    ∧ (∀ (size : Nat) (val : BitVec 64), ¬ (size = 8 ∧ o % 8 = 0) → ¬ (size = 4 ∧ o % 4 = 0) →
      exec (.routeWrite off size val) s = .next (kept s (settle (s.emit (.unsupported o)))))
    ∧ (∀ k : Nat, writtenVersion k s = newVersion k (entryWritten s k) true (s.onRver k fun r => { r with staged := none }))
    ∧ (∀ (k : Nat) (v : BitVec 64) (h : Bool), (s.rver k).retiring = none →
        newVersion k v h s = showSettled k (showEpoch k (s.onRver k fun r => { r with
          active := v, epoch := (r.epoch + 1) % 256, inflight := 0, pending := none,
          retiring := if r.inflight = 0 then none else some (r.epoch, r.inflight),
          retiredAt := if r.inflight ≠ 0 then none else if h || r.old.isNone then some s.now else r.retiredAt,
          old := if h then some (r.active, v) else r.old })))
    ∧ (∀ (k : Nat) (v : BitVec 64) (h : Bool) (x : Nat × Nat), (s.rver k).retiring = some x →
        newVersion k v h s = showSettled k (showEpoch k (s.onRver k fun r => { r with pending := some (v, h) })))
    ∧ (let k := if isWide o = true then o / 8 * 8 else o / 4 * 4
       let u := s.onRver k fun r => { r with retiring := none, retiredAt := some s.now, pending := none }
       (∀ e, (s.rver k).retiring = some (e, 0) → exec (.versionRetire off) s = .next (kept s (settle (
          match (s.rver k).pending with
          | some (v, h) => newVersion k v h u
          | none => showSettled k u))))
       ∧ ((∀ e, (s.rver k).retiring ≠ some (e, 0)) → exec (.versionRetire off) s = .next (kept s (settle s))))
    ∧ (holding s o = true → exec (.ordHoldRelease off) s = .next (kept s (settle s)))
    ∧ (holding s o = false →
        let u := { s with rte := { s.rte with held := s.rte.held.filter fun h => h.entry != o } }
        exec (.ordHoldRelease off) s = .next (kept s (settle (showSettled o
          (forEach (s.rte.held.filter fun h => h.entry == o) goOn
            (u.onRver o fun r => { r with old := none, retiredAt := none }))))))


/-! ### The switch core, scheduling and fabric time (files 05 and 06) -/

/-- ADMISSION, CROSSBAR_SLOT, EGRESS_ARBITRATION and HOL_FLUSH complete. Admission tries the head of what the port originates and then
the head of what it received: an empty list stays; a head whose shaper lets it go is let in when an account covers it, else in Q6 and
Q7 discarded, else let in if a push-out made room; a head that its shaper holds is counted once. A slot of the crossbar counts the held
heads, drops or pushes out at each die, lets every destination grant and every other source accept, and then moves each link's cells; a
transfer may be resent (log entry 111). A boundary of a port that is not UP sends nothing; with no room to replay it sends no link unit
of a packet; else a packet in progress goes on unless an express winner preempts it, a suspended one resumes unless an express one goes
first, and with none the winner of the arbitration starts. A queue Q2 to Q6 starved of credits for 2^hol_exp µs, hol_exp at most 20, is
flushed. -/
def Obligations.SwitchCoreActs : Prop :=
  (∀ (s : State) (port : Fin 512) (q : Fin 8),
      let d := portDie port.val
      exec (.admission port q) s = .next (kept s (settle (
        admitHead d (port.val * 8 + q.val) (admitHead d (originKey port.val q.val) s)))))
  ∧ (∀ (s : State) (d key : Nat),
      (s.waitQ key = [] → admitHead d key s = s)
      ∧ (∀ w rest c cs, s.waitQ key = w :: rest → w.copies = c :: cs →
          (ctxAllows s c = true →
            (∀ a, admitTo s d w.copies = some a → admitHead d key s = letIn a w (s.setWait key rest))
            ∧ (admitTo s d w.copies = none → 6 ≤ lowQueue w → admitHead d key s = discardUnadmitted w (s.setWait key rest))
            ∧ (admitTo s d w.copies = none → lowQueue w < 6 →
                (∀ a, admitTo (pushOut d s) d w.copies = some a →
                  admitHead d key s = letIn a w ((pushOut d s).setWait key rest))
                ∧ (admitTo (pushOut d s) d w.copies = none → admitHead d key s = pushOut d s)))
          ∧ (ctxAllows s c = false →
              admitHead d key s
                = if w.counted = true then s else (countHeld c.pkt s).setWait key ({ w with counted := true } :: rest))))
  ∧ (∀ s : State,
      let others (d : Nat) : List Nat := (upTo 4).filter (· != d)
      let ready := forEach (upTo 4) (fun e s => pushForCrossing e (dropUnadmitted e s)) (countCrossing s)
      let accepted := forEach (upTo 4) (fun e s => forEach (others e) (acceptStage (grants s e) · e) s) ready
      exec .crossbarSlot s
        = .next (kept s (settle (resendSome (forEach (upTo 4) (fun d s => forEach (others d) (slotMove d) s) accepted)))))
  ∧ (∀ (s : State) (port : Fin 512),
      let p := port.val
      let u := markStarved p s
      exec (.egressArbitration port) s = .next (kept s (settle (
        if linkUp u p = true then (if replayRoom u p = true then nextUnit p u else idleBoundary p u) else u))))
  ∧ (∀ (s : State) (p : Nat) (t : TxPkt), (s.lnk p).txCur = some t →
      (mayPreempt s p t = false → nextUnit p s = sendUnit p s)
      ∧ (mayPreempt s p t = true → arbitrate s p (express s p) = none → nextUnit p s = sendUnit p s)
      ∧ (∀ q ptr, mayPreempt s p t = true → arbitrate s p (express s p) = some (q, ptr) →
          nextUnit p s = sendUnit p (grant p q ptr ((s.bump (F.PRT_PREEMPT_CNT_count p)).onLnk p fun l =>
            { l with txSusp := some { t with resumed := true, since := 0 }, txCur := none, xpCount := 1 }))))
  ∧ (∀ (s : State) (p : Nat) (t : TxPkt), (s.lnk p).txCur = none → (s.lnk p).txSusp = some t →
      let more := (s.lnk p).xpCount < max 1 (s.fld (F.PRT_LL_CFG_xp_max p))
      (¬ more ∨ arbitrate s p (express s p) = none →
        nextUnit p s = sendUnit p (s.onLnk p fun l => { l with txCur := some t, txSusp := none, xpCount := 0 }))
      ∧ (∀ q ptr, more → arbitrate s p (express s p) = some (q, ptr) →
          nextUnit p s = sendUnit p (grant p q ptr (s.onLnk p fun l => { l with xpCount := l.xpCount + 1 }))))
  ∧ (∀ (s : State) (p : Nat), (s.lnk p).txCur = none → (s.lnk p).txSusp = none →
      (∀ q ptr, arbitrate s p (fun _ => true) = some (q, ptr) → nextUnit p s = sendUnit p (grant p q ptr s))
      ∧ (arbitrate s p (fun _ => true) = none → nextUnit p s = idleBoundary p s))
  ∧ (∀ (s : State) (port : Fin 512) (q : Fin 8),
      let k := port.val * 8 + q.val
      let e := s.fld (F.CBF_HOL_hol_exp (portDie port.val))
      (∀ c rest t, 2 ≤ q.val → q.val ≤ 6 → e ≤ 20 → s.eqQ k = c :: rest → (s.qsch k).starved = some t →
        exec (.holFlush port q) s = .next (kept s (settle (
          if creditsOf s port.val q.val < c.nLu ∧ t + 2 ^ e * 1000 ≤ s.now then flushQueue k (fun _ => false) s else s))))
      ∧ (q.val < 2 ∨ 6 < q.val ∨ 20 < e ∨ s.eqQ k = [] ∨ (s.qsch k).starved = none →
          exec (.holFlush port q) s = .next (kept s (settle s))))

/-- AGE_TICK, PROMOTION, SHED_OPEN, SHED_CLOSE, TREADLING_HANDOVER, FINE_SLOT, COARSE_SLOT, SAMPLE and SCH_LATE complete. At its
time the tick ages every eligible queue of Q2 to Q7 that was not granted and forgets the grants. A waiting queue of Q2 to Q7 whose age
exceeds a limit that is not 0 is promoted and counted once. A shed of an enabled treadling opens inside its window when none is open,
and closes outside it. A loaded treadling takes over at a period start. A calender that is due, in a die that runs, moves on by one
slot of 4,096 and deals with what sits there. A sample that is due bins the depth and the delay of each queue of each enabled port. A
late Q1 head is counted once. -/
def Obligations.SchedulingActs : Prop :=
  (∀ s : State,
      let aged (k : Nat) (u : State) : State :=
        if eligible u (k / 8) (k % 8) = true ∧ (u.qsch k).granted = false then u.onQsch k fun r => { r with age := r.age + 1 } else u
      let u := forEach ((s.core.eq.map (·.1)).filter fun k => 2 ≤ k % 8) aged s
      exec .ageTick s = .next (kept s (
        if s.tbase < s.sched.ageAt then s
        else { u with sched := { u.sched with
          q := Sparse.mapVals (fun _ => {}) (fun _ r => { r with granted := false }) u.sched.q
          ageAt := s.tbase / 1000 * 1000 + 1000 } }))
      ∧ exec .sample s = .next (kept s (
          if s.flag F.SCH_SAMP_CFG_samp_en = false ∨ s.now < s.sched.sampleAt then s
          else
            let iv := min 1000 (max 1 (s.fld F.SCH_SAMP_CFG_interval)) * 1000
            let v := { s with sched := { s.sched with sampleAt := s.now + iv } }
            let delay (u : State) (k : Nat) : Nat :=
              match u.eqQ k with | c :: _ => (u.tbase + 2 ^ 32 - c.stamp) % 2 ^ 32 / 32 | [] => 0
            forEach (enabledPorts v) (fun p u => forEach (upTo 8) (fun q u =>
              (u.bump (F.SCH_HIST_DEPTH_count (p * 8 + q) (sampleBin (queueCells (u.eqQ (p * 8 + q)))))).bump
                (F.SCH_HIST_DELAY_count (p * 8 + q) (sampleBin (delay u (p * 8 + q))))) u) v)))
  ∧ (∀ (s : State) (port : Fin 512) (q : Fin 8),
      let p := port.val
      let k := p * 8 + q.val
      let lim := s.fld (F.PRT_Q_CFG_starve_lim p q.val)
      exec (.promotion port q) s = .next (kept s (
        if 2 ≤ q.val ∧ lim ≠ 0 ∧ lim < (s.qsch k).age ∧ (s.qsch k).promoted = false ∧ s.eqQ k ≠ [] then
          (s.onQsch k fun r => { r with promoted := true }).bump (F.PRT_PROMO_CNT_count p q.val)
        else s)))
  ∧ (∀ (s : State) (port : Fin 512) (i : Nat),
      let p := port.val
      let inside (i : Nat) : Prop := shedStart (shedOf s p i) ≤ trdPhase s p ∧ trdPhase s p < shedEnd (shedOf s p i)
      exec (.shedOpen port i) s = .next (kept s (
        if s.flag (F.PRT_TRD_CFG_trd_en p) = true ∧ i < s.fld (F.PRT_TRD_SHEDS_count p) ∧ (s.psch p).openShed = none ∧ inside i then
          s.onPsch p fun r => { r with openShed := some i }
        else s))
      ∧ (∀ j, (s.psch p).openShed = some j →
          (inside j → exec (.shedClose port) s = .next (kept s s))
          ∧ (¬ inside j → exec (.shedClose port) s = .next (kept s (endShed p s))))
      ∧ ((s.psch p).openShed = none → exec (.shedClose port) s = .next (kept s s))
      ∧ (∀ l, (s.psch p).newTrd = some l →
          exec (.treadlingHandover port) s = .next (kept s (finishLoad (
            if periodNow s p = (s.psch p).newAfter ∧ trdPeriod s p ≠ 0 then s
            else (writeSheds p l (endShed p s)).onPsch p fun r => { r with newTrd := none }))))
      ∧ ((s.psch p).newTrd = none → exec (.treadlingHandover port) s = .next (kept s (finishLoad s)))
      ∧ exec (.schLate port) s = .next (kept s (
          if s.flag (F.PRT_TRD_CFG_trd_en p) = true ∧ s.eqQ (p * 8 + 1) ≠ [] ∧ (s.qsch (p * 8 + 1)).lateDone = false
              ∧ (s.qsch (p * 8 + 1)).headAt + trdPeriod s p < s.now then
            (s.onQsch (p * 8 + 1) fun r => { r with lateDone := true }).bump (F.PRT_SCH_LATE_CNT_count p)
          else s)))
  ∧ (∀ (s : State) (die : Fin 4),
      let d := die.val
      let runs := inReset s d = false ∧ inStandby s d = false
      let fine := (nth s.sched.fptr d + 1) % 4096
      let coarse := (nth s.sched.cptr d + 1) % 4096
      exec (.fineSlot die) s = .next (kept s (
        if runs ∧ nth s.sched.fineAt d ≤ s.now then
          let u := { s with sched := { s.sched with
            fptr := setAt s.sched.fptr d fine, fineAt := setAt s.sched.fineAt d (nth s.sched.fineAt d + 8) } }
          forEach (onSlot u d false fine) recheckShaper u
        else s))
      ∧ exec (.coarseSlot die) s = .next (kept s (
          if runs ∧ nth s.sched.coarseAt d ≤ s.now then
            let u := { s with sched := { s.sched with
              cptr := setAt s.sched.cptr d coarse, coarseAt := setAt s.sched.coarseAt d (nth s.sched.coarseAt d + 32000) } }
            forEach (onSlot u d true coarse) (fun k u =>
              match (u.qsch k).cal with
              | some c => if c.at_ - u.now ≤ 4095 * 8 then placeCal k (c.at_ - u.now) u else recheckShaper k u
              | none => u) u
          else s)))

/-- TIME_EXCHANGE, REQ and RSP complete. A placed switch that is not the master, with time_en, sends REQ at its interval to its parent
with the next sequence number; with no parent it is unlocked, and so it is at the fourth REQ that got no answer. A REQ on a fabric or
endpoint port is answered with its time and the time of arrival. An RSP that is not awaited, or of another number, counts as an error;
one that is awaited shows the offset, and steps fabric time when the offset is beyond 1 µs, else slews by it within the limit; a step, a
parent that is not locked and a second offset beyond 4 ns unlock, and the eighth good offset in a row locks. -/
def Obligations.FabricTimeExchange : Prop :=
  (∀ s : State,
      let due := s.flag F.SCH_TIME_CFG_time_en = true ∧ placed s = true ∧ s.flag F.SCH_TIME_STATUS_master = false
        ∧ s.time.nextAt ≤ s.now
      let u := { showParent s with time := { (showParent s).time with nextAt := s.now + syncNs (showParent s) } }
      (¬ due → exec .timeExchange s = .next (kept s (settle s)))
      ∧ (due → timeParent u = none → exec .timeExchange s
          = .next (kept s (settle (setTimeLocked false { u with time := { u.time with t1 := none } }))))
      ∧ (∀ k port, due → timeParent u = some (k, port) →
          let missed := if u.time.t1.isSome = true then u.time.missed + 1 else u.time.missed
          let v := { u with time := { u.time with missed := missed } }
          let w := if 4 ≤ missed then setTimeLocked false { v with time := { v.time with good := 0 } } else v
          let seq := (w.time.seq + 1) % 256
          let x := { w with time := { w.time with seq := seq, t1 := some (ftime w) } }
          exec .timeExchange s = .next (kept s (settle (
            originate port (.ctl (mkCtl 0x11 0 (0x1000 + seq) 0 0 7 (leBytes 8 (ftime x)))) x)))))
  ∧ (∀ (s : State) (port : Fin 512) (c : Ctl),
      let k (t : BitVec 4) : Ctl := ctlOf 0x11 t c
      exec (.req port c) s = .next (kept s (controlArrives port.val (k 1) (timeReq port.val (k 1)) s))
      ∧ exec (.rsp port c) s = .next (kept s (controlArrives port.val (k 2) (timeRsp port.val (k 2)) s)))
  ∧ (∀ (s : State) (p : Nat) (c : Ctl),
      let flags := ofBool (timeLocked s) * 2048 + ofBool (s.flag F.SCH_TIME_STATUS_master) * 1024
      (isFab s p = true ∨ isEp s p = true → timeReq p c s
        = originate p (.ctl (mkCtl 0x11 0 (0x2000 + flags + bits c.ks.toNat 0 8) 0 0 23
            (c.body.take 8 ++ leBytes 8 (ftime s) ++ leBytes 8 (ftime s)))) s)
      ∧ (isFab s p = false → isEp s p = false → timeReq p c s = s)
      ∧ (s.time.t1 = none ∨ bits c.ks.toNat 0 8 ≠ s.time.seq → timeRsp p c s = s.bump F.SCH_TIME_ERR_CNT_count)
      ∧ (∀ t, s.time.t1 = some t → bits c.ks.toNat 0 8 = s.time.seq →
          let o : Int := ((timeAt c 8 - timeAt c 0) - (Int.ofNat (ftime s) - timeAt c 16)) / 2
          let locked := bitOf c.ks.toNat 11
          let far := 256000 < o.natAbs
          let good := if locked = true ∧ o.natAbs ≤ 512 then s.time.good + 1 else 0
          let bad := if 1024 < o.natAbs then s.time.bad + 1 else 0
          let u := timeRsp p c s
          u.flag F.SCH_TIME_STATUS_locked
              = (if far ∨ locked = false ∨ 2 ≤ bad then false else if 8 ≤ good then true else timeLocked s)
            ∧ u.fld F.SCH_TIME_STATUS_err = errBits o ∧ u.time.t1 = none ∧ u.time.missed = 0 ∧ u.time.bad = bad
            ∧ (far → u.time.corr = 0 ∧ Int.ofNat u.time.val = (Int.ofNat (ftime s) + o) % 2 ^ 64)
            ∧ (¬ far → u.time.corr = max (-(Int.ofNat (syncNs s * 256 / 5000))) (min (Int.ofNat (syncNs s * 256 / 5000)) o)
                ∧ u.time.val = ftime s ∧ u.time.span = syncNs s)))

/-! ### Groups, trackers and watermarks (files 07 and 10) -/

/-- GROUP_COMMIT and GROUP_VERSION_RETIRE complete (R243, R271). A write of GRP_ENTRY_CTL with commit = 0 stages only; an accepted
commit clears cfg_err and makes the staged words a new version, or pends while a version retires; a refused one sets cfg_err. A
retiring version that nothing is in flight on ends, and a pending commit then makes its version. A new version takes the next serial
number; the version before it retires while something is in flight on it. -/
def Obligations.GroupVersions : Prop :=
  (∀ (s : State) (g : Fin 16384) (val : Word),
      let e := g.val
      let u := s.storeReg (R.GRP_ENTRY_CTL e) val
      let ok := u.setFlag (F.GRP_STATUS_cfg_err e) false
      exec (.groupCommit g val) s = .next (kept s (settle (
        if bitOf val.toNat 16 = false then u
        else if commitAccepted u e (stagedWords u e) = false then u.setFlag (F.GRP_STATUS_cfg_err e) true
        else if (s.grpE e).retiring.isSome = true then
          showEntry e (ok.setGrpE e { s.grpE e with pending := some (stagedWords u e) })
        else newVer e (stagedWords u e) ok))))
  ∧ (∀ (s : State) (g : Fin 16384),
      let e := g.val
      let u := s.setGrpE e { s.grpE e with retiring := none, pending := none }
      ((s.grpE e).retiring = none → exec (.groupVersionRetire g) s = .next (kept s (settle s)))
      ∧ (∀ vn ep, (s.grpE e).retiring = some (vn, ep) → verBusy s e vn = true →
          exec (.groupVersionRetire g) s = .next (kept s (settle s)))
      ∧ (∀ vn ep, (s.grpE e).retiring = some (vn, ep) → verBusy s e vn = false →
          (∀ w, (s.grpE e).pending = some w → exec (.groupVersionRetire g) s = .next (kept s (settle (newVer e w u))))
          ∧ ((s.grpE e).pending = none → exec (.groupVersionRetire g) s = .next (kept s (settle (showEntry e u))))))
  ∧ (∀ (s : State) (e : Nat) (words : List Word),
      let was := (s.grpE e).active
      let n := (newVer e words s).grpE e
      n.active = ⟨words, s.grp.nextVn⟩ ∧ n.pending = none ∧ (newVer e words s).grp.nextVn = s.grp.nextVn + 1
        ∧ n.retiring = (if verBusy s e was.vn = true then some (was.vn, vEpoch was) else none))

/-- IN, RES, SENT and TMO complete (Table 07-6). An input in transit that its context shaper does not hold leaves the transit and goes
to the open tracker of its pick, or to a free one: in ACC an accepted input is added, or overcounts. A packet that RES brings is taken
like any packet of its port: on a fabric port a group packet of stage 3 whose context is not in reset goes on to the second phase and
the result stores. A tracker in EMIT whose emission is done and has nothing left to enqueue returns its sheets, as the root folds its
watermark, and then waits with its timer running, as the root for its stores, or is free when it serves no member. A pick timer that is
past ends the pick TIMED_OUT and counts, and frees a failed tracker; in EMIT, and before its time, it does nothing. -/
def Obligations.TrackersFollowTheirTable : Prop :=
  (∀ (s : State) (i : Nat),
      (s.grp.transit[i]? = none → exec (.inEvent i) s = .next (kept s (settle s)))
      ∧ (∀ x, s.grp.transit[i]? = some x →
          let u := { s with grp := { s.grp with transit := s.grp.transit.eraseIdx i } }
          let g := grpPkt x.pkt
          let p := inputPick u x g
          (x.shaped ≠ 0 → exec (.inEvent i) s = .next (kept s (settle s)))
          ∧ (x.shaped = 0 → findTrk u g.ctx (groupId g.addr) p = none →
              exec (.inEvent i) s = .next (kept s (settle (inFree x g p u))))
          ∧ (∀ t r, x.shaped = 0 → findTrk u g.ctx (groupId g.addr) p = some (t, r) →
              exec (.inEvent i) s = .next (kept s (settle (inOpen t r x g u))))))
  ∧ (∀ (s : State) (i : Nat) (t : Tracker) (x : Input) (g : GrpPkt), t.st = .acc →
      (acceptedAs s t.ver x g t.pick = none → inOpen i t x g s = notAccepted x g t.pick s)
      ∧ (∀ who, acceptedAs s t.ver x g t.pick = some who →
          let told : Tracker := match who with
            | some b => if bitOf t.contrib b = true then t else { t with contrib := t.contrib + 2 ^ b }
            | none => t
          (inputPlace s t.ver t.exact x g t.pick = none → inOpen i t x g s = malformed x s)
          ∧ (∀ first count elems, inputPlace s t.ver t.exact x g t.pick = some (first, count, elems) →
              inOpen i t x g s
                = if t.arrived + elems ≤ t.expected then addInput i told x g first count elems s
                  else overcount i told (dropInput x s))))
  ∧ (∀ (s : State) (port : Fin 512) (p : Packet),
      let n := port.val
      let d := disarmed n s
      exec (.res port (.data p)) s = .next (kept s (
        if TakesPackets s n then
          settle (
            if p.queue = 7 ∧ isSvc d n = false then protoError n d
            else if restricted d n = true ∨ isSvc d n = true then
              giveCredits n p.queue.toNat (nLuOf (.data p)) (d.bump F.RTE_QUAR_DROP_CNT_count)
            else carryOut n p (mirSelect d false n (.data p)) (lookup n p d))
        else s)))
  ∧ (∀ (s : State) (port : Fin 512) (c : Ctl),
      let n := port.val
      let d := disarmed n s
      exec (.res port (.ctl c)) s = .next (kept s (
        if TakesPackets s n then settle (if FitsControl c then controlGood n c d else protoError n d) else s)))
  ∧ (∀ (s : State) (n : Nat) (p : Packet) (c : Ctl), isEp s n = false →
      (isGroupPkt p = true → (grpPkt (.data p)).stage = 3 → gateClosed s (grpPkt (.data p)).ctx = false →
        lookup n p s = resultFate n (.data p) s)
      ∧ (c.ckind = 1 → restricted s n = false → isSvc s n = false →
          controlGood n c s = fabricSacc n c (mirSelect s false n (.ctl c)) s)
      ∧ ((grpPkt (.ctl c)).stage = 3 → gateClosed s (grpPkt (.ctl c)).ctx = false →
          fabricGroup n (.ctl c) s = resultFate n (.ctl c) s))
  ∧ (∀ (s : State) (i : Fin 16384),
      (s.trkE i.val = none → exec (.sent i) s = .next (kept s (settle s)) ∧ exec (.tmo i) s = .next (kept s (settle s)))
      ∧ (∀ t, s.trkE i.val = some t →
          let busy := waitingCopy s (outCopy s t) = true ∨ s.rte.held.any (heldOut s t) = true
          let u := freeSheets i.val t s
          let v := if t.root = true then watermarkFold t u else u
          let r : Tracker := { t with sheets := [] }
          (t.st ≠ .emit ∨ t.emitted = false ∨ busy → exec (.sent i) s = .next (kept s (settle s)))
          ∧ (t.st = .emit → t.emitted = true → ¬ busy →
              exec (.sent i) s = .next (kept s (settle (
                if trkMembers v r = [] then freeTrk i.val r v
                else v.setTrk i.val (some (withTimer v { r with st := if t.root = true then .write else .wait })))))
              )
          ∧ (t.deadline = none → exec (.tmo i) s = .next (kept s (settle s)))
          ∧ (∀ due, t.deadline = some due →
              exec (.tmo i) s = .next (kept s (settle (
                if s.now ≤ due then s
                else match t.st with
                  | .failed => freeTrk i.val t s
                  | .emit => s
                  | .acc | .wait | .write => (endTrk i.val t 3 s).bump (F.CTX_PICK_TMO_CNT_count t.ctx)))))))

/-- ABORT, ABORT_DONE, STRAGGLER, HOME_TAB_REBUILD and TRACE_RING_ENABLE complete. A write of GLB_GRP_ABORT without go, or while one is
busy, changes the register only. A go answers BAD_GROUP for a group at or above grp_cnt; else, after what commits in the cycle, it ends
every open tracker that it names and answers ABORTED with their number, or ALREADY_COMPLETE. At the end busy clears, the result shows
and vector 5 is raised. A lag that has lasted its time is raised once, and logged when the log is free. The home table is rebuilt when
a weight has changed. Enabling the trace ring empties it, and any other write of its register keeps the records. -/
def Obligations.GroupControlActs : Prop :=
  (∀ (s : State) (val : Word),
      let w := s.storeReg R.GLB_GRP_ABORT val
      let busy := w.flag F.GLB_GRP_ABORT_STATUS_busy
      let ctx := w.fld F.GLB_GRP_ABORT_SEL_ctx
      let g := w.fld F.GLB_GRP_ABORT_SEL_group
      let u := w.setFlag F.GLB_GRP_ABORT_STATUS_busy true
      let done (r n : Nat) (s : State) : State := { s with grp := { s.grp with abortAt := some (r, n, s.now) } }
      let v := commits (forEach u.grp.trk (fun x => sentTrk x.1) u)
      let hit : List (Nat × Tracker) := v.grp.trk.filterMap fun x => match x.2 with
        | some t => if t.ctx == ctx && t.group == g && (bitOf val.toNat 30 || t.pick == bits val.toNat 0 23) then some (x.1, t) else none
        | none => none
      let ended := forEach hit (fun x => endTrk x.1 x.2 2) v
      exec (.abort val) s = .next (kept s (settle (
        if bitOf val.toNat 31 = false ∨ busy = true then w
        else if u.fld (F.CTX_GRP_grp_cnt ctx) ≤ g then done 3 0 u
        else done (if hit = [] then 2 else 1) hit.length ended))))
  ∧ (∀ s : State,
      (s.grp.abortAt = none → exec .abortDone s = .next (kept s (settle s)))
      ∧ (∀ r n t, s.grp.abortAt = some (r, n, t) →
          let u := ((s.setFlag F.GLB_GRP_ABORT_STATUS_busy false).setFld F.GLB_GRP_ABORT_STATUS_result r).setFld
            F.GLB_GRP_ABORT_STATUS_count n
          exec .abortDone s = .next (kept s (settle (raiseInt 5 { u with grp := { u.grp with abortAt := none } }))))
      ∧ exec .homeTabRebuild s
          = .next (kept s (if s.grp.tabDue = true then { s with grp := { s.grp with homeTab := buildHome s, tabDue := false } } else s)))
  ∧ (∀ (s : State) (g : Fin 16384) (slot : Fin 131072),
      let e := g.val
      let n := slot.val
      let time := bits (vw (s.grpE e).active 13) 16 16
      (∀ r ctx grp m, lagRec s (lagKey e n) = some r → groupOf s e = some (ctx, grp) →
        (members s (s.grpE e).active).find? (·.slot == n) = some m →
          let u := { s with grp := { s.grp with
            lag := Sparse.put (fun _ => none) s.grp.lag (lagKey e n) (some { r with raised := true }) } }
          let logged := if u.flag F.GLB_GRP_STRAG_LOG0_valid = true then u
            else
              let v := u.wr R.GLB_GRP_STRAG_LOG0 (BitVec.ofNat 32 (2 ^ 31 + ctx * 2 ^ 14 + grp))
              v.wr R.GLB_GRP_STRAG_LOG1 (BitVec.ofNat 32 (epId v m.local_ * 2 ^ 17 + n))
          exec (.straggler g slot) s = .next (kept s (
            if time = 0 ∨ r.raised = true ∨ s.now < r.since + time * 1000 then s
            else raiseFor Cause.grpStraggler (locGroup ctx grp) ctx logged)))
      ∧ (lagRec s (lagKey e n) = none ∨ groupOf s e = none
          ∨ (members s (s.grpE e).active).find? (·.slot == n) = none →
        exec (.straggler g slot) s = .next (kept s s)))
  ∧ (∀ (s : State) (val : Word),
      let u := s.storeReg R.WMK_TRC_CFG val
      exec (.traceRingEnable val) s = .next (kept s (
        if s.flag F.WMK_TRC_CFG_en = false ∧ u.flag F.WMK_TRC_CFG_en = true then
          forEach (upTo (u.fld F.WMK_TRC_STATUS_count)) (fun i v => v.setFlag (F.WMK_TRC_REC0_valid i) false)
            ((u.setFld F.WMK_TRC_STATUS_count 0).setFlag F.WMK_TRC_STATUS_full false)
        else u)))

/-- SNAP completes: a snapshot copies the live watermark and its count, clears them and advances the sequence by one modulo 65,536;
every other register is unchanged, and so are the memories, the trackers and the fabric. -/
def Obligations.SnapshotCopiesAndClears : Prop :=
  ∀ (s : State) (g : Fin 16384),
    let e := g.val
    ∃ t, exec (.snap g) s = .next t
      ∧ t.rd (R.WMK_SNAP_LO e) = s.rd (R.WMK_SUM_LO e) ∧ t.rd (R.WMK_SNAP_HI e) = s.rd (R.WMK_SUM_HI e)
      ∧ t.rd (R.WMK_SNAP_CNT e) = s.rd (R.WMK_CNT e)
      ∧ t.rd (R.WMK_SUM_LO e) = 0 ∧ t.rd (R.WMK_SUM_HI e) = 0 ∧ t.rd (R.WMK_CNT e) = 0
      ∧ t.fld (F.WMK_SNAP_SEQ_seq e) = (s.fld (F.WMK_SNAP_SEQ_seq e) + 1) % 65536
      ∧ (∀ o, o ≠ R.WMK_SNAP_LO e → o ≠ R.WMK_SNAP_HI e → o ≠ R.WMK_SNAP_CNT e → o ≠ R.WMK_SUM_LO e → o ≠ R.WMK_SUM_HI e →
          o ≠ R.WMK_CNT e → o ≠ R.WMK_SNAP_SEQ e → t.rd o = s.rd o)
      ∧ t.mem = s.mem ∧ t.grp = s.grp ∧ t.fab = s.fab

/-! ### Shuttles (files 08, 09 and 13) -/

/-- ADD, PART, RESULT, FORWARD, DRAIN, FILL, COPY and UNLOAD complete. In a die held in reset they do nothing; nor does a descriptor
command with no such descriptor in progress. Else the descriptor leaves its queue. Of a tracker whose run is over nothing more happens.
An ADD adds each decoded value to its accumulator from the first slot on, or ends the pick when a slot lies outside its sheets. PART sends
the partial's packets to the switch that its descriptor names; a RESULT loads the context, counts and sends each packet of the result
along the first and the second line and to the members; each ends the emission. A FORWARD copies every sheet to the target and queues
DRAIN there, which moves the tracker and releases what waited. A word that cannot be corrected ends the pick instead. FILL writes its
pattern and COPY copies sheets, with status 0, or 2 for a COPY of a word that cannot be corrected. UNLOAD clears the loaded context. -/
def Obligations.DescriptorsRun : Prop :=
  ∀ (s : State) (sh : Fin 544),
    let p := sh.val
    let first (dops : List Nat) (ok : Desc → Bool) : Option (Nat × Desc) := inProgress s p dops ok
    (inReset s (p / 136) = true →
      (∀ c ∈ [Instr.add sh, .part sh, .result sh, .forward sh, .drain sh, .fill sh, .copy sh],
        exec c s = .next (kept s (settle s)))
      ∧ exec (.unload sh) s = .next (kept s s))
    ∧ (inReset s (p / 136) = false →
      (first [1] (fun d => dSrc d != 1) = none → exec (.add sh) s = .next (kept s (settle s)))
      ∧ (∀ i d, first [1] (fun d => dSrc d != 1) = some (i, d) →
          let u := dropDesc p i s
          (trkOf s d = none ∨ d.pkt = none → exec (.add sh) s = .next (kept s (settle u)))
          ∧ (∀ t pk, trkOf s d = some t → d.pkt = some pk →
              let vals := inputValues t.ver t.exact (smgD s t.ctx) (grpPkt pk)
              let x := readSlots t d.first vals.length u
              exec (.add sh) s = .next (kept s (settle (
                if t.sheets.length ≤ (d.first + vals.length - 1) / slotsPerSheet t.ver then
                  overcount d.trk t (raiseFor Cause.shtIso (locSht p) t.ctx (u.bump (F.SHT_ISO_CNT_count p)))
                else if x.1 = true then endTrk d.trk t 2 x.2
                else forEach vals.zipIdx (fun y => slotAdd t (smgD s t.ctx) (d.first + y.2) y.1)
                  (x.2.onSht p fun r => { r with addends := r.addends + vals.length }))))))
      ∧ (first [2] (fun d => dSrc d != 1) = none → exec (.part sh) s = .next (kept s (settle s)))
      ∧ (∀ i d, first [2] (fun d => dSrc d != 1) = some (i, d) →
          let u := dropDesc p i s
          (trkOf u d = none → exec (.part sh) s = .next (kept s (settle u)))
          ∧ (∀ t, trkOf u d = some t →
              let dd := smgD u t.ctx
              let x := readSlots t 0 (pickSlots t.ver dd t.pick) u
              let ps := partPackets x.2 t
              let packet (s : State) (y : Nat × Nat × List Byte) : Pkt :=
                groupPacket s t (bits d.w1.toNat 10 2) y.2.1 y.1 (vIn t.ver) (partAddr t.ver dd t.ctx t.group t.pick y.1) y.2.2
              exec (.part sh) s = .next (kept s (settle (
                if x.1 = true then endTrk d.trk t 2 x.2
                else (forEach ps.1 (fun y s => sendToward true (packet s y) (groupHash x.2 t.ver t.ctx t.group)
                    (bits d.w2.toNat 27 5) (bits d.w2.toNat 22 5) s) (x.2.bumpBy F.GLB_NUM_OVF_CNT_count ps.2)).setTrk d.trk
                  (some { t with emitted := true }))))))
      ∧ (firstResult s p = none → exec (.result sh) s = .next (kept s (settle s)))
      ∧ (∀ i d, firstResult s p = some (i, d) →
          let u := dropDesc p i s
          (trkOf u d = none → exec (.result sh) s = .next (kept s (settle u)))
          ∧ (∀ t, trkOf u d = some t →
              let l := loadContext p t.ctx u
              let dd := smgD l t.ctx
              let n := pickSlots t.ver dd t.pick
              let x := readSlots t 0 n l
              let f := formResult t dd (x.2.sht p).egr (x.2.sht p).mtx ((upTo n).map (slotGet x.2 t))
              let v := ((x.2.bumpBy F.GLB_NUM_OVF_CNT_count f.ovf).bumpBy F.GLB_NUM_NAN_CNT_count f.nan).bumpBy
                F.GLB_SMG_REF_CNT_count f.ref
              let packs := cutResult ((outLayout t.ver dd).size (t.pick * pickE t.ver)) f.units none
              let h := groupHash v t.ver t.ctx t.group
              let act := (v.grpE t.entry).active
              let line1 := if t.treeB = true then vw t.ver 7 else vw t.ver 6
              let line2 := if vValid act = false then 0 else if t.treeB = true then vw act 9 else vw act 8
              let send (y : Nat × List Byte) (s : State) : State :=
                let pk := groupPacket s t 3 0 0 (vOut t.ver) (mkGroupAddr t.ctx t.group y.1) y.2
                let a := castTargets s 0x3FF t.treeB line1 h pk
                let b := castTargets s 0x3FF (!t.treeB) line2 h pk
                castDrops (a.2 + b.2) locNone t.ctx
                  (sendOwn (a.1 ++ b.1 ++ storeTargets s 0x3FF t y.1 y.2.length y.2) s)
              exec (.result sh) s = .next (kept s (settle (
                if x.1 = true then endTrk d.trk t 2 x.2
                else (forEach packs send v).setTrk d.trk (some { t with
                  emitted := true, results := packs, rootEpoch := if vShort t.ver = true then 0 else vEpoch t.ver }))))))
      ∧ (first [4] (fun d => dSrc d == 2) = none → exec (.forward sh) s = .next (kept s (settle s)))
      ∧ (∀ i d, first [4] (fun d => dSrc d == 2) = some (i, d) →
          let u := dropDesc p i s
          (trkOf u d = none → exec (.forward sh) s = .next (kept s (settle u)))
          ∧ (∀ t, trkOf u d = some t →
              let q := p / 136 * 136 + bits d.w2.toNat 0 8
              let x := t.sheets.foldl
                (fun x k => let y := readSheets (sheetKey p k 0) 4096 x.2; (x.1 || y.1, y.2)) (false, u)
              let v := forEach t.sheets (fun k => copySheets p k q k 1) x.2
              exec (.forward sh) s = .next (kept s (settle (
                if x.1 = true then endTrk d.trk t 2 x.2 else pushDesc q (trkDesc v d.trk t 5 2 0 0 0) v)))))
      ∧ (first [5] (fun d => dSrc d == 2) = none → exec (.drain sh) s = .next (kept s (settle s)))
      ∧ (∀ i d, first [5] (fun d => dSrc d == 2) = some (i, d) →
          let u := dropDesc p i s
          (trkOf u d = none → exec (.drain sh) s = .next (kept s (settle u)))
          ∧ (∀ t, trkOf u d = some t → exec (.drain sh) s = .next (kept s (settle (startDescs p
              ((u.setTrk d.trk (some { t with phys := p, draining := false })).onSht p fun r => { r with
                dq := r.dq.map fun x => if x.trk == d.trk && x.run == d.run then { x with hold := false } else x }))))))
      ∧ (first [0x10] (fun _ => true) = none → exec (.fill sh) s = .next (kept s (settle s)))
      ∧ (∀ i d, first [0x10] (fun _ => true) = some (i, d) →
          let sheet := bits d.w2.toNat 16 8
          let n := min (bits d.w2.toNat 0 8 + 1) (256 - sheet)
          let a := sheetKey p sheet 0
          exec (.fill sh) s = .next (kept s (settle (dropDesc p i (softDone p 0 (
            if d.w3 = 0 then zeroRange a (a + n * 4096) s
            else writeBytes State.setSheetByte a ((upTo (n * 1024)).flatMap fun _ => wordBytes d.w3)
              (clearWords a (n * 4096) s)))))))
      ∧ (first [0x11] (fun _ => true) = none → exec (.copy sh) s = .next (kept s (settle s)))
      ∧ (∀ i d, first [0x11] (fun _ => true) = some (i, d) →
          let sheet := bits d.w2.toNat 16 8
          let dst := bits d.w2.toNat 8 8
          let to_ := bits d.w3.toNat 0 8
          let n := min (bits d.w2.toNat 0 8 + 1) (min (256 - sheet) (256 - to_))
          let x := readSheets (sheetKey p sheet 0) (n * 4096) s
          exec (.copy sh) s = .next (kept s (settle (dropDesc p i (
            if x.1 = true then softDone p 2 x.2
            else softDone p 0 (if dst < 136 then copySheets p sheet (p / 136 * 136 + dst) to_ n x.2 else x.2))))))
      ∧ exec (.unload sh) s
          = .next (kept s ((s.setFlag (F.SHT_STATUS_ctx_vld p) false).setFld (F.SHT_STATUS_ctx p) 0)))

/-- What a FILL with pattern 0 and a COPY leave in the scratchpads: the named bytes hold 0, or the bytes of the source sheets as they
were; every byte outside the range written is unchanged, and so are the flash, the capture buffer and the record. -/
def Obligations.ScratchpadWritesStayInRange : Prop :=
  (∀ (s : State) (a b x : Nat), s.mem.wf = true →
      (zeroRange a b s).sheetByte x = (if a ≤ x ∧ x < b then 0 else s.sheetByte x)
        ∧ (zeroRange a b s).mem.flash = s.mem.flash ∧ (zeroRange a b s).mem.cap = s.mem.cap
        ∧ (zeroRange a b s).mem.sel = s.mem.sel)
  ∧ (∀ (s : State) (p i q j n x : Nat), s.mem.wf = true →
      let a := sheetKey p i 0
      let b := sheetKey q j 0
      (copySheets p i q j n s).sheetByte x
          = (if b ≤ x ∧ x < b + n * 4096 then s.sheetByte (a + (x - b)) else s.sheetByte x)
        ∧ (copySheets p i q j n s).mem.flash = s.mem.flash ∧ (copySheets p i q j n s).mem.cap = s.mem.cap
        ∧ (copySheets p i q j n s).mem.sel = s.mem.sel)

/-- WAKE, POWER_UP_PLACE, WAKE_DONE, PARK and OFF complete (R337 to R339). In a die held in reset they do nothing. A parked shuttle
wakes with its place and one that is off without, and both are counted; a FAILED one, and one of a die that does not run, does not wake;
any other becomes busy anew. Of the wakes from OFF the lowest without a place gets one of the die's eight. A wake that has its place
ends in RUN, from OFF with no context loaded, and what waited is taken. A running shuttle with park_en and nothing queued parks after
its idle time, and a parked one with off_en goes off after its time. -/
def Obligations.ShuttlePowerStates : Prop :=
  (∀ (s : State) (sh : Fin 544),
      let p := sh.val
      let r := s.sht p
      let st := shtP s p
      (inReset s (p / 136) = true →
        (∀ c ∈ [Instr.wake sh, .park sh, .off sh], exec c s = .next (kept s s))
        ∧ exec (.wakeDone sh) s = .next (kept s (settle s)))
      ∧ (inReset s (p / 136) = false →
          let woken (fromOff : Bool) : State := setShtP p 3 (s.onSht p fun r =>
            { r with fromOff := fromOff, placed := !fromOff, wakeAt := s.now })
          exec (.wake sh) s = .next (kept s (
            if shtRole s p = 3 ∨ dieRuns s (p / 136) = false then s
            else if st = 1 then (woken false).bump (F.SHT_WAKE_PARK_CNT_count p)
            else if st = 2 then (woken true).bump (F.SHT_WAKE_OFF_CNT_count p)
            else s.onSht p fun r => { r with idleAt := s.now }))
          ∧ exec (.wakeDone sh) s = .next (kept s (settle (
              if st = 3 ∧ r.placed = true then
                takeStub r.stub (startDescs p (setShtP p 0 ((if r.fromOff = true then unloadSht p s else s).onSht p fun x =>
                  { x with stub := [], placed := false, fromOff := false, idleAt := s.now })))
              else s)))
          ∧ exec (.park sh) s = .next (kept s (
              if st = 0 ∧ s.flag (F.SHT_CTL_park_en p) = true ∧ r.dq = [] ∧ r.stub = []
                  ∧ r.idleAt + max 1 (s.fld (F.SHT_CTL_park_idle p)) * 32 ≤ s.now then
                setShtP p 1 (s.onSht p fun r => { r with idleAt := s.now })
              else s))
          ∧ exec (.off sh) s = .next (kept s (
              if st = 1 ∧ s.flag (F.SHT_CTL_off_en p) = true
                  ∧ r.idleAt + s.fld (F.SHT_CTL_off_idle p) * 1000 ≤ s.now then setShtP p 2 s
              else s))))
  ∧ (∀ (s : State) (die : Fin 4),
      let d := die.val
      let waiting := (upTo 136).find? fun i =>
        shtP s (d * 136 + i) == 3 && (s.sht (d * 136 + i)).fromOff && !(s.sht (d * 136 + i)).placed
      exec (.powerUpPlace die) s = .next (kept s (
        if inReset s d = false ∧ placesUsed s d < 8 then
          match waiting with
          | some i => s.onSht (d * 136 + i) fun r => { r with placed := true, wakeAt := s.now }
          | none => s
        else s)))

/-- MIGRATION, SHEETS_CLEARED, SWITCH_CYCLE, REDIRECT_RELEASE, REWEIGHT, CMD_TMO and SHT_HANG complete. A write of GLB_SHT_MIG without
go, or while one is busy, changes the register only; a go whose target is outside the die, not SPARE or on a die that does not run answers
BAD_TARGET, one of a mapped shuttle whose die holds eight redirect entries NO_REDIRECT, and any other starts. A target that is awake is
cleared, and a forced migration switches then; the switch cycle of another moves the window and the map once no line is transient. The
old shuttle becomes SPARE once no tracker is recorded on it. At the end of its interval a running die reweights and its shuttles' rates
restart. A descriptor past its time is stopped, counted and raised, and its pick ends TIMED_OUT, or a software one ends with status 2. A
hung shuttle is raised; with none carried its trackers end and it is off and FAILED; one carried migrates by force to the lowest spare, or
without auto_mig, a free migration and a spare becomes unmapped with its lines lost. -/
def Obligations.MigrationAndShuttleTimers : Prop :=
  (∀ (s : State) (val : Word),
      let u := s.storeReg R.GLB_SHT_MIG val
      let L := bits val.toNat 0 9
      let die := L / 128
      let q := die * 136 + bits val.toNat 9 8
      let full := 8 ≤ (u.shts.redirect.filter fun x => x.1 / 136 == die).length
      exec (.migration val) s = .next (kept s (
        if bitOf val.toNat 31 = false ∨ u.flag F.GLB_SHT_MIG_STATUS_busy = true then u
        else if 136 ≤ bits val.toNat 9 8 ∨ shtRole u q ≠ 0 ∨ dieRuns u die = false then u.setFld F.GLB_SHT_MIG_STATUS_result 2
        else if u.flag (F.GLB_SHT_MAP_valid L) = true ∧ full then u.setFld F.GLB_SHT_MIG_STATUS_result 3
        else startMigration L q (bitOf val.toNat 30) u)))
  ∧ (∀ s : State,
      let u := forEach (s.shts.panel.filter (clearDue s)) clearTarget
        { s with shts := { s.shts with panel := s.shts.panel.map fun m => if clearDue s m then { m with cleared := true } else m } }
      (u.shts.mig = none → exec .sheetsCleared s = .next (kept s (settle u)))
      ∧ (∀ m, u.shts.mig = some m →
          let n : Mig := { m with cleared := true }
          let v := clearTarget m u
          let w := { v with shts := { v.shts with mig := some n } }
          exec .sheetsCleared s = .next (kept s (settle (
            if clearDue u m = true then (if m.force = true then forceSwitch n w else w) else u))))
      ∧ (s.shts.mig = none → exec .switchCycle s = .next (kept s (settle (beginDrain s))))
      ∧ (∀ m, s.shts.mig = some m → exec .switchCycle s = .next (kept s (settle (beginDrain (
          if switchReady s m = true then windowBack m.frozen (endMigration (switchOne m s)) else s))))))
  ∧ (∀ (s : State) (sh : Fin 544),
      exec (.redirectRelease sh) s = .next (kept s (
        if shtRole s sh.val = 2 ∧ recordedOn s sh.val = false then setRole sh.val 0 (dropRedirect sh.val s) else s)))
  ∧ (∀ (s : State) (die : Fin 4) (busy : List Nat),
      let d := die.val
      let iv := s.fld F.GLB_SHT_RW_CFG_rw_int * 1000
      let off := inReset s d = true ∨ inStandby s d = true ∨ iv = 0 ∨ s.now < nth s.shts.rwAt d + iv
      let u := { s with shts := { s.shts with rwAt := setAt s.shts.rwAt d s.now, rwDone := setAt s.shts.rwDone d true } }
      let weigh (i : Nat) (u : State) : State :=
        let L := d * 128 + i
        match physOf u L with
        | none => u
        | some p =>
          let b := nth busy (p % 136)
          if u.flag (F.GLB_SHT_MAP_auto L) = true ∧ iv ≤ b * 100 ∧ b ≠ 0 then
            setWeight L (newWeight (u.fld (F.GLB_SHT_MAP_wmax L)) (u.sht p).addends b) u
          else u
      let restart (i : Nat) (u : State) : State :=
        let p := d * 136 + i
        (u.setFld (F.SHT_RATE_rate p) (rate64 (u.sht p).addends (nth busy i))).onSht p fun r => { r with addends := 0 }
      exec (.reweight die busy) s = .next (kept s (
        if off then s else forEach (upTo 136) restart (forEach (upTo 128) weigh u))))
  ∧ (∀ (s : State) (sh : Fin 544),
      let p := sh.val
      let due : Desc × Nat → Bool := fun x => match x.1.startAt with
        | some t => decide (t + cmdTmoNs s (dCtx x.1) < s.now)
        | none => false
      (inReset s (p / 136) = true ∨ (s.sht p).dq.zipIdx.find? due = none →
        exec (.cmdTmo sh) s = .next (kept s (settle s)))
      ∧ (∀ d i, inReset s (p / 136) = false → (s.sht p).dq.zipIdx.find? due = some (d, i) →
          let u := raiseFor Cause.cmdTmo (locSht p) (dCtx d) ((dropDesc p i s).bump (F.CTX_CMD_TMO_CNT_count (dCtx d)))
          exec (.cmdTmo sh) s = .next (kept s (settle (
            if dSrc d = 1 then softDone p 2 u
            else match trkOf s d with
              | some t => timeOutTrk d.trk t u
              | none => u))))
      ∧ (inReset s (p / 136) = true ∨ isHung s p = false → exec (.shtHang sh) s = .next (kept s (settle s)))
      ∧ (inReset s (p / 136) = false → isHung s p = true →
          let u := raise Cause.shtHang (locSht p) s
          let spare := (upTo 136).find? fun i => shtRole u (p / 136 * 136 + i) == 0
          let auto := u.flag F.FLT_HANG_CFG_auto_mig = true ∧ u.shts.mig = none
          (carried u p = none → exec (.shtHang sh) s = .next (kept s (settle (killSht p (dropRedirect p (abortOn p u))))))
          ∧ (∀ L, carried u p = some L →
              (∀ i, spare = some i → auto → exec (.shtHang sh) s = .next (kept s (settle (
                (killSht p (abortOn p (startMigration L (p / 136 * 136 + i) true u))).onSht p fun r =>
                  { r with stub := (u.sht p).stub }))))
              ∧ (spare = none ∨ ¬ auto → exec (.shtHang sh) s = .next (kept s (settle (
                  restub (u.sht p).stub (loseLines L (killSht p (abortOn p (unmapSht L u)))))))))))

/-! ### Lanes (file 11) -/

/-- TRAINING_FRAME, FLL, AD, JOIN, CWLOSS, RT and TTMO complete (R379 to R384). A lane that is off hears no frame; elsewhere CDR lock
is as the frame finds it, and then a block whose CRC fails only restarts the frame count, one of a reserved type counts on the port, and
a good one is taken. Frame loss takes ADAPT, READY and SYNC to DETECT and restarts the count in DETECT. An adapted receiver is READY. A
port that is enabled, with its link down and no lane in SYNC, joins when all its lanes are trained or 40 ms after the first: the lowest
power of two of them, at least min_w, or else PORT_WIDTH_LOW. Codeword loss takes an ACTIVE lane to DETECT, with a loss of the link when
the lane was in its set. RT on an ACTIVE lane of a port that is UP proposes the set without it, and elsewhere takes the lane to DETECT
unless it is off. A lane 40 ms in DETECT and ADAPT goes to DETECT again, failed when it heard a signal. -/
def Obligations.LaneTraining : Prop :=
  (∀ (s : State) (lane : Fin 512) (cdr : Bool) (block : BitVec 128),
      let n := lane.val
      let v := block.toNat
      let u := cdrLock n cdr s
      exec (.trainingFrame lane cdr block) s = .next (kept s (settle (
        if lstate s n = 0 then s
        else if crc32c (leBytes 12 (bits v 0 96)) ≠ BitVec.ofNat 32 (bits v 96 32) then
          u.onLane n fun l => { l with marks := 0, signal := true }
        else if 2 ≤ bits v 0 4 then
          match portOfLane u n with
          | some p => u.bump (F.PRT_LANE_PROTO_CNT_count p)
          | none => u
        else goodFrame n cdr block u))))
  ∧ (∀ (s : State) (n : Nat) (cdr : Bool) (block : BitVec 128),
      let v := block.toNat
      let u := s.onLane n fun l => { l with signal := true, txPrecode := bitOf v 5 }
      let w := u.onLane n fun l => { l with marks := l.marks + 1 }
      let h := hearReady n (bitOf v 4) u
      (lstate s n = 1 → goodFrame n cdr block s
        = if cdr = true ∧ 4 ≤ (w.lane n).marks then w.setFld (F.LNE_STATUS_state n) 2 else w)
      ∧ (lstate s n ≠ 1 →
          (∀ p, portOfLane h n = some p → bits v 0 4 = 1 → lstate s n = 3 ∨ lstate s n = 4 →
            goodFrame n cdr block s = syncFrame p n (bits v 8 8) (bits v 6 2) h)
          ∧ (portOfLane h n = none ∨ bits v 0 4 ≠ 1 ∨ (lstate s n ≠ 3 ∧ lstate s n ≠ 4) → goodFrame n cdr block s = h)))
  ∧ (∀ (s : State) (lane : Fin 512),
      let n := lane.val
      let st := lstate s n
      let u := (s.setFld (F.LNE_STATUS_state n) 3).onLane n fun l => { l with ready := true }
      exec (.fll lane) s = .next (kept s (settle (
        if st = 2 ∨ st = 3 ∨ st = 4 then toDetect n s
        else if st = 1 then s.onLane n fun l => { l with marks := 0 } else s)))
      ∧ exec (.ad lane) s = .next (kept s (
          if st = 2 then
            (if (u.lane n).eqWord.getLsbD 29 = true then u
             else u.withFree fun f v => v.onLane n fun l => { l with eqWord := putBits l.eqWord 24 5 f })
          else s))
      ∧ (st ≠ 5 → exec (.cwloss lane) s = .next (kept s (settle s)))
      ∧ (st = 5 → portOfLane s n = none → exec (.cwloss lane) s = .next (kept s (settle (toDetect n s))))
      ∧ (∀ p, st = 5 → portOfLane s n = some p →
          let inSet := bitOf (s.fld (F.PRT_LANE_STATUS_active p)) (n - p) = true ∨ bitOf (s.pln p).rxMask (n - p) = true
          let d := (toDetect n s).withFree fun f v => if f % 2 = 1 then v.setFlag (F.LNE_STATUS_cdr_lock n) false else v
          let w := if (portLanes d p).any (fun m => lstate d m == 5) = true then
              d.onPln p fun l => { l with firstTrained := some (l.firstTrained.getD d.now) } else d
          exec (.cwloss lane) s = .next (kept s (settle (if inSet then linkLoss p w else w))))
      ∧ (inReset s (n / 128) = true → exec (.rt lane) s = .next (kept s (settle s)))
      ∧ (inReset s (n / 128) = false →
          (∀ p, portOfLane s n = some p → st = 5 → linkUp s p = true →
            exec (.rt lane) s = .next (kept s (settle (needPropose p true (narrowMask s p [n]) s))))
          ∧ ((∀ p, portOfLane s n = some p → ¬ (st = 5 ∧ linkUp s p = true)) →
            exec (.rt lane) s = .next (kept s (settle (if st = 0 then s else toDetect n s)))))
      ∧ (∀ signal : Bool,
          let failed := raise Cause.laneTrainFail (locLane n)
            ((s.bump (F.LNE_TRAIN_FAIL_CNT_count n)).setFlag (F.LNE_STATUS_failed n) true)
          exec (.ttmo lane signal) s = .next (kept s (settle (
            if (st = 1 ∨ st = 2) ∧ (s.lane n).timer + 40000000 ≤ s.now then toDetect n (if signal = true then failed else s)
            else s)))))
  ∧ (∀ (s : State) (port : Fin 512),
      let p := port.val
      let ok := (portLanes s p).filter fun n => lstate s n == 5 || trained s n
      let may := portOn s p = true ∧ llState s p = 0 ∧ (portLanes s p).any (fun n => lstate s n == 4) = false
      let late := match (s.pln p).firstTrained with | some t => t + 40000000 ≤ s.now | none => False
      let k := pow2Floor ok.length
      let mask := maskOf p (ok.take k)
      let u := endLive Cause.portWidthLow (locPort p) s
      let joined := mask = u.fld (F.PRT_LANE_STATUS_active p) ∧ (ok.take k).all (fun n => lstate u n == 5) = true
      (¬ may ∨ ¬ (ok.length = (portLanes s p).length ∨ late) → exec (.join port) s = .next (kept s (settle s)))
      ∧ (may → ok.length = (portLanes s p).length ∨ late →
          exec (.join port) s = .next (kept s (settle (
            if k ≠ 0 ∧ minW s p ≤ k then (if joined then u else joinLanes p mask u)
            else if s.flt.live.contains (Cause.portWidthLow, locPort p) = true then s
            else raise Cause.portWidthLow (locPort p) s)))))

/-- EI_ENTRY, EI_ENTER, EI_EXIT, RECEIVE_ELECTRICAL_IDLE and EI_EXIT_FAIL complete (R385 to R388). A transmitter of a port that is
UP, with ei_en and not idle yet, that has nothing to send: after EI_ENTER it sends one link-control unit, is in electrical idle with its
lanes off and counts; before it, its idle timer starts, and at its end EI_ENTER goes. EI_ENTER received arms the direction. A
transmitter in electrical idle leaves it with the exit burst. A receive direction whose signal ends is idle when it is armed, and
margin scans of its lanes abort; else each lane of the set loses codeword and CDR lock. An idle direction that hears no codeword in
time counts, is disarmed, and its link is lost and retrains. -/
def Obligations.ElectricalIdle : Prop :=
  (∀ (s : State) (port : Fin 512),
      let p := port.val
      let awake := linkUp s p = true ∧ s.flag (F.PRT_EI_CFG_ei_en p) = true ∧ s.flag (F.PRT_EI_CFG_tx_ei p) = false
      let quiet := txQuiet s p = true
      let u := ((sendLcu p (lcuNow s p) s).setFlag (F.PRT_EI_CFG_tx_ei p) true).bump (F.PRT_EI_ENTRY_CNT_count p)
      (awake → quiet →
        ((s.pln p).eiSent = true → exec (.eiEntry port) s = .next (kept s (settle (
            (forEach (activeSet u p) (fun n v => v.emit (.laneDrive n false)) u).onPln p fun l =>
              { l with eiSent := false, quietAt := none }))))
        ∧ ((s.pln p).eiSent = false → (s.pln p).quietAt = none → exec (.eiEntry port) s
            = .next (kept s (settle (s.onPln p fun l => { l with quietAt := some s.now }))))
        ∧ (∀ t, (s.pln p).eiSent = false → (s.pln p).quietAt = some t → exec (.eiEntry port) s
            = .next (kept s (settle (
                if t + max 1 (s.fld (F.PRT_EI_CFG_ei_ent p)) * 100 ≤ s.now then
                  sendLaneMsg p 4 0 (s.onPln p fun l => { l with eiSent := true })
                else s)))))
      ∧ (¬ awake ∨ ¬ quiet → exec (.eiEntry port) s
          = .next (kept s (settle (if quiet then s else s.onPln p fun l => { l with quietAt := none })))))
  ∧ (∀ (s : State) (port : Fin 512) (c : Ctl),
      exec (.eiEnter port c) s = .next (kept s (controlArrives port.val (ctlOf 0x12 4 c)
        (fun u => u.setFlag (F.PRT_EI_CFG_rx_armed port.val) true) s)))
  ∧ (∀ (s : State) (port : Fin 512),
      let p := port.val
      let act := s.fld (F.PRT_LANE_STATUS_active p)
      let u := (s.setFlag (F.PRT_EI_CFG_tx_ei p) false).onPln p fun l => { l with quietAt := none, eiSent := false, exitAt := s.now }
      let burst (n : Nat) (v : State) : State :=
        sendSync n act 1 (sendFrame n 0 0 0 (sendFrame n 0 0 0 (v.emit (.laneDrive n true))))
      exec (.eiExit port) s = .next (kept s (settle (
        if s.flag (F.PRT_EI_CFG_tx_ei p) = true then forEach (lanesOf p act) burst u else s)))
      ∧ exec (.receiveElectricalIdle port) s = .next (kept s (settle (
          if s.flag (F.PRT_EI_CFG_rx_armed p) = true then
            (forEach (activeSet s p) abortScan s).onPln p fun l => { l with rxIdle := true }
          else forEach (activeSet s p) (fun n v => (cwLoss n v).setFlag (F.LNE_STATUS_cdr_lock n) false) s)))
      ∧ exec (.eiExitFail port) s = .next (kept s (settle (
          if (s.pln p).rxIdle = true then
            retrainPort p (linkLoss p (eiDisarm p (s.bump (F.PRT_EI_EXIT_FAIL_CNT_count p))))
          else s))))

/-- WIDTH_PROPOSE, PROP, ACK, GO, LAPSE, PROPOSAL_RETRY and REMOVAL_INTERVAL complete (R393 to R397). A proposal of software lets a
stopped end propose again and goes, unless the port's die is in reset, or one is outstanding, the link is not UP or no lane is named. A
proposal received with none outstanding is answered; one for the same mask agrees; else the end with the higher serial goes on, the other
withdraws and answers, and equal serials withdraw and try again later. The ACK of the outstanding proposal agrees or withdraws it. GO
makes its mask the receive set. A proposal without ACK for 100 µs lapses, and the third in a row raises PORT_WIDTH_TMO and stops. A
withdrawn proposal goes again at its time. The error counts of an interval add to the lane's counters, and the removal rules act. -/
def Obligations.WidthChanges : Prop :=
  (∀ (s : State) (port : Fin 512) (kind : Bool) (mask : BitVec 8),
      let p := port.val
      exec (.widthPropose port kind mask) s = .next (kept s (settle (
        if inReset s (portDie p) = true then s
        else propose p kind mask.toNat
          (endLive Cause.portWidthTmo (locPort p) (s.onPln p fun l => { l with stopped := false, lapses := 0 }))))))
  ∧ (∀ (s : State) (p : Nat) (kind : Bool) (mask : Nat),
      let seq := (s.fld (F.PRT_WIDTH_STATUS_seq p) + 1) % 256
      let u := sendLaneMsg p 1 (seq * 2 ^ 24 + ofBool kind * 2 ^ 23 + mask)
        ((s.setFld (F.PRT_WIDTH_STATUS_seq p) seq).setFlag (F.PRT_WIDTH_STATUS_busy p) true)
      propose p kind mask s
        = if (s.pln p).prop.isSome = true ∨ linkUp s p = false ∨ mask = 0 then s
          else u.onPln p fun l => { l with prop := some ⟨seq, kind, mask, u.now⟩, retry := none })
  ∧ (∀ (s : State) (port : Fin 512) (c : Ctl),
      let p := port.val
      let k (t : BitVec 4) : Ctl := ctlOf 0x12 t c
      exec (.prop port c) s = .next (kept s (controlArrives p (k 1) (takeProp p (k 1)) s))
      ∧ exec (.ack port c) s = .next (kept s (controlArrives p (k 2) (takeAckProp p (k 2)) s))
      ∧ exec (.go port c) s = .next (kept s (controlArrives p (k 3) (takeGo p (k 3)) s)))
  ∧ (∀ (s : State) (p : Nat) (c : Ctl),
      let w := (wordAt c.body 0).toNat
      let seq := bits w 24 8
      let kind := bitOf w 23
      let mask := bits w 0 8
      let gone (r : Nat) (s : State) : State := (s.setFld (F.PRT_WIDTH_STATUS_result p) r).setFlag (F.PRT_WIDTH_STATUS_busy p) false
      let off := gone 3 (s.onPln p fun l => { l with prop := none })
      let answered (s : State) : State :=
        if refuses s p mask = true then sendLaneMsg p 2 (seq * 2 ^ 24 + 1 * 2 ^ 20 + mask) s
        else agree p seq kind mask 1 (sendLaneMsg p 2 (seq * 2 ^ 24 + mask) s)
      ((s.pln p).prop = none → takeProp p c s = answered s ∧ takeAckProp p c s = s)
      ∧ (∀ o, (s.pln p).prop = some o →
          (o.mask = mask → takeProp p c s = agree p o.seq (kind || o.kind) mask 5 s)
          ∧ (o.mask ≠ mask → tieSerial (ownSerial s) < tieSerial (c.w1 ++ c.w2) → takeProp p c s = s)
          ∧ (o.mask ≠ mask → tieSerial (c.w1 ++ c.w2) < tieSerial (ownSerial s) →
              takeProp p c s = answered (off.bump (F.PRT_TIE_LOST_CNT_count p)))
          ∧ (o.mask ≠ mask → tieSerial (c.w1 ++ c.w2) = tieSerial (ownSerial s) →
              takeProp p c s = (off.bump (F.PRT_LANE_PROTO_CNT_count p)).onPln p fun l =>
                { l with retry := some { o with at_ := s.now + (p + 1) * 10000 } })
          ∧ (seq ≠ o.seq → takeAckProp p c s = s)
          ∧ (seq = o.seq → bits w 20 4 = 0 → takeAckProp p c s = agree p o.seq o.kind o.mask 1 s)
          ∧ (seq = o.seq → bits w 20 4 ≠ 0 →
              takeAckProp p c s = gone 2 (s.onPln p fun l => { l with prop := none, lapses := 0 })))
      ∧ takeGo p c s = finishChange p (s.onPln p fun l => { l with
          rxMask := mask
          chg := markChange (fun x => !x.rxDone && x.mask == mask) (fun x => { x with rxDone := true }) l.chg }))
  ∧ (∀ (s : State) (port : Fin 512),
      let p := port.val
      ((s.pln p).prop = none → exec (.lapse port) s = .next (kept s (settle s)))
      ∧ (∀ o, (s.pln p).prop = some o →
          let u := ((s.onPln p fun l => { l with prop := none, lapses := l.lapses + 1 }).setFld
            (F.PRT_WIDTH_STATUS_result p) 4).setFlag (F.PRT_WIDTH_STATUS_busy p) false
          exec (.lapse port) s = .next (kept s (settle (
            if o.at_ + 100000 ≤ s.now then
              (if 3 ≤ (u.pln p).lapses then
                raise Cause.portWidthTmo (locPort p) (u.onPln p fun l => { l with stopped := true })
               else u)
            else s))))
      ∧ ((s.pln p).retry = none → exec (.proposalRetry port) s = .next (kept s (settle s)))
      ∧ (∀ o, (s.pln p).retry = some o → exec (.proposalRetry port) s
          = .next (kept s (settle (if o.at_ ≤ s.now then propose p o.kind o.mask s else s)))))
  ∧ (∀ (s : State) (lane : Fin 512) (corrected uncorrectable prbs : Nat),
      let n := lane.val
      (portOfLane s n = none →
        exec (.removalInterval lane corrected uncorrectable prbs) s = .next (kept s (settle s)))
      ∧ (∀ p, portOfLane s n = some p →
          let u := ((s.bumpBy (F.LNE_FEC_CORR_CNT_count n) corrected).bumpBy (F.LNE_FEC_UNCORR_CNT_count n) uncorrectable).bumpBy
            (F.LNE_PRBS_ERR_CNT_count n) prbs
          exec (.removalInterval lane corrected uncorrectable prbs) s = .next (kept s (settle (
            if lstate u n = 5 then removalActive p n corrected uncorrectable u else removalSoak p n prbs u)))))

/-- MARGIN_SCAN, MARGIN_SCAN_END, LANE_REFCLK_LOSS, LANE_REFCLK_RETURN and FEC_HISTOGRAM complete (R400, R401, R407, R473). A write of
LNE_MARGIN_CTL without go, or while a scan runs, changes the register only; a go starts a scan on a lane in READY or ACTIVE and ends with
status 2 on any other. The end of a scan shows its result, and with none running does nothing; a lane of a die held in reset takes
neither. A lost lane clock is raised, and every lane it clocks that is not off goes to DETECT, stops and loses CDR lock, with its link
lost. A clock that returns ends the cause and its ports retrain. A second of an ACTIVE lane adds one to its bin of the histogram. -/
def Obligations.LaneMeasurements : Prop :=
  (∀ (s : State) (lane : Fin 512) (val : Word) (neg pos : BitVec 7) (corrected : Nat),
      let n := lane.val
      let u := s.storeReg (R.LNE_MARGIN_CTL n) val
      (inReset s (n / 128) = true →
        exec (.marginScan lane val) s = .next (kept s s) ∧ exec (.marginScanEnd lane neg pos) s = .next (kept s s))
      ∧ (inReset s (n / 128) = false →
          exec (.marginScan lane val) s = .next (kept s (
            if bitOf val.toNat 31 = false ∨ u.flag (F.LNE_MARGIN_CTL_busy n) = true then u
            else if lstate u n = 3 ∨ lstate u n = 5 then u.setFlag (F.LNE_MARGIN_CTL_busy n) true
            else u.setFld (F.LNE_MARGIN_RES_status n) 2))
          ∧ exec (.marginScanEnd lane neg pos) s = .next (kept s (
              if s.flag (F.LNE_MARGIN_CTL_busy n) = true then
                (((s.setFlag (F.LNE_MARGIN_CTL_busy n) false).setFld (F.LNE_MARGIN_RES_status n) 1).setFld
                  (F.LNE_MARGIN_RES_neg n) neg.toNat).setFld (F.LNE_MARGIN_RES_pos n) pos.toNat
              else s)))
      ∧ exec (.fecHistogram lane corrected) s
          = .next (kept s (if lstate s n = 5 then s.bumpSel (0x800 + n * 128 + fecBin corrected * 4) else s)))
  ∧ (∀ (s : State) (b : Bool),
      let reed := locReed (if b = true then 4 else 0)
      let u := raise Cause.laneRefclkLoss reed s
      let stop (n : Nat) (v : State) : State :=
        if lstate v n = 0 then v
        else (toDetect n (v.emit (.laneDrive n false))).setFlag (F.LNE_STATUS_cdr_lock n) false
      let v := endLive Cause.laneRefclkLoss reed s
      exec (.laneRefclkLoss b) s = .next (kept s (settle (
        forEach (clockedPorts u b) (fun p v => linkLoss p (setActive p 0 (forEach (portLanes v p) stop v))) u)))
      ∧ exec (.laneRefclkReturn b) s = .next (kept s (settle (
          forEach (clockedPorts v b) (fun p w => enablePort p (retrainPort p w)) v))))

/-! ### Clocks, power, levels and sensors (file 12) -/

/-- AON_CLK_LOSS, CORE_REFCLK_LOSS, CORE_REFCLK_RETURN, PLL_UNLOCK, DIE_STANDBY and DIE_STANDBY_EXIT complete. A lost 25 MHz input is
raised once, until the next power-on reset (R405). A lost core clock is raised, and fabric time is unlocked but for the time master's (the
model's reading, log entry 103); its return ends the cause (R406). A die PLL that unlocks, outside holdover, die reset, standby and a
fatal state, is raised and its die enters reset. A write of PWR_DIE_CTL with standby = 1 puts a running die that may stand by into
standby or sets sb_refused, and one with standby = 0 ends standby; a die that is already as asked stays (R437 to R439). -/
def Obligations.ClocksAndStandby : Prop :=
  (∀ s : State,
      let u := rebaseTime (raise Cause.coreRefclkLoss locNone s)
      exec .aonClkLoss s = .next (kept s (
        if s.pwr.osc = true then s else raise Cause.aonClkLoss locNone { s with pwr := { s.pwr with osc := true } }))
      ∧ exec .coreRefclkLoss s
          = .next (kept s (if u.flag F.SCH_TIME_STATUS_master = true then u else setTimeLocked false u))
      ∧ exec .coreRefclkReturn s = .next (kept s (endLive Cause.coreRefclkLoss locNone s)))
  ∧ (∀ (s : State) (die : Fin 4),
      let d := die.val
      let off := inHoldover s = true ∨ inReset s d = true ∨ inStandby s d = true ∨ isFatal s = true
      let v (b : Bool) : Word := putBits (s.rd (R.PWR_DIE_CTL d)) 31 1 (ofBool b)
      let w (b : Bool) : State :=
        withLevels (fun s => setThr d 5 { level := bits (v b).toNat 0 3 } (s.storeReg (R.PWR_DIE_CTL d) (v b))) s
      exec (.pllUnlock die) s = .next (kept s (settle (
        if off then s else beginDieReset d (raise Cause.pllUnlock (locDie d 0) s))))
      ∧ exec (.dieStandby die) s = .next (kept s (
          if inStandby (w true) d = true then w true
          else if standbyOk (w true) d = true then enterStandby d (w true)
          else (w true).setFlag (F.PWR_DIE_STATUS_sb_refused d) true))
      ∧ exec (.dieStandbyExit die) s = .next (kept s (
          if inStandby (w false) d = true then leaveStandby d (w false) else w false)))

/-- POWER_UP, RAIL_GOOD, RAIL_SEQ, ORDERLY_POWER_DOWN, SRAM_WIPE_DONE, RAIL_OFF, RAIL_OFF_FAIL, RAIL_MONITOR and RAIL_FAULT complete
(Tables 12-6 and 12-7, R414 to R422). POR_N high, in power-on reset, reads the fuses, Selvedge and the board, raises what is missing, and
brings up the third rail. The good rail of its step brings the next, and the last one PWR_GOOD; with the sequence ON a good VDD_CORE ends
its raise. A rail not good in its time is RAIL_SEQ with the sequence FAILED and the rails that are on switched off. off starts the
power-down when the sequence is ON. After drain and wipe the rails go off in order; a rail that is off, or fails to go off in time with an
error, brings the next. The monitors sample every rail. A rail far from its request for over 100 µs while ON is fatal. -/
def Obligations.PowerSequences : Prop :=
  (∀ (s : State) (b : Board),
      let u := readFuses { s with pwr := { s.pwr with por := false } }
      let v := (loadSelvedge u).bumpSel 0x1C
      let w := readBoard b { v with pwr := { v.pwr with
        testMode := b.testEn && (v.fuses.lcState == 0 || v.fuses.lcState == 3), rstLow := b.rstLow } }
      let x := if w.pwr.table = none then raise Cause.pwrTable locNone w else w
      let y := if x.lanes.eqTable = none then raise Cause.eqTable locNone x else x
      let z := if y.ecc.fuseBad = true then raiseFatal Cause.fuseErr locNone 0 y else y
      exec (.powerUp b) s = .next (kept s (
        if s.pwr.por = false then s else railOn 2 (setSeq 1 (ownPins (railIsGood 1 (railIsGood 0 z)))))))
  ∧ (∀ (s : State) (rail : Fin 7),
      let r := rail.val
      exec (.railGood rail) s = .next (kept s (
        if seqOf s = 1 ∧ r + 2 = s.pwr.step then
          (if r = 6 then powerGood (railIsGood r s) else railOn (r + 1) (railIsGood r s))
        else if seqOf s = 2 ∧ r = 4 then railIsGood 4 { s with pwr := { s.pwr with raising := false } }
        else s))
      ∧ (∀ rest, s.pwr.toOff = r :: rest →
          exec (.railOff rail) s
            = .next (kept s (nextOff ((s.setFld (F.PWR_RAIL_MV_state r) 0).setFlag ⟨R.PWR_STATUS, r, 1⟩ false)))
          ∧ exec (.railOffFail rail) s = .next (kept s (
              if s.pwr.deadline ≤ s.now ∨ (pwrEntry s r).method = 1 then
                nextOff (seqError r (10 - r) (railEvent 0x80 r (10 - r) s))
              else s)))
      ∧ (s.pwr.toOff.head? ≠ some r →
          exec (.railOff rail) s = .next (kept s s) ∧ exec (.railOffFail rail) s = .next (kept s s))
      ∧ ((railMon s r).farSince = none → exec (.railFault rail) s = .next (kept s (settle s)))
      ∧ (∀ t, (railMon s r).farSince = some t → exec (.railFault rail) s = .next (kept s (settle (
          if seqOf s = 2 ∧ t + 100000 < s.now then raiseFatal Cause.railFault (locRail r) 0 s else s)))))
  ∧ (∀ (s : State) (val : Word) (mv : List Nat),
      let k := s.pwr.step
      let f := raiseFatal Cause.railSeq (locRail (k - 2)) k (setSeq 4 s)
      let u := s.storeReg R.PWR_CTL val
      let v := if s.flag F.PWR_CTL_wipe_on_off = true ∧ s.pwr.wipeCut = false then wipeSram s else s
      exec .railSeq s = .next (kept s (settle (
        if seqOf s = 1 ∧ 4 ≤ k ∧ s.pwr.deadline ≤ s.now then switchOff (railsOn f) f else s)))
      ∧ exec (.orderlyPowerDown val) s
          = .next (kept s (settle (if bitOf val.toNat 31 = true ∧ seqOf u = 2 then startDown false u else u)))
      ∧ exec .sramWipeDone s = .next (kept s (
          if seqOf s = 3 ∧ s.pwr.toOff = [] ∧ k = 2 then switchOff (railsOn v) v else s))
      ∧ exec (.railMonitor mv) s = .next (kept s (forEach (upTo 7) (fun r => sampleRail r (nth mv r)) s)))

/-- PHASE_SELECT, MGMT, LEVEL_STEP, PCAP, ICAP, DROOP, TEMP, THROTTLE_N_FALL and THROTTLE_N_RISE complete (R424 to R429). A write of the
phase, and one of a die's register with its MGMT limit and standby, takes effect on the levels. A step raises the effective level number by
one at once, and lowers it by one only when the voltage covers it, else the voltage is requested. A reading above its cap raises the limit
of every running die, one below the lower bound for its time lowers it, and a cap of 0 is no limit. More than 25 µs of stretch raises
DROOP, a window less than that lowers it after 10 ms. At 105 °C TEMP rises by one each millisecond, and below 103 °C falls. THROTTLE_N
sets the EXT limit of every die to ext_lvl, and its rise to 0. -/
def Obligations.LevelsAndThrottling : Prop :=
  (∀ (s : State) (val : Word),
      exec (.phaseSelect val) s = .next (kept s (withLevels (fun u => u.storeReg R.PWR_PHASE_SEL val) s))
      ∧ exec .throttleNFall s = .next (kept s (withLevels (fun u => forEach (upTo 4) (fun d u => setThr d 4 { level := extLvl u } u)
          { u with pwr := { u.pwr with extLow := true } }) s))
      ∧ exec .throttleNRise s = .next (kept s (withLevels (fun u => forEach (upTo 4) (fun d => setThr d 4 { level := 0 })
          { u with pwr := { u.pwr with extLow := false } }) s)))
  ∧ (∀ (s : State) (die : Fin 4) (val : Word),
      let d := die.val
      let w := withLevels (fun u => setThr d 5 { level := bits val.toNat 0 3 } (u.storeReg (R.PWR_DIE_CTL d) val)) s
      exec (.mgmt die val) s = .next (kept s (
        if bitOf val.toNat 31 = true then
          if inStandby w d = true then w
          else if standbyOk w d = true then enterStandby d w
          else w.setFlag (F.PWR_DIE_STATUS_sb_refused d) true
        else if inStandby w d = true then leaveStandby d w
        else w)))
  ∧ (∀ (s : State) (die : Fin 4),
      let d := die.val
      let e := effLvl s d
      let t := targetLvl s d
      let step (n : Nat) : State := s.setFld (F.PWR_DIE_STATUS_eff_lvl d) n
      (inStandby s d = true → exec (.levelStep die) s = .next (kept s s))
      ∧ (inStandby s d = false →
          (e < t → exec (.levelStep die) s = .next (kept s (lowerRequest (step (e + 1)))))
          ∧ (e = t → exec (.levelStep die) s = .next (kept s (lowerRequest s)))
          ∧ (t < e → 4 < e → exec (.levelStep die) s = .next (kept s (step (e - 1))))
          ∧ (t < e → e ≤ 4 → followsVdd s = true → exec (.levelStep die) s = .next (kept s (
              if s.fld F.PWR_VCORE_req_mv < needMv s (e - 1) then
                requestMv (needMv s (e - 1)) { s with pwr := { s.pwr with raising := true } }
              else if s.pwr.raising = true then s else step (e - 1))))
          ∧ (t < e → e ≤ 4 → followsVdd s = false → exec (.levelStep die) s
              = .next (kept s (if measuredCovers s (e - 1) = true then step (e - 1) else s)))))
  ∧ (∀ (s : State) (x : Nat),
      let cap := bits (phaseEntry s) 21 11
      let span := max 1 (s.fld F.PWR_LIMITS_pcap_win) * 1000000
      let u := s.setFld F.PWR_VCORE_amps (saturate 11 x)
      let lim := s.fld F.PWR_LIMITS_icap
      exec (.pcap x) s = .next (kept s (withLevels (fun v => forEach (throttled v) (fun d v =>
          if cap = 0 then setThr d 0 {} v
          else moveThr d 0 (decide (cap < x)) (decide (x * 100 < 95 * cap)) span v) v) s))
      ∧ exec (.icap x) s = .next (kept s (withLevels (fun v => forEach (throttled v) (fun d v =>
          if lim = 0 then setThr d 1 {} v
          else moveThr d 1 (decide (lim < x)) (decide (x * 10 < 9 * lim)) 1000000 v) v) u)))
  ∧ (∀ (s : State) (d r span : Nat) (below : Bool),
      let t := thr s d r
      moveThr d r true below span s = setThr d r { t with level := t.level + 1, lowSince := none } s
      ∧ moveThr d r false false span s = setThr d r { t with lowSince := none } s
      ∧ (t.lowSince = none → moveThr d r false true span s = setThr d r { t with lowSince := some s.now } s)
      ∧ (∀ since, t.lowSince = some since → moveThr d r false true span s
          = if since + span ≤ s.now then setThr d r { t with level := t.level - 1, lowSince := some s.now } s else s))
  ∧ (∀ (s : State) (die : Fin 4) (stretch : Nat),
      let d := die.val
      let fall (since : Option Nat) (u : State) : State :=
        match since with
        | none => u
        | some a =>
          if a + 10000000 ≤ u.now then setThr d 2 { thr u d 2 with level := (thr u d 2).level - 1, lowSince := some u.now } u else u
      let hot (u : State) : State :=
        let t := thr u d 3
        let due := match t.raisedAt with | some a => decide (a + 1000000 ≤ u.now) | none => true
        if due = true then setThr d 3 { level := t.level + 1, raisedAt := some u.now, lowSince := none } u
        else setThr d 3 { t with lowSince := none } u
      (inStandby s d = true →
        exec (.droop die stretch) s = .next (kept s s) ∧ exec (.temp die) s = .next (kept s s))
      ∧ (inStandby s d = false →
          exec (.droop die stretch) s = .next (kept s (withLevels (fun u =>
            if 25000 < stretch then setThr d 2 { thr u d 2 with level := (thr u d 2).level + 1, lowSince := some u.now } u
            else fall (thr u d 2).lowSince u) s))
          ∧ exec (.temp die) s = .next (kept s (withLevels (fun u =>
              if 1680 ≤ dieTemp u d then hot u else moveThr d 3 false (decide (dieTemp u d < 1648)) 10000000 u) s))))

/-- DROOP_TRIP, STRETCH_END, ENERGY_UPDATE, SENSOR_READ, THERMTRIP and TEMP_HISTOGRAM complete (R430 to R435, R473). A trip shows stretch
for the hold time, but not in standby, and stretch ends no earlier. The 64-bit energy adds the measured and the estimated energy and
saturates. A reading shows, and the maximum only rises; 115 °C is fatal. A minute's histogram counts each die that took a reading, and
starts over. -/
def Obligations.SensorsAndEnergy : Prop :=
  (∀ (s : State) (die : Fin 4),
      let d := die.val
      exec (.droopTrip die) s = .next (kept s (
        if inStandby s d = true then s
        else { s.setFlag (F.PWR_DIE_STATUS_stretch d) true with pwr := { s.pwr with
          stretchUntil := setAt s.pwr.stretchUntil d (s.now + max 1 (s.fld F.PWR_DROOP_CFG_hold) * 100) } }))
      ∧ exec (.stretchEnd die) s = .next (kept s (
          if nth s.pwr.stretchUntil d ≤ s.now then s.setFlag (F.PWR_DIE_STATUS_stretch d) false else s)))
  ∧ (∀ (s : State) (uj : Nat),
      let est := ([0, 1, 2].map fun r => (pwrEntry s r).estW).sum * 10
      let e := min (s.fld F.PWR_ENERGY_LO_energy + 2 ^ 32 * s.fld F.PWR_ENERGY_HI_energy + uj + est) (2 ^ 64 - 1)
      exec (.energyUpdate uj) s
        = .next (kept s ((s.setFld F.PWR_ENERGY_LO_energy (e % 2 ^ 32)).setFld F.PWR_ENERGY_HI_energy (e / 2 ^ 32))))
  ∧ (∀ (s : State) (sensor : Fin 24) (t : BitVec 16),
      let u := takeReading sensor.val t s
      exec (.sensorRead sensor t) s = .next (kept s u)
      ∧ u.fld (F.PWR_TEMP_temp sensor.val) = t.toNat
      ∧ u.fld (F.PWR_TEMP_max sensor.val)
          = (if reading (s.fld (F.PWR_TEMP_max sensor.val)) < reading t.toNat then t.toNat else s.fld (F.PWR_TEMP_max sensor.val))
      ∧ exec (.thermtrip sensor t) s = .next (kept s (settle (
          if 1840 ≤ reading t.toNat then raiseFatal Cause.thermtrip (locSensor sensor.val) t.toNat u else u))))
  ∧ (∀ s : State,
      let u := forEach (upTo 12) (fun i v =>
        match Sparse.get (fun _ => (none : Option Int)) v.pwr.minMax i with
        | some t => v.bumpSel (0x100 + i * 64 + tempBin t * 4)
        | none => v) s
      exec .tempHistogram s = .next (kept s { u with pwr := { u.pwr with minMax := [] } }))

/-! ### Faults and resets (file 13) -/

/-- FAULT_N_MINIMUM_END, FAULT_N_RELEASE, D2D_CHANNEL_FAIL, REG_TMO, WATCHDOG_EXPIRY and CAPTURE_RELEASE complete. At the end of its
minimum FAULT_N is released when auto_rel is set or a release was asked for, and else stays; before it nothing happens (R457). A write of
FLT_PIN_CTL without release, in a fatal state, or in the cycle of a raise changes the register only; one inside the minimum is remembered;
one after it releases. A channel that fails is recorded once: the 34th of a link is fatal, one beyond two degrades it, and one that carried
data is spared (R445). A BAR access that times out raises REG_TMO and a read returns all ones, but not for a die in reset or standby (R448).
A second watchdog expiry in 10 s is fatal, and the first restarts the Deckle (R449). A release of the capture frees the buffer (R466). -/
def Obligations.FaultsAndTheirPin : Prop :=
  (∀ (s : State) (val : Word),
      let w := s.storeReg R.FLT_PIN_CTL val
      let u := { s with flt := { s.flt with minUntil := none } }
      (s.flt.minUntil = none → exec .faultNMinimumEnd s = .next (kept s s))
      ∧ (∀ t, s.flt.minUntil = some t → exec .faultNMinimumEnd s = .next (kept s (
          if s.now < t then s
          else if s.flag F.FLT_PIN_CTL_auto_rel = true ∨ s.flt.released = true then releaseFaultN u
          else u)))
      ∧ exec (.faultNRelease val) s = .next (kept s (
          if bitOf val.toNat 31 = false ∨ isFatal w = true ∨ w.flt.minUntil = some (w.now + 10000) then w
          else if w.flt.minUntil.isSome = true then { w with flt := { w.flt with released := true } }
          else releaseFaultN w))
      ∧ (isFatal s = true → releaseFaultN s = s)
      ∧ (isFatal s = false → releaseFaultN s
          = { s.setFlag F.FLT_STATUS_pin false with flt := { s.flt with minUntil := none, released := false } })
      ∧ exec (.captureRelease val) s = .next (kept s (
          if bitOf val.toNat 31 = true then (s.setFlag F.FLT_CAP_CTL_held false).setFld F.FLT_CAP_CTL_seq 0 else s)))
  ∧ (∀ (s : State) (src dst : Fin 4) (ch : Fin 34),
      let d := src.val
      let e := dst.val
      let k := d * 4 + e
      let before := failedOf s k
      let carried := ch.val < 32 ∨ (sparesUsed before).contains ch.val = true
      let n := before.length + 1
      let u := ({ s with flt := { s.flt with badCh := s.flt.badCh ++ [(k, ch.val)] } }.setFld (F.FLT_D2D_STAT_failed k) n).setFld
        (F.FLT_D2D_STAT_spares k) (sparesUsed (ch.val :: before)).length
      exec (.d2dChannelFail src dst ch) s = .next (kept s (settle (
        if d = e ∨ before.contains ch.val = true then s
        else if n = 34 then settle (raiseFatal Cause.d2dLost (locLink d e 0x3F) 0 u)
        else if 2 < n then raise Cause.d2dDegraded (locLink d e 0x3F) u
        else if carried then raise Cause.d2dSpared (locLink d e ch.val) u
        else u))))
  ∧ (∀ (s : State) (off : BitVec 26) (write : Bool),
      let held := match dieOfReg off.toNat with | some d => inReset s d || inStandby s d | none => false
      let u := raise Cause.regTmo (locReg off.toNat) s
      exec (.regTmo off write) s = .next (kept s (
        if held = true then s
        else if write = true then u
        else u.emit (.readData off.toNat 4 0xFFFFFFFF#64))))
  ∧ (∀ s : State,
      let again := match s.flt.wdogAt with | some t => s.now < t + 10000000000 | none => False
      let u := raise Cause.deckleRst locNone s
      let v := { u with mgt := { u.mgt with i2cDue := [true, true] }, flt := { u.flt with wdogAt := some u.now } }
      (again → exec .watchdogExpiry s = .next (kept s (settle (raiseFatal Cause.deckleWdog locNone 0 s))))
      ∧ (¬ again → exec .watchdogExpiry s = .next (kept s (
          forEach [0, 1] (fun n w => if w.flag (F.MIO_I2C_STATUS_busy n) = true then endI2c n 5 w else w) v))))

/-- SELVEDGE_FLUSH, SELVEDGE_HOURLY and SELVEDGE_WRITE_DONE complete (R472). A flush and the hourly write begin a write, or ask for one
more after the one in progress. At its end the record is in its half of the flash, or the half is spoilt with flash_err; busy clears,
vector 12 is raised, a dump that waits follows, and then the write that was asked for. Every byte of the flash outside the half that a
good write takes is unchanged by it, and the other half is next. -/
def Obligations.SelvedgeIsWritten : Prop :=
  (∀ (s : State) (val : Word) (ok : Bool),
      let begun := if s.flag F.SEL_STATUS_busy = true then { s with mgt := { s.mgt with selAgain := true } }
        else s.setFlag F.SEL_STATUS_busy true
      let u := raiseInt 12 ((if ok = true then storeSelvedge s else spoilSelvedge s).setFlag F.SEL_STATUS_busy false)
      let v := { u with flt := { u.flt with dumpDue := false } }
      let w := if u.flt.dumpDue = true then (if v.flag F.FLT_CAP_CTL_held = true then dumpCapture v else v) else u
      exec (.selvedgeFlush val) s = .next (kept s (if bitOf val.toNat 31 = true then begun else s))
      ∧ exec .selvedgeHourly s = .next (kept s begun)
      ∧ exec (.selvedgeWriteDone ok) s = .next (kept s (
          if s.flag F.SEL_STATUS_busy = false then s
          else if w.mgt.selAgain = true then startSelWrite { w with mgt := { w.mgt with selAgain := false } }
          else w)))
  ∧ (∀ (s : State) (a : Nat), s.mem.wf = true →
      (storeSelvedge s).mgt.selHalf = 1 - s.mgt.selHalf
      ∧ (a < halfAddr s.mgt.selHalf ∨ halfAddr s.mgt.selHalf + 0x20000 ≤ a → (storeSelvedge s).flashByte a = s.flashByte a))

/-- CONTEXT_RESET, CTX_RESET_TMO, CONTEXT_RESET_DONE, DIE_RESET and DIE_RESET_DONE complete (R460 to R468). A write of FLT_CTX_RST
without go, or while one is busy, changes the register only, and a go starts the reset of the context it names. One still busy at 2 ms is
raised once. When its steps have run and the device holds no packet of it, the reset ends, and a load that waits for it goes on. A go of
FLT_DIE_RST for a die that runs, outside a fatal state, resets it. A die in reset, with the device up and no warm reset running, ends it:
its channels are tested, its spare map and cells are in place, its lines are poisoned, the home table is rebuilt and vector 3 is raised. -/
def Obligations.ContextAndDieResets : Prop :=
  (∀ (s : State) (val : Word),
      let u := s.storeReg R.FLT_CTX_RST val
      let w := s.storeReg R.FLT_DIE_RST val
      let d := bits val.toNat 0 2
      exec (.contextReset val) s = .next (kept s (settle (
        if bitOf val.toNat 31 = true ∧ u.flag F.FLT_CTX_RST_STATUS_busy = false then
          startCtxReset [bits val.toNat 0 12] (bitOf val.toNat 30) false u
        else u)))
      ∧ exec (.dieReset val) s = .next (kept s (settle (
          if bitOf val.toNat 31 = true ∧ inReset w d = false ∧ isFatal w = false then beginDieReset d w else w))))
  ∧ (∀ s : State,
      (s.ctxRst = none → exec .ctxResetTmo s = .next (kept s (settle s)))
      ∧ (∀ r, s.ctxRst = some r → exec .ctxResetTmo s = .next (kept s (settle (
          if r.late = false ∧ r.start + 2000000 ≤ s.now then
            raiseCause Cause.ctxResetTmo locNone r.ctxs.head? 0 { s with ctxRst := some { r with late := true } }
          else s))))
      ∧ ((ctxResetSteps s).ctxRst = none → exec .contextResetDone s = .next (kept s (settle (ctxResetSteps s))))
      ∧ (∀ r, (ctxResetSteps s).ctxRst = some r →
          let u := ctxResetSteps s
          let v := finishCtxReset r u
          let loading : Option (Nat × Nat × Nat) := v.drf.load.bind fun ld => match ld.draining with
            | some (3, k) => some (k, ld.slot, 0)
            | _ => none
          (r.ran = false ∨ holdsCopies r.ctxs u = true → exec .contextResetDone s = .next (kept s (settle u)))
          ∧ (r.ran = true → holdsCopies r.ctxs u = false →
              (loading = none → exec .contextResetDone s = .next (kept s (settle v)))
              ∧ (∀ k slot x, loading = some (k, slot, x) → exec .contextResetDone s = .next (kept s (settle (
                  if r.panel = true then loadOn (notePanel (applyContexts k slot v)) else beginDrain v))))))
      ∧ (∀ r : CtxReset,
          let t := finishCtxReset r s
          t.ctxRst = none ∧ t.flag F.FLT_CTX_RST_STATUS_busy = false
            ∧ t.fld F.FLT_CTX_RST_STATUS_result = (if r.late = true ∨ 2000000 < s.now - r.start then 2 else 1)))
  ∧ (∀ (s : State) (die : Fin 4),
      let d := die.val
      let may := bitOf (s.fld F.FLT_STATUS_die_rst) d = true ∧ s.pwr.por = false ∧ s.pwr.testMode = false
        ∧ s.pwr.warming = false ∧ isFatal s = false
      exec (.dieResetDone die) s = .next (kept s (
        if may then settle (raiseInt 3 (homeRebuild (poisonDie d (bootDie d (testChannels d
          (s.setFlag ⟨R.FLT_STATUS, 26 + d, 1⟩ false))))))
        else s)))

/-- WARM_RESET, WARM_RESET_DONE and POWER_ON_RESET complete (R470, R528). A rise of RST_N, or a key of 0xA5, with the power sequence ON
and no fatal state, starts a warm reset, and while the device waits for RST_N only the rise goes on; anything else does nothing. At its end
every die has its cells and spare map, the boot draft is applied or refused, and ready reads 1. Power-on reset leaves every register at its
reset value, the scratchpads, the capture buffer and the record empty, every queue and table as after reset, and, with no write of the flash
and no life-cycle transition in progress, the flash and the fuses as they were. -/
def Obligations.WarmAndPowerOnReset : Prop :=
  (∀ (s : State) (key : Option Byte),
      let starts := key = none ∨ key = some 0xA5#8
      let up := isFatal s = false ∧ s.pwr.por = false ∧ s.pwr.testMode = false ∧ seqOf s = 2
      exec (.warmReset key) s = .next (kept s (
        if ¬ starts ∨ ¬ up then s
        else if s.pwr.rstLow = true then
          (if key = none then tileUp { s with pwr := { s.pwr with rstLow := false } } else s)
        else beginWarm s)))
  ∧ (∀ s : State,
      let u := forEach (upTo 4) (fun d v => setShared d (takeSpareMap d [] (fillCells d v)))
        { s with pwr := { s.pwr with warming := false } }
      exec .warmResetDone s = .next (kept s (
        if s.pwr.warming = true ∧ s.pwr.testMode = false ∧ s.pwr.rstLow = false then
          warmLevels ((takeBootDraft u).setFlag F.FLT_STATUS_ready true)
        else s)))
  ∧ (∀ s : State, ∃ t, exec .powerOnReset s = .next t
      ∧ (∀ off, t.rd off = regDefault off) ∧ t.mem.sheets = [] ∧ t.mem.cap = [] ∧ t.mem.sel = []
      ∧ t.core = State.reset.core ∧ t.fab = State.reset.fab ∧ t.grp = State.reset.grp ∧ t.link = State.reset.link
      ∧ t.rte = State.reset.rte ∧ t.disc = State.reset.disc ∧ t.shts = State.reset.shts ∧ t.sched = State.reset.sched
      ∧ t.drf = State.reset.drf ∧ t.ctxRst = none ∧ t.fuses.lcTarget = none
      ∧ (s.flag F.SEL_STATUS_busy = false → s.mgt.spi = none → s.fuses.lcTarget = none →
          t.mem.flash = s.mem.flash ∧ t.fuses = s.fuses))

/-! ### Management, drafts and the life cycle (file 14) -/

/-- FUNCTION_LEVEL_RESET, PCIE_LINK_DOWN and PCIE_PERST_N_RISE complete (R476, R530). A function reset returns the MSI-X table, its
pending bits and MIO_INT_EN to their reset values with the configuration space, and leaves every other register. A link that goes down
resets the function and holds it. PERST_N high starts link training once the power sequence is ON. -/
def Obligations.FunctionReset : Prop :=
  (∀ s : State, ∃ t u : State,
      exec .functionLevelReset s = .next t ∧ exec .pcieLinkDown s = .next u
      ∧ (∀ off, t.rd off = if isFunctionReg off = true then regDefault off else s.rd off)
      ∧ t.mgt = { s.mgt with cfg := {} } ∧ t.mem = s.mem ∧ t.fab = s.fab ∧ t.core = s.core ∧ t.grp = s.grp ∧ t.link = s.link
      ∧ (∀ off, u.rd off = t.rd off) ∧ u.mgt = { s.mgt with cfg := {}, perstLow := true } ∧ u.mem = s.mem)
  ∧ (∀ s : State, exec .pciePerstNRise s = .next (kept s (
      if seqOf s = 2 then trainPcie { s with mgt := { s.mgt with perstLow := false } }
      else { s with mgt := { s.mgt with perstLow := false } })))

/-- I2C_TRANSFER, I2C_TRANSFER_END, I2C_TIMEOUT, RECOVER, IDENT, FAULT, THERMAL, POWER, ADDR, READ and GPIO_CHANGE complete. A write of
MIO_I2C_XFER without go, while a transfer runs or on a controller that is off changes the register only; a go on a stuck bus whose check is
not due ends STUCK, and any other sends the bytes of the buffer, at most 32 (R480). The end of a transfer stores its bytes and checks the bus
when it is due or the result calls for it; SCL held low ends it TIMEOUT with the check due, or a check with STUCK (R481, R482). Each block
read of the target answers its bytes (R483); ADDR of four bytes stores the offset aligned to 4, or is counted and not acknowledged for a bad
PEC when one is asked for (R484); READ answers the register at the offset and moves on by 4 (R485); while the target is off none answers. A
GPIO change shows the pins and sets the interrupt of every enabled input that moved. -/
def Obligations.I2cActs : Prop :=
  (∀ (s : State) (n : Fin 2) (val : Word),
      let u := s.storeReg (R.MIO_I2C_XFER n.val) val
      let start : State := (u.setFlag (F.MIO_I2C_STATUS_busy n.val) true).emit (.i2cStart n.val (bits val.toNat 16 7)
        (readBytes (bufByte u (R.MIO_I2C_DATA n.val 0)) 0 (min 32 (bits val.toNat 8 6))) (min 32 (bits val.toNat 0 6)))
      exec (.i2cTransfer n val) s = .next (kept s (
        if u.flag (F.MIO_I2C_STATUS_busy n.val) = true ∨ bitOf val.toNat 31 = false ∨ u.flag (F.MIO_I2C_CFG_en n.val) = false then u
        else if u.flag (F.MIO_I2C_STATUS_stuck n.val) = true ∧ checkDue u n.val = false then endI2c n.val 4 u
        else start)))
  ∧ (∀ (s : State) (n : Fin 2) (result : BitVec 3) (data : List Byte) (sda : Option (Fin 10)),
      let k := n.val
      let high := sda.map (·.val)
      let r := result.toNat
      let due := checkDue s k
      let u := if due = true then busCheck k high s else s
      let v := putBuf (R.MIO_I2C_DATA k 0) (data.take 32) u
      let w := if r = 3 ∨ r = 5 ∨ r = 6 then (if due = true then setCheckDue k true v else busCheck k high v) else v
      exec (.i2cTransferEnd n result data sda) s = .next (kept s (
        if s.flag (F.MIO_I2C_STATUS_busy k) = false ∨ r = 7 then s
        else if due = true ∧ u.flag (F.MIO_I2C_STATUS_stuck k) = true then endI2c k 4 u
        else endI2c k r w))
      ∧ exec (.i2cTimeout n) s = .next (kept s (
          if s.flag (F.MIO_I2C_STATUS_busy k) = false then s
          else if due = true then endI2c k 4 (busCheck k none s)
          else endI2c k 3 (setCheckDue k true (s.emit (.i2cBus k false)))))
      ∧ exec (.recover n sda) s = .next (kept s (busCheck k high s)))
  ∧ (∀ s : State,
      exec .ident s = .next (kept s (blockRead 0x01
        (leBytes 8 s.fuses.serial.toNat ++ [0xB1#8, BitVec.ofNat 8 (lcState s), 0#8, 0#8]) s))
      ∧ exec .i2cFault s = .next (kept s (blockRead 0x02
          ([R.FLT_STATUS, R.FLT_CAUSE_LO, R.FLT_CAUSE_HI, R.FLT_FFC0, R.FLT_FFC1].flatMap (regBytes s)) s))
      ∧ exec .thermal s = .next (kept s (blockRead 0x03
          (leBytes 2 (s.fld (F.PWR_TEMP_temp (hottest s))) ++ [BitVec.ofNat 8 (hottest s), 0#8]) s))
      ∧ exec .power s = .next (kept s (blockRead 0x04
          ([R.PWR_ENERGY_LO, R.PWR_ENERGY_HI, R.PWR_STATUS].flatMap (regBytes s)) s))
      ∧ (∀ (cmd : Nat) (data : List Byte),
          let count := BitVec.ofNat 8 data.length :: data
          let head : List Byte := [BitVec.ofNat 8 (targetAddr s), BitVec.ofNat 8 cmd, BitVec.ofNat 8 (targetAddr s + 1)]
          blockRead cmd data s
            = if targetOn s = false then s
              else s.emit (.i2cBytes (if s.flag F.MIO_I2CT_CFG_pec_en = true then count ++ [pec (head ++ count)] else count)))
      ∧ (∀ (bytes : List Byte) (p : Option Byte),
          let head : List Byte := [BitVec.ofNat 8 (targetAddr s), 0x10#8, 4#8]
          exec (.addr bytes p) s = .next (kept s (
            if targetOn s = false ∨ bytes.length ≠ 4 then s
            else if s.flag F.MIO_I2CT_CFG_pec_en = true ∧ p ≠ some (pec (head ++ bytes)) then
              (s.bump F.MIO_I2CT_PEC_CNT_count).emit (.i2cNack 7)
            else { s with mgt := { s.mgt with tgtOff := ofLe bytes / 4 * 4 } })))
      ∧ (let off := s.mgt.tgtOff
         let u := blockRead 0x11 (if targetReads off = true then regBytes s off else leBytes 4 0xFFFFFFFF) s
         exec .read s = .next (kept s (
            if targetOn s = false then s else { u with mgt := { u.mgt with tgtOff := (off + 4) % 2 ^ 32 } })))
      ∧ (∀ pins : Byte,
          let moved := (upTo 8).filter fun i => bitOf (s.fld F.MIO_GPIO_in) i != bitOf pins.toNat i
            && bitOf (s.fld F.MIO_GPIO_INT_ien) i && !bitOf (s.fld F.MIO_GPIO_dir) i
          let u := forEach moved (fun i v => v.setFlag ⟨R.MIO_GPIO_INT, i, 1⟩ true) (s.setFld F.MIO_GPIO_in pins.toNat)
          exec (.gpioChange pins) s = .next (kept s (if moved = [] then u else raiseInt 11 u))))

/-- SPI_READ, PROGRAM, ERASE, DUMP and FLASH_OP_END complete (R489, R490). A write of MIO_SPI_CMD whose op is that of the row, without go
or while one is busy, changes the register only; else the operation is taken with its address and length, behind a write of the record when
one runs. At its end, once that write is over, the operation is performed when it passes its checks, or leaves what a failed one leaves; its
result shows, busy clears and vector 10 is raised. -/
def Obligations.FlashOperations : Prop :=
  (∀ (s : State) (val : Word), ∀ x ∈ [(Instr.spiRead, 0), (Instr.program, 1), (Instr.erase, 2), (Instr.dump, 3)],
      let v : Word := (val &&& 0x8FFFFFFF#32) ||| BitVec.ofNat 32 (x.2 * 2 ^ 28)
      let u := s.storeReg R.MIO_SPI_CMD v
      let op := (bits v.toNat 28 3, (u.rd R.MIO_SPI_ADDR).toNat, bits v.toNat 0 8 + 1)
      exec (x.1 val) s = .next (kept s (
        if u.flag F.MIO_SPI_STATUS_busy = true ∨ bitOf v.toNat 31 = false then u
        else { u.setFlag F.MIO_SPI_STATUS_busy true with mgt := { u.mgt with
          spi := some op, spiWait := u.flag F.SEL_STATUS_busy } }))
      ∧ bits v.toNat 28 3 = x.2)
  ∧ (∀ (s : State) (ok : Bool),
      (s.mgt.spi = none → exec (.flashOpEnd ok) s = .next (kept s s))
      ∧ (∀ op a n, s.mgt.spi = some (op, a, n) →
          let code := spiCheck s op a n
          let u := if code ≠ 0 then s else if ok = true then spiPerform op a n s else spiFail op a n s
          let v := { u with mgt := { u.mgt with spi := none } }
          (s.mgt.spiWait = true → s.flag F.SEL_STATUS_busy = true → exec (.flashOpEnd ok) s = .next (kept s s))
          ∧ (s.mgt.spiWait = false ∨ s.flag F.SEL_STATUS_busy = false →
              exec (.flashOpEnd ok) s = .next (kept s (raiseInt 10 ((v.setFlag F.MIO_SPI_STATUS_busy false).setFld
                F.MIO_SPI_STATUS_result (if code = 0 ∧ ok = false then 3 else code)))))))

/-- DRAFT_LOAD, DRAFT_VERIFY_DONE, PANEL_DRAIN_END, DRAIN_TMO, PORT_RESET and SHUTTLE_RESET complete (R498 to R502). A write of DFT_LOAD
without go, or while a load is busy, changes the register only; a go starts the load of its slot. Verification, once a load, refuses the
draft, or with no draft active applies it whole, or starts the reloads. A panel of ports is applied when its ports have drained, one of
shuttles when every migration of it is ready. A drain of 5 ms flushes the ports and applies, or ends the load of a panel of shuttles. A go of
DFT_PORT_RST resets the port; one of DFT_SHT_RST on a SPARE or FAILED shuttle returns its S registers to reset and empties what it held, and
on any other changes the register only. -/
def Obligations.DraftsAndUnitResets : Prop :=
  (∀ (s : State) (val : Word),
      let u := s.storeReg R.DFT_LOAD val
      let w := s.storeReg R.DFT_PORT_RST val
      let x := s.storeReg R.DFT_SHT_RST val
      let p := bits val.toNat 0 10
      let mine (off : Nat) : Bool := decide (0x1000000 + p * 0x2000 ≤ off ∧ off < 0x1000000 + (p + 1) * 0x2000)
      exec (.draftLoad val) s = .next (kept s (
        if bitOf val.toNat 31 = true ∧ u.flag F.DFT_STATUS_busy = false then
          { u.setFlag F.DFT_STATUS_busy true with
            drf := { u.drf with load := some { slot := bits val.toNat 0 1, since := u.now } } }
        else u))
      ∧ exec (.portReset val) s
          = .next (kept s (settle (if bitOf val.toNat 31 = true then portReset (bits val.toNat 0 9) w else w)))
      ∧ exec (.shuttleReset val) s = .next (kept s (
          if bitOf val.toNat 31 = true ∧ p < 544 ∧ (shtRole x p = 0 ∨ shtRole x p = 3) then
            (resetRegs (fun off dom => dom == .s && mine off) x).onSht p fun _ => {}
          else x)))
  ∧ (∀ s : State,
      (s.drf.load = none →
        ∀ c ∈ [Instr.draftVerifyDone, .panelDrainEnd, .drainTmo], exec c s = .next (kept s (settle s)))
      ∧ (∀ ld, s.drf.load = some ld →
          let live := s.flag F.DFT_STATUS_valid
          let refused := match verifySlot s ld.slot with
            | some r => some r
            | none => if live = true then liveCheck s ld.slot else none
          let reload := loadOn (onLoad (fun l => { l with verified := true, todo := reloadList s ld.slot }) s)
          (ld.verified = true → exec .draftVerifyDone s = .next (kept s (settle s)))
          ∧ (ld.verified = false →
              (∀ r, refused = some r →
                exec .draftVerifyDone s = .next (kept s (settle (endLoad 2 (showRefusal ld.slot r s)))))
              ∧ (refused = none → exec .draftVerifyDone s
                  = .next (kept s (settle (if live = true then reload else endLoad 1 (applyDraft ld.slot s))))))
          ∧ (∀ k, ld.draining = some (1, k) →
              exec .panelDrainEnd s = .next (kept s (settle (
                if ld.ports.all (portDrained s) = true then loadOn (notePanel (applyPorts k ld.slot ld.ports s)) else s)))
              ∧ exec .drainTmo s = .next (kept s (settle (
                  if s.now < ld.since + 5000000 then s
                  else loadOn (notePanel (applyPorts k ld.slot ld.ports (forEach ld.ports flushPort s)))))))
          ∧ (∀ d, ld.draining = some (2, d) →
              let u := ((applyShuttles d ld.slot s).setFlag F.GLB_SHT_MIG_STATUS_busy false).setFld F.GLB_SHT_MIG_STATUS_result 1
              exec .panelDrainEnd s = .next (kept s (settle (
                if s.shts.panel ≠ [] ∧ s.shts.panel.all (switchReady s) = true then loadOn (notePanel (raiseInt 4 u)) else s)))
              ∧ exec .drainTmo s
                  = .next (kept s (settle (if s.now < ld.since + 5000000 then s else endLoad 3 (liftFreezes s)))))
          ∧ ((∀ k, ld.draining ≠ some (1, k)) → (∀ k, ld.draining ≠ some (2, k)) →
              exec .panelDrainEnd s = .next (kept s (settle s)) ∧ exec .drainTmo s = .next (kept s (settle s)))))

/-- LIFE_CYCLE_REQUEST and LIFE_CYCLE_TRANSITION_DONE complete (R507). A write of AON_LC_CTL without the key changes the register only; one
with it is refused with vector 13 while a transition or a load is busy, or a load is mixed, or for a state that may not follow; else busy is
set, the dump area is erased and the target is remembered. At the end of a transition the record is written, the fuses hold the target, the
state shows and busy clears, and outside a fatal state a warm reset begins; with none in progress nothing happens. -/
def Obligations.LifeCycleTransitions : Prop :=
  (∀ (s : State) (val : Word),
      let u := s.storeReg R.AON_LC_CTL val
      let t := bits val.toNat 0 2
      let no := u.flag F.AON_LC_busy = true ∨ u.flag F.DFT_STATUS_busy = true ∨ u.flag F.DFT_STATUS_mixed = true
        ∨ lcAllowed u t = false
      let v := flashErase 0x3100000 0x810000 (u.setFlag F.AON_LC_busy true)
      let w := if bits val.toNat 8 8 ≠ 0x4C then u
        else if no then raiseInt 13 (u.setFlag F.AON_LC_refused true)
        else { v with fuses := { v.fuses with lcTarget := some t } }
      exec (.lifeCycleRequest val) s = .next { w with pending := s.pending, now := s.now })
  ∧ (∀ s : State,
      (s.fuses.lcTarget = none → exec .lifeCycleTransitionDone s = .next s)
      ∧ (∀ t, s.fuses.lcTarget = some t →
          let u := raiseInt 12 ((storeSelvedge s).setFlag F.SEL_STATUS_busy false)
          let v := loadSelvedge (blowFuses t { u with mgt := { u.mgt with selAgain := false } })
          let w := (v.setFld F.AON_LC_state t).setFlag F.AON_LC_busy false
          let x := forEach (w.fuses.keyHash.take 12).zipIdx (fun y z => z.wr (R.AON_LC_HASH y.2) y.1) w
          (blowFuses t u).fuses.lcState = t
          ∧ exec .lifeCycleTransitionDone s
            = .next { (if isFatal x = true then x else beginWarm x) with pending := s.pending, now := s.now }))

/-! ### Encodings, counters and memories -/

/-- Decoding the bytes of a well-formed packet, data or control, gives the packet back; they are as many link units as its header says,
which its first link unit tells. -/
def Obligations.WireRoundTrip : Prop :=
  ∀ pk : Pkt, pk.wf = true →
    decodePkt (encodePkt pk) = some pk ∧ (encodePkt pk).length = 64 * nLuOf pk
      ∧ luNeed ((encodePkt pk).take 64) = some (nLuOf pk)

/-- Decoding the 64 bytes of a link-control unit gives the unit back; with another CRC they are no unit. -/
def Obligations.LcuRoundTrip : Prop :=
  ∀ u : Lcu, u.wf = true →
    decodeLcu (encodeLcu u) = some u ∧ (encodeLcu u).length = 64
      ∧ ∀ w : Word, w ≠ crc32c (lcuCovered u) → decodeLcu (lcuCovered u ++ wordBytes w) = none

/-- What the CRC of a packet tells: the right value good, the right value xor 0xFFFF_FFFF stomped, any other a CRC error; for data and
for control packets. -/
def Obligations.CrcTellsGoodStompedBad : Prop :=
  let verdict (got want : Word) : Crc := if got = want then .good else if got = want ^^^ 0xFFFFFFFF#32 then .stomped else .bad
  (∀ (p : Packet) (w : Word), crcCheck (dataBody p ++ wordBytes w) = verdict w (crc32c (dataBody p)))
  ∧ (∀ (c : Ctl) (w : Word),
      crcCheck (wordBytes (ctlWord0 c) ++ wordBytes c.w1 ++ wordBytes c.w2 ++ wordBytes w ++ c.body)
        = verdict w (crc32c (wordBytes (ctlWord0 c) ++ wordBytes c.w1 ++ wordBytes c.w2 ++ c.body)))

/-- A counter field inside a register adds what it counts and stops at its maximum; it never wraps, and no other bit of the register and
no other register changes. -/
def Obligations.CountersSaturate : Prop :=
  ∀ (s : State) (f : FieldRef) (n : Nat), f.lo + f.width ≤ 32 →
    (s.bumpBy f n).fld f = min (s.fld f + n) (2 ^ f.width - 1) ∧ s.fld f ≤ (s.bumpBy f n).fld f
      ∧ (∀ i, i < f.lo ∨ f.lo + f.width ≤ i → ((s.bumpBy f n).rd f.off).getLsbD i = (s.rd f.off).getLsbD i)
      ∧ (∀ o, o ≠ f.off → (s.bumpBy f n).rd o = s.rd o)

/-- Every step keeps the four memories in canonical form: addresses strictly rising and no byte listed at the value an unlisted one reads,
so that equal memories are equal data. -/
def Obligations.MemoriesStayCanonical : Prop :=
  ∀ s t : State, s.mem.wf = true → step s = .next t → t.mem.wf = true
end

