-- ==== Sys2Proof/Laws/Bits.lean ====
section
/-! SUPPORT. Laws of bit fields: what a field reads after it, or another, is written. -/

namespace Sys2Proof.Machine

theorem testBit_bits (n lo width i : Nat) : (bits n lo width).testBit i = (decide (i < width) && n.testBit (lo + i)) := by
  simp [bits, Nat.testBit_mod_two_pow, Nat.testBit_div_two_pow, Nat.add_comm]

theorem bits_lt (n lo width : Nat) : bits n lo width < 2 ^ width := Nat.mod_lt _ (Nat.two_pow_pos _)

theorem getLsbD_fieldMask (lo width i : Nat) :
    (fieldMask lo width).getLsbD i = (decide (i < 32) && decide (lo ≤ i) && decide (i - lo < width)) := by
  unfold fieldMask
  rw [BitVec.getLsbD_shiftLeft, BitVec.getLsbD_ofNat, Nat.testBit_two_pow_sub_one]
  by_cases h1 : i < 32 <;> by_cases h2 : i < lo <;> by_cases h3 : i - lo < width <;> simp [h1, h2, h3] <;> omega

theorem getLsbD_putBits (w : Word) (lo width n i : Nat) :
    (putBits w lo width n).getLsbD i
      = if i < 32 ∧ lo ≤ i ∧ i - lo < width then n.testBit (i - lo) else w.getLsbD i := by
  unfold putBits
  simp only [BitVec.getLsbD_or, BitVec.getLsbD_and, BitVec.getLsbD_not, getLsbD_fieldMask, BitVec.getLsbD_shiftLeft,
    BitVec.getLsbD_ofNat]
  by_cases h1 : i < 32
  · by_cases h2 : lo ≤ i
    · by_cases h3 : i - lo < width
      · have : ¬ i < lo := by omega
        have h4 : i - lo < 32 := by omega
        simp [h1, h2, h3, this, h4]
      · simp [h1, h2, h3]
    · simp [h1, h2]
  · have hw : w.getLsbD i = false := BitVec.getLsbD_of_ge w i (by omega)
    simp [h1, hw]

/-- The written field reads what was written. -/
theorem bits_putBits_same (w : Word) (lo width n : Nat) (h : lo + width ≤ 32) :
    bits (putBits w lo width n).toNat lo width = n % 2 ^ width := by
  apply Nat.eq_of_testBit_eq
  intro i
  rw [testBit_bits, Nat.testBit_mod_two_pow]
  have : (putBits w lo width n).toNat.testBit (lo + i) = (putBits w lo width n).getLsbD (lo + i) := rfl
  rw [this, getLsbD_putBits]
  by_cases hi : i < width
  · have : lo + i < 32 := by omega
    simp [hi, this]
  · simp [hi]

/-- A disjoint field reads as before. -/
theorem bits_putBits_ne (w : Word) (lo width n lo' width' : Nat) (h : lo + width ≤ lo' ∨ lo' + width' ≤ lo) :
    bits (putBits w lo width n).toNat lo' width' = bits w.toNat lo' width' := by
  apply Nat.eq_of_testBit_eq
  intro i
  rw [testBit_bits, testBit_bits]
  by_cases hi : i < width'
  · have h1 : (putBits w lo width n).toNat.testBit (lo' + i) = (putBits w lo width n).getLsbD (lo' + i) := rfl
    have h2 : w.toNat.testBit (lo' + i) = w.getLsbD (lo' + i) := rfl
    rw [h1, h2, getLsbD_putBits]
    have : ¬ (lo' + i < 32 ∧ lo ≤ lo' + i ∧ lo' + i - lo < width) := by omega
    simp [this]
  · simp [hi]

theorem ofBool_lt (b : Bool) : ofBool b < 2 := by cases b <;> simp [ofBool]

end Sys2Proof.Machine
end

