-- ==== Sys2Proof/Laws/Sparse.lean ====
section
/-! SUPPORT. Laws of the sparse tables: a read after a write, and the canonical form that every operation keeps. -/

namespace Sys2Proof.Machine.Sparse

variable {α : Type}

@[simp] theorem get_nil (d : Nat → α) (k : Nat) : get d [] k = d k := rfl

theorem get_drop_same (d : Nat → α) (m : List (Nat × α)) (k : Nat) : get d (drop m k) k = d k := by
  induction m with
  | nil => rfl
  | cons x m ih =>
    obtain ⟨j, v⟩ := x
    by_cases h : j = k <;> simp [drop, get, h, ih]

theorem get_drop_ne (d : Nat → α) (m : List (Nat × α)) {k k' : Nat} (h : k' ≠ k) :
    get d (drop m k) k' = get d m k' := by
  induction m with
  | nil => rfl
  | cons x m ih =>
    obtain ⟨j, v⟩ := x
    by_cases hj : j = k
    · subst hj; simp [drop, get, ih, Ne.symm h]
    · by_cases hj' : j = k'
      · subst hj'; simp [drop, get, hj]
      · simp [drop, get, hj, hj', ih]

theorem get_place_same (d : Nat → α) (k : Nat) (v : α) (m : List (Nat × α)) (h : ∀ x ∈ m, x.1 ≠ k) :
    get d (place k v m) k = v := by
  induction m with
  | nil => simp [place, get]
  | cons x m ih =>
    obtain ⟨j, w⟩ := x
    by_cases hj : k < j
    · simp [place, get, hj]
    · have h1 : j ≠ k := h (j, w) (by simp)
      simp [place, get, hj, h1]
      exact ih fun x hx => h x (by simp [hx])

theorem get_place_ne (d : Nat → α) (k : Nat) (v : α) (m : List (Nat × α)) {k' : Nat} (h : k' ≠ k) :
    get d (place k v m) k' = get d m k' := by
  induction m with
  | nil => simp [place, get, Ne.symm h]
  | cons x m ih =>
    obtain ⟨j, w⟩ := x
    by_cases hj : k < j
    · simp [place, get, hj, Ne.symm h]
    · by_cases h1 : j = k'
      · subst h1; simp [place, get, hj]
      · simp [place, get, hj, h1, ih]

theorem key_ne_of_mem_drop (m : List (Nat × α)) (k : Nat) : ∀ x ∈ drop m k, x.1 ≠ k := by
  induction m with
  | nil => simp [drop]
  | cons x m ih =>
    obtain ⟨j, v⟩ := x
    by_cases h : j = k
    · simpa [drop, h] using ih
    · intro y hy
      simp [drop, h] at hy
      rcases hy with rfl | hy
      · exact h
      · exact ih y hy

theorem drop_eq_filter (m : List (Nat × α)) (k : Nat) : drop m k = m.filter fun x => decide (x.1 ≠ k) := by
  induction m with
  | nil => rfl
  | cons x m ih =>
    obtain ⟨j, v⟩ := x
    by_cases h : j = k <;> simp [drop, h, ih]

variable [DecidableEq α]

/-- What was written is read. -/
@[simp] theorem get_put_same (d : Nat → α) (m : List (Nat × α)) (k : Nat) (v : α) : get d (put d m k v) k = v := by
  unfold put
  split
  · rename_i h; rw [get_drop_same, h]
  · exact get_place_same d k v _ (key_ne_of_mem_drop m k)

/-- Every other key reads as before. -/
theorem get_put_ne (d : Nat → α) (m : List (Nat × α)) {k k' : Nat} (v : α) (h : k' ≠ k) :
    get d (put d m k v) k' = get d m k' := by
  unfold put
  split
  · exact get_drop_ne d m h
  · rw [get_place_ne d k v _ h, get_drop_ne d m h]

/-- A read after a write. -/
theorem get_put (d : Nat → α) (m : List (Nat × α)) (k k' : Nat) (v : α) :
    get d (put d m k v) k' = if k' = k then v else get d m k' := by
  by_cases h : k' = k
  · subst h; simp
  · simp [h, get_put_ne d m v h]

theorem wfFrom_mono (d : Nat → α) (m : List (Nat × α)) {a b : Nat} (h : a ≤ b) (hw : wfFrom d (some b) m = true) :
    wfFrom d (some a) m = true := by
  cases m with
  | nil => rfl
  | cons x m =>
    obtain ⟨j, v⟩ := x
    simp [wfFrom] at hw ⊢
    exact ⟨⟨by omega, hw.1.2⟩, hw.2⟩

theorem wfFrom_none (d : Nat → α) (m : List (Nat × α)) (a : Nat) (hw : wfFrom d (some a) m = true) :
    wfFrom d none m = true := by
  cases m with
  | nil => rfl
  | cons x m =>
    obtain ⟨j, v⟩ := x
    simp [wfFrom] at hw ⊢
    exact ⟨hw.1.2, hw.2⟩

theorem wfFrom_of_lt (d : Nat → α) (m : List (Nat × α)) (lo : Option Nat) {a : Nat}
    (h : lo.all (· < a) = true) (hw : wfFrom d (some a) m = true) : wfFrom d lo m = true := by
  cases lo with
  | none => exact wfFrom_none d m a hw
  | some b => simp at h; exact wfFrom_mono d m (by omega) hw

theorem wfFrom_filter (d : Nat → α) (f : Nat × α → Bool) (m : List (Nat × α)) (lo : Option Nat)
    (hw : wfFrom d lo m = true) : wfFrom d lo (m.filter f) = true := by
  induction m generalizing lo with
  | nil => rfl
  | cons x m ih =>
    obtain ⟨j, v⟩ := x
    simp only [wfFrom, Bool.and_eq_true] at hw
    by_cases h : f (j, v) = true
    · simp only [List.filter_cons, h, if_true, wfFrom, Bool.and_eq_true]
      exact ⟨hw.1, ih _ hw.2⟩
    · simp only [List.filter_cons, h]
      exact wfFrom_of_lt d _ lo hw.1.1 (ih _ hw.2)

/-- A canonical table filtered is canonical. -/
theorem wf_filter (d : Nat → α) (f : Nat × α → Bool) (m : List (Nat × α)) (hw : wf d m = true) :
    wf d (m.filter f) = true := wfFrom_filter d f m none hw

theorem wfFrom_place (d : Nat → α) (k : Nat) (v : α) (hv : v ≠ d k) (m : List (Nat × α)) (lo : Option Nat)
    (hlo : lo.all (· < k) = true) (hk : ∀ x ∈ m, x.1 ≠ k) (hw : wfFrom d lo m = true) :
    wfFrom d lo (place k v m) = true := by
  induction m generalizing lo with
  | nil => simp [place, wfFrom, hlo, hv]
  | cons x m ih =>
    obtain ⟨j, w⟩ := x
    simp only [wfFrom, Bool.and_eq_true] at hw
    by_cases h : k < j
    · simp only [place, h, if_true, wfFrom, Bool.and_eq_true]
      exact ⟨⟨hlo, by simpa using hv⟩, ⟨by simpa using h, hw.1.2⟩, hw.2⟩
    · have hj : j ≠ k := hk (j, w) (by simp)
      simp only [place, h, if_false, wfFrom, Bool.and_eq_true]
      exact ⟨hw.1, ih (some j) (by simp; omega) (fun x hx => hk x (by simp [hx])) hw.2⟩

/-- A write keeps the canonical form. -/
theorem wf_put (d : Nat → α) (m : List (Nat × α)) (k : Nat) (v : α) (hw : wf d m = true) : wf d (put d m k v) = true := by
  have hd : wf d (drop m k) = true := by rw [drop_eq_filter]; exact wf_filter d _ m hw
  unfold put
  split
  · exact hd
  · rename_i h
    exact wfFrom_place d k v h _ none rfl (key_ne_of_mem_drop m k) hd

/-- Changing every listed value keeps the canonical form. -/
theorem wf_mapVals (d : Nat → α) (f : Nat → α → α) (m : List (Nat × α)) (hw : wf d m = true) :
    wf d (mapVals d f m) = true := by
  have key : ∀ (m : List (Nat × α)) (lo : Option Nat), wfFrom d lo m = true →
      wfFrom d lo ((m.map fun kv => (kv.1, f kv.1 kv.2)).filter fun kv => kv.2 ≠ d kv.1) = true := by
    intro m
    induction m with
    | nil => intro lo _; rfl
    | cons x m ih =>
      intro lo h
      obtain ⟨j, v⟩ := x
      simp only [wfFrom, Bool.and_eq_true] at h
      by_cases hf : f j v = d j
      · simp only [List.map_cons, List.filter_cons, hf, ne_eq, not_true_eq_false, decide_false]
        exact wfFrom_of_lt d _ lo h.1.1 (ih _ h.2)
      · simp only [List.map_cons, List.filter_cons, hf, ne_eq, not_false_eq_true, decide_true, if_true, wfFrom,
          Bool.and_eq_true]
        exact ⟨⟨h.1.1, trivial⟩, ih _ h.2⟩
  exact key m none hw

end Sys2Proof.Machine.Sparse
end

