-- ==== Sys2Proof/Laws/State.lean ====
section
/-! SUPPORT. Laws of the state: what each update leaves alone, field by field, and what a register or a record reads after a
write. -/

namespace Sys2Proof.Machine

variable (s : State)

/-! ### What each update leaves alone -/

@[simp] theorem State.wr_frame (o : Nat) (v : Word) :
    (s.wr o v).pending = s.pending ∧ (s.wr o v).now = s.now ∧ (s.wr o v).tbase0 = s.tbase0
    ∧ (s.wr o v).ponAt = s.ponAt ∧ (s.wr o v).ponBase = s.ponBase ∧ (s.wr o v).free = s.free ∧ (s.wr o v).out = s.out
    ∧ (s.wr o v).latch = s.latch ∧ (s.wr o v).fuses = s.fuses ∧ (s.wr o v).mem = s.mem ∧ (s.wr o v).flt = s.flt
    ∧ (s.wr o v).ctxRst = s.ctxRst ∧ (s.wr o v).fab = s.fab ∧ (s.wr o v).core = s.core ∧ (s.wr o v).link = s.link
    ∧ (s.wr o v).disc = s.disc ∧ (s.wr o v).rte = s.rte ∧ (s.wr o v).grp = s.grp ∧ (s.wr o v).shts = s.shts
    ∧ (s.wr o v).sched = s.sched ∧ (s.wr o v).time = s.time ∧ (s.wr o v).lanes = s.lanes ∧ (s.wr o v).pwr = s.pwr
    ∧ (s.wr o v).mgt = s.mgt ∧ (s.wr o v).drf = s.drf
    ∧ (s.wr o v).ecc = s.ecc ∧ (s.wr o v).jtag = s.jtag :=
  ⟨rfl, rfl, rfl, rfl, rfl, rfl, rfl, rfl, rfl, rfl, rfl, rfl, rfl, rfl, rfl, rfl, rfl, rfl, rfl, rfl, rfl, rfl, rfl, rfl, rfl, rfl, rfl⟩

@[simp] theorem State.setCellErr_frame (c : Nat) (v : Option Bool) :
    (s.setCellErr c v).pending = s.pending ∧ (s.setCellErr c v).now = s.now ∧ (s.setCellErr c v).tbase0 = s.tbase0
    ∧ (s.setCellErr c v).ponAt = s.ponAt ∧ (s.setCellErr c v).ponBase = s.ponBase ∧ (s.setCellErr c v).free = s.free
    ∧ (s.setCellErr c v).out = s.out ∧ (s.setCellErr c v).regs = s.regs ∧ (s.setCellErr c v).latch = s.latch
    ∧ (s.setCellErr c v).fuses = s.fuses ∧ (s.setCellErr c v).mem = s.mem ∧ (s.setCellErr c v).flt = s.flt
    ∧ (s.setCellErr c v).ctxRst = s.ctxRst ∧ (s.setCellErr c v).fab = s.fab ∧ (s.setCellErr c v).core = s.core
    ∧ (s.setCellErr c v).link = s.link ∧ (s.setCellErr c v).disc = s.disc ∧ (s.setCellErr c v).rte = s.rte
    ∧ (s.setCellErr c v).grp = s.grp ∧ (s.setCellErr c v).shts = s.shts ∧ (s.setCellErr c v).sched = s.sched
    ∧ (s.setCellErr c v).time = s.time ∧ (s.setCellErr c v).lanes = s.lanes ∧ (s.setCellErr c v).pwr = s.pwr
    ∧ (s.setCellErr c v).mgt = s.mgt ∧ (s.setCellErr c v).drf = s.drf ∧ (s.setCellErr c v).jtag = s.jtag :=
  ⟨rfl, rfl, rfl, rfl, rfl, rfl, rfl, rfl, rfl, rfl, rfl, rfl, rfl, rfl, rfl, rfl, rfl, rfl, rfl, rfl, rfl, rfl, rfl, rfl, rfl, rfl, rfl⟩

@[simp] theorem State.setWordErr_frame (w : Nat) (v : Option Bool) :
    (s.setWordErr w v).pending = s.pending ∧ (s.setWordErr w v).now = s.now ∧ (s.setWordErr w v).tbase0 = s.tbase0
    ∧ (s.setWordErr w v).ponAt = s.ponAt ∧ (s.setWordErr w v).ponBase = s.ponBase ∧ (s.setWordErr w v).free = s.free
    ∧ (s.setWordErr w v).out = s.out ∧ (s.setWordErr w v).regs = s.regs ∧ (s.setWordErr w v).latch = s.latch
    ∧ (s.setWordErr w v).fuses = s.fuses ∧ (s.setWordErr w v).mem = s.mem ∧ (s.setWordErr w v).flt = s.flt
    ∧ (s.setWordErr w v).ctxRst = s.ctxRst ∧ (s.setWordErr w v).fab = s.fab ∧ (s.setWordErr w v).core = s.core
    ∧ (s.setWordErr w v).link = s.link ∧ (s.setWordErr w v).disc = s.disc ∧ (s.setWordErr w v).rte = s.rte
    ∧ (s.setWordErr w v).grp = s.grp ∧ (s.setWordErr w v).shts = s.shts ∧ (s.setWordErr w v).sched = s.sched
    ∧ (s.setWordErr w v).time = s.time ∧ (s.setWordErr w v).lanes = s.lanes ∧ (s.setWordErr w v).pwr = s.pwr
    ∧ (s.setWordErr w v).mgt = s.mgt ∧ (s.setWordErr w v).drf = s.drf ∧ (s.setWordErr w v).jtag = s.jtag :=
  ⟨rfl, rfl, rfl, rfl, rfl, rfl, rfl, rfl, rfl, rfl, rfl, rfl, rfl, rfl, rfl, rfl, rfl, rfl, rfl, rfl, rfl, rfl, rfl, rfl, rfl, rfl, rfl⟩

@[simp] theorem State.setFld_frame (f : FieldRef) (n : Nat) :
    (s.setFld f n).pending = s.pending ∧ (s.setFld f n).now = s.now ∧ (s.setFld f n).tbase0 = s.tbase0
    ∧ (s.setFld f n).ponAt = s.ponAt ∧ (s.setFld f n).ponBase = s.ponBase ∧ (s.setFld f n).free = s.free
    ∧ (s.setFld f n).out = s.out ∧ (s.setFld f n).latch = s.latch ∧ (s.setFld f n).fuses = s.fuses
    ∧ (s.setFld f n).mem = s.mem ∧ (s.setFld f n).flt = s.flt ∧ (s.setFld f n).ctxRst = s.ctxRst
    ∧ (s.setFld f n).fab = s.fab ∧ (s.setFld f n).core = s.core ∧ (s.setFld f n).link = s.link
    ∧ (s.setFld f n).disc = s.disc ∧ (s.setFld f n).rte = s.rte ∧ (s.setFld f n).grp = s.grp
    ∧ (s.setFld f n).shts = s.shts ∧ (s.setFld f n).sched = s.sched ∧ (s.setFld f n).time = s.time
    ∧ (s.setFld f n).lanes = s.lanes ∧ (s.setFld f n).pwr = s.pwr ∧ (s.setFld f n).mgt = s.mgt
    ∧ (s.setFld f n).drf = s.drf
    ∧ (s.setFld f n).ecc = s.ecc ∧ (s.setFld f n).jtag = s.jtag :=
  ⟨rfl, rfl, rfl, rfl, rfl, rfl, rfl, rfl, rfl, rfl, rfl, rfl, rfl, rfl, rfl, rfl, rfl, rfl, rfl, rfl, rfl, rfl, rfl, rfl, rfl, rfl, rfl⟩

@[simp] theorem State.setFlag_frame (f : FieldRef) (b : Bool) :
    (s.setFlag f b).pending = s.pending ∧ (s.setFlag f b).now = s.now ∧ (s.setFlag f b).tbase0 = s.tbase0
    ∧ (s.setFlag f b).ponAt = s.ponAt ∧ (s.setFlag f b).ponBase = s.ponBase ∧ (s.setFlag f b).free = s.free
    ∧ (s.setFlag f b).out = s.out ∧ (s.setFlag f b).latch = s.latch ∧ (s.setFlag f b).fuses = s.fuses
    ∧ (s.setFlag f b).mem = s.mem ∧ (s.setFlag f b).flt = s.flt ∧ (s.setFlag f b).ctxRst = s.ctxRst
    ∧ (s.setFlag f b).fab = s.fab ∧ (s.setFlag f b).core = s.core ∧ (s.setFlag f b).link = s.link
    ∧ (s.setFlag f b).disc = s.disc ∧ (s.setFlag f b).rte = s.rte ∧ (s.setFlag f b).grp = s.grp
    ∧ (s.setFlag f b).shts = s.shts ∧ (s.setFlag f b).sched = s.sched ∧ (s.setFlag f b).time = s.time
    ∧ (s.setFlag f b).lanes = s.lanes ∧ (s.setFlag f b).pwr = s.pwr ∧ (s.setFlag f b).mgt = s.mgt
    ∧ (s.setFlag f b).drf = s.drf
    ∧ (s.setFlag f b).ecc = s.ecc ∧ (s.setFlag f b).jtag = s.jtag :=
  ⟨rfl, rfl, rfl, rfl, rfl, rfl, rfl, rfl, rfl, rfl, rfl, rfl, rfl, rfl, rfl, rfl, rfl, rfl, rfl, rfl, rfl, rfl, rfl, rfl, rfl, rfl, rfl⟩

@[simp] theorem State.bumpBy_frame (f : FieldRef) (n : Nat) :
    (s.bumpBy f n).pending = s.pending ∧ (s.bumpBy f n).now = s.now ∧ (s.bumpBy f n).tbase0 = s.tbase0
    ∧ (s.bumpBy f n).ponAt = s.ponAt ∧ (s.bumpBy f n).ponBase = s.ponBase ∧ (s.bumpBy f n).free = s.free
    ∧ (s.bumpBy f n).out = s.out ∧ (s.bumpBy f n).latch = s.latch ∧ (s.bumpBy f n).fuses = s.fuses
    ∧ (s.bumpBy f n).mem = s.mem ∧ (s.bumpBy f n).flt = s.flt ∧ (s.bumpBy f n).ctxRst = s.ctxRst
    ∧ (s.bumpBy f n).fab = s.fab ∧ (s.bumpBy f n).core = s.core ∧ (s.bumpBy f n).link = s.link
    ∧ (s.bumpBy f n).disc = s.disc ∧ (s.bumpBy f n).rte = s.rte ∧ (s.bumpBy f n).grp = s.grp
    ∧ (s.bumpBy f n).shts = s.shts ∧ (s.bumpBy f n).sched = s.sched ∧ (s.bumpBy f n).time = s.time
    ∧ (s.bumpBy f n).lanes = s.lanes ∧ (s.bumpBy f n).pwr = s.pwr ∧ (s.bumpBy f n).mgt = s.mgt
    ∧ (s.bumpBy f n).drf = s.drf
    ∧ (s.bumpBy f n).ecc = s.ecc ∧ (s.bumpBy f n).jtag = s.jtag :=
  ⟨rfl, rfl, rfl, rfl, rfl, rfl, rfl, rfl, rfl, rfl, rfl, rfl, rfl, rfl, rfl, rfl, rfl, rfl, rfl, rfl, rfl, rfl, rfl, rfl, rfl, rfl, rfl⟩

@[simp] theorem State.bump_frame (f : FieldRef) :
    (s.bump f).pending = s.pending ∧ (s.bump f).now = s.now ∧ (s.bump f).tbase0 = s.tbase0
    ∧ (s.bump f).ponAt = s.ponAt ∧ (s.bump f).ponBase = s.ponBase ∧ (s.bump f).free = s.free ∧ (s.bump f).out = s.out
    ∧ (s.bump f).latch = s.latch ∧ (s.bump f).fuses = s.fuses ∧ (s.bump f).mem = s.mem ∧ (s.bump f).flt = s.flt
    ∧ (s.bump f).ctxRst = s.ctxRst ∧ (s.bump f).fab = s.fab ∧ (s.bump f).core = s.core ∧ (s.bump f).link = s.link
    ∧ (s.bump f).disc = s.disc ∧ (s.bump f).rte = s.rte ∧ (s.bump f).grp = s.grp ∧ (s.bump f).shts = s.shts
    ∧ (s.bump f).sched = s.sched ∧ (s.bump f).time = s.time ∧ (s.bump f).lanes = s.lanes ∧ (s.bump f).pwr = s.pwr
    ∧ (s.bump f).mgt = s.mgt ∧ (s.bump f).drf = s.drf
    ∧ (s.bump f).ecc = s.ecc ∧ (s.bump f).jtag = s.jtag :=
  ⟨rfl, rfl, rfl, rfl, rfl, rfl, rfl, rfl, rfl, rfl, rfl, rfl, rfl, rfl, rfl, rfl, rfl, rfl, rfl, rfl, rfl, rfl, rfl, rfl, rfl, rfl, rfl⟩

@[simp] theorem State.storeReg_frame (o : Nat) (v : Word) :
    (s.storeReg o v).pending = s.pending ∧ (s.storeReg o v).now = s.now ∧ (s.storeReg o v).tbase0 = s.tbase0
    ∧ (s.storeReg o v).ponAt = s.ponAt ∧ (s.storeReg o v).ponBase = s.ponBase ∧ (s.storeReg o v).free = s.free
    ∧ (s.storeReg o v).out = s.out ∧ (s.storeReg o v).latch = s.latch ∧ (s.storeReg o v).fuses = s.fuses
    ∧ (s.storeReg o v).mem = s.mem ∧ (s.storeReg o v).flt = s.flt ∧ (s.storeReg o v).ctxRst = s.ctxRst
    ∧ (s.storeReg o v).fab = s.fab ∧ (s.storeReg o v).core = s.core ∧ (s.storeReg o v).link = s.link
    ∧ (s.storeReg o v).disc = s.disc ∧ (s.storeReg o v).rte = s.rte ∧ (s.storeReg o v).grp = s.grp
    ∧ (s.storeReg o v).shts = s.shts ∧ (s.storeReg o v).sched = s.sched ∧ (s.storeReg o v).time = s.time
    ∧ (s.storeReg o v).lanes = s.lanes ∧ (s.storeReg o v).pwr = s.pwr ∧ (s.storeReg o v).mgt = s.mgt
    ∧ (s.storeReg o v).drf = s.drf
    ∧ (s.storeReg o v).ecc = s.ecc ∧ (s.storeReg o v).jtag = s.jtag :=
  ⟨rfl, rfl, rfl, rfl, rfl, rfl, rfl, rfl, rfl, rfl, rfl, rfl, rfl, rfl, rfl, rfl, rfl, rfl, rfl, rfl, rfl, rfl, rfl, rfl, rfl, rfl, rfl⟩

@[simp] theorem State.emit_frame (o : Output) :
    (s.emit o).pending = s.pending ∧ (s.emit o).now = s.now ∧ (s.emit o).tbase0 = s.tbase0
    ∧ (s.emit o).ponAt = s.ponAt ∧ (s.emit o).ponBase = s.ponBase ∧ (s.emit o).free = s.free
    ∧ (s.emit o).regs = s.regs ∧ (s.emit o).latch = s.latch ∧ (s.emit o).fuses = s.fuses ∧ (s.emit o).mem = s.mem
    ∧ (s.emit o).flt = s.flt ∧ (s.emit o).ctxRst = s.ctxRst ∧ (s.emit o).fab = s.fab ∧ (s.emit o).core = s.core
    ∧ (s.emit o).link = s.link ∧ (s.emit o).disc = s.disc ∧ (s.emit o).rte = s.rte ∧ (s.emit o).grp = s.grp
    ∧ (s.emit o).shts = s.shts ∧ (s.emit o).sched = s.sched ∧ (s.emit o).time = s.time ∧ (s.emit o).lanes = s.lanes
    ∧ (s.emit o).pwr = s.pwr ∧ (s.emit o).mgt = s.mgt ∧ (s.emit o).drf = s.drf
    ∧ (s.emit o).ecc = s.ecc ∧ (s.emit o).jtag = s.jtag :=
  ⟨rfl, rfl, rfl, rfl, rfl, rfl, rfl, rfl, rfl, rfl, rfl, rfl, rfl, rfl, rfl, rfl, rfl, rfl, rfl, rfl, rfl, rfl, rfl, rfl, rfl, rfl, rfl⟩

@[simp] theorem State.setSheetByte_frame (a : Nat) (b : Byte) :
    (s.setSheetByte a b).pending = s.pending ∧ (s.setSheetByte a b).now = s.now
    ∧ (s.setSheetByte a b).tbase0 = s.tbase0 ∧ (s.setSheetByte a b).ponAt = s.ponAt
    ∧ (s.setSheetByte a b).ponBase = s.ponBase ∧ (s.setSheetByte a b).free = s.free ∧ (s.setSheetByte a b).out = s.out
    ∧ (s.setSheetByte a b).regs = s.regs ∧ (s.setSheetByte a b).latch = s.latch ∧ (s.setSheetByte a b).fuses = s.fuses
    ∧ (s.setSheetByte a b).flt = s.flt ∧ (s.setSheetByte a b).ctxRst = s.ctxRst ∧ (s.setSheetByte a b).fab = s.fab
    ∧ (s.setSheetByte a b).core = s.core ∧ (s.setSheetByte a b).link = s.link ∧ (s.setSheetByte a b).disc = s.disc
    ∧ (s.setSheetByte a b).rte = s.rte ∧ (s.setSheetByte a b).grp = s.grp ∧ (s.setSheetByte a b).shts = s.shts
    ∧ (s.setSheetByte a b).sched = s.sched ∧ (s.setSheetByte a b).time = s.time ∧ (s.setSheetByte a b).lanes = s.lanes
    ∧ (s.setSheetByte a b).pwr = s.pwr ∧ (s.setSheetByte a b).mgt = s.mgt ∧ (s.setSheetByte a b).drf = s.drf
    ∧ (s.setSheetByte a b).ecc = s.ecc ∧ (s.setSheetByte a b).jtag = s.jtag :=
  ⟨rfl, rfl, rfl, rfl, rfl, rfl, rfl, rfl, rfl, rfl, rfl, rfl, rfl, rfl, rfl, rfl, rfl, rfl, rfl, rfl, rfl, rfl, rfl, rfl, rfl, rfl, rfl⟩

@[simp] theorem State.setFlashByte_frame (a : Nat) (b : Byte) :
    (s.setFlashByte a b).pending = s.pending ∧ (s.setFlashByte a b).now = s.now
    ∧ (s.setFlashByte a b).tbase0 = s.tbase0 ∧ (s.setFlashByte a b).ponAt = s.ponAt
    ∧ (s.setFlashByte a b).ponBase = s.ponBase ∧ (s.setFlashByte a b).free = s.free ∧ (s.setFlashByte a b).out = s.out
    ∧ (s.setFlashByte a b).regs = s.regs ∧ (s.setFlashByte a b).latch = s.latch ∧ (s.setFlashByte a b).fuses = s.fuses
    ∧ (s.setFlashByte a b).flt = s.flt ∧ (s.setFlashByte a b).ctxRst = s.ctxRst ∧ (s.setFlashByte a b).fab = s.fab
    ∧ (s.setFlashByte a b).core = s.core ∧ (s.setFlashByte a b).link = s.link ∧ (s.setFlashByte a b).disc = s.disc
    ∧ (s.setFlashByte a b).rte = s.rte ∧ (s.setFlashByte a b).grp = s.grp ∧ (s.setFlashByte a b).shts = s.shts
    ∧ (s.setFlashByte a b).sched = s.sched ∧ (s.setFlashByte a b).time = s.time ∧ (s.setFlashByte a b).lanes = s.lanes
    ∧ (s.setFlashByte a b).pwr = s.pwr ∧ (s.setFlashByte a b).mgt = s.mgt ∧ (s.setFlashByte a b).drf = s.drf
    ∧ (s.setFlashByte a b).ecc = s.ecc ∧ (s.setFlashByte a b).jtag = s.jtag :=
  ⟨rfl, rfl, rfl, rfl, rfl, rfl, rfl, rfl, rfl, rfl, rfl, rfl, rfl, rfl, rfl, rfl, rfl, rfl, rfl, rfl, rfl, rfl, rfl, rfl, rfl, rfl, rfl⟩

@[simp] theorem State.setCapByte_frame (a : Nat) (b : Byte) :
    (s.setCapByte a b).pending = s.pending ∧ (s.setCapByte a b).now = s.now ∧ (s.setCapByte a b).tbase0 = s.tbase0
    ∧ (s.setCapByte a b).ponAt = s.ponAt ∧ (s.setCapByte a b).ponBase = s.ponBase ∧ (s.setCapByte a b).free = s.free
    ∧ (s.setCapByte a b).out = s.out ∧ (s.setCapByte a b).regs = s.regs ∧ (s.setCapByte a b).latch = s.latch
    ∧ (s.setCapByte a b).fuses = s.fuses ∧ (s.setCapByte a b).flt = s.flt ∧ (s.setCapByte a b).ctxRst = s.ctxRst
    ∧ (s.setCapByte a b).fab = s.fab ∧ (s.setCapByte a b).core = s.core ∧ (s.setCapByte a b).link = s.link
    ∧ (s.setCapByte a b).disc = s.disc ∧ (s.setCapByte a b).rte = s.rte ∧ (s.setCapByte a b).grp = s.grp
    ∧ (s.setCapByte a b).shts = s.shts ∧ (s.setCapByte a b).sched = s.sched ∧ (s.setCapByte a b).time = s.time
    ∧ (s.setCapByte a b).lanes = s.lanes ∧ (s.setCapByte a b).pwr = s.pwr ∧ (s.setCapByte a b).mgt = s.mgt
    ∧ (s.setCapByte a b).drf = s.drf
    ∧ (s.setCapByte a b).ecc = s.ecc ∧ (s.setCapByte a b).jtag = s.jtag :=
  ⟨rfl, rfl, rfl, rfl, rfl, rfl, rfl, rfl, rfl, rfl, rfl, rfl, rfl, rfl, rfl, rfl, rfl, rfl, rfl, rfl, rfl, rfl, rfl, rfl, rfl, rfl, rfl⟩

@[simp] theorem State.setSelByte_frame (a : Nat) (b : Byte) :
    (s.setSelByte a b).pending = s.pending ∧ (s.setSelByte a b).now = s.now ∧ (s.setSelByte a b).tbase0 = s.tbase0
    ∧ (s.setSelByte a b).ponAt = s.ponAt ∧ (s.setSelByte a b).ponBase = s.ponBase ∧ (s.setSelByte a b).free = s.free
    ∧ (s.setSelByte a b).out = s.out ∧ (s.setSelByte a b).regs = s.regs ∧ (s.setSelByte a b).latch = s.latch
    ∧ (s.setSelByte a b).fuses = s.fuses ∧ (s.setSelByte a b).flt = s.flt ∧ (s.setSelByte a b).ctxRst = s.ctxRst
    ∧ (s.setSelByte a b).fab = s.fab ∧ (s.setSelByte a b).core = s.core ∧ (s.setSelByte a b).link = s.link
    ∧ (s.setSelByte a b).disc = s.disc ∧ (s.setSelByte a b).rte = s.rte ∧ (s.setSelByte a b).grp = s.grp
    ∧ (s.setSelByte a b).shts = s.shts ∧ (s.setSelByte a b).sched = s.sched ∧ (s.setSelByte a b).time = s.time
    ∧ (s.setSelByte a b).lanes = s.lanes ∧ (s.setSelByte a b).pwr = s.pwr ∧ (s.setSelByte a b).mgt = s.mgt
    ∧ (s.setSelByte a b).drf = s.drf
    ∧ (s.setSelByte a b).ecc = s.ecc ∧ (s.setSelByte a b).jtag = s.jtag :=
  ⟨rfl, rfl, rfl, rfl, rfl, rfl, rfl, rfl, rfl, rfl, rfl, rfl, rfl, rfl, rfl, rfl, rfl, rfl, rfl, rfl, rfl, rfl, rfl, rfl, rfl, rfl, rfl⟩

@[simp] theorem State.onLnk_frame (p : Nat) (g : LinkSt → LinkSt) :
    (s.onLnk p g).pending = s.pending ∧ (s.onLnk p g).now = s.now ∧ (s.onLnk p g).tbase0 = s.tbase0
    ∧ (s.onLnk p g).ponAt = s.ponAt ∧ (s.onLnk p g).ponBase = s.ponBase ∧ (s.onLnk p g).free = s.free
    ∧ (s.onLnk p g).out = s.out ∧ (s.onLnk p g).regs = s.regs ∧ (s.onLnk p g).latch = s.latch
    ∧ (s.onLnk p g).fuses = s.fuses ∧ (s.onLnk p g).mem = s.mem ∧ (s.onLnk p g).flt = s.flt
    ∧ (s.onLnk p g).ctxRst = s.ctxRst ∧ (s.onLnk p g).fab = s.fab ∧ (s.onLnk p g).core = s.core
    ∧ (s.onLnk p g).disc = s.disc ∧ (s.onLnk p g).rte = s.rte ∧ (s.onLnk p g).grp = s.grp
    ∧ (s.onLnk p g).shts = s.shts ∧ (s.onLnk p g).sched = s.sched ∧ (s.onLnk p g).time = s.time
    ∧ (s.onLnk p g).lanes = s.lanes ∧ (s.onLnk p g).pwr = s.pwr ∧ (s.onLnk p g).mgt = s.mgt
    ∧ (s.onLnk p g).drf = s.drf
    ∧ (s.onLnk p g).ecc = s.ecc ∧ (s.onLnk p g).jtag = s.jtag :=
  ⟨rfl, rfl, rfl, rfl, rfl, rfl, rfl, rfl, rfl, rfl, rfl, rfl, rfl, rfl, rfl, rfl, rfl, rfl, rfl, rfl, rfl, rfl, rfl, rfl, rfl, rfl, rfl⟩

@[simp] theorem State.onPdisc_frame (p : Nat) (g : PortDisc → PortDisc) :
    (s.onPdisc p g).pending = s.pending ∧ (s.onPdisc p g).now = s.now ∧ (s.onPdisc p g).tbase0 = s.tbase0
    ∧ (s.onPdisc p g).ponAt = s.ponAt ∧ (s.onPdisc p g).ponBase = s.ponBase ∧ (s.onPdisc p g).free = s.free
    ∧ (s.onPdisc p g).out = s.out ∧ (s.onPdisc p g).regs = s.regs ∧ (s.onPdisc p g).latch = s.latch
    ∧ (s.onPdisc p g).fuses = s.fuses ∧ (s.onPdisc p g).mem = s.mem ∧ (s.onPdisc p g).flt = s.flt
    ∧ (s.onPdisc p g).ctxRst = s.ctxRst ∧ (s.onPdisc p g).fab = s.fab ∧ (s.onPdisc p g).core = s.core
    ∧ (s.onPdisc p g).link = s.link ∧ (s.onPdisc p g).rte = s.rte ∧ (s.onPdisc p g).grp = s.grp
    ∧ (s.onPdisc p g).shts = s.shts ∧ (s.onPdisc p g).sched = s.sched ∧ (s.onPdisc p g).time = s.time
    ∧ (s.onPdisc p g).lanes = s.lanes ∧ (s.onPdisc p g).pwr = s.pwr ∧ (s.onPdisc p g).mgt = s.mgt
    ∧ (s.onPdisc p g).drf = s.drf
    ∧ (s.onPdisc p g).ecc = s.ecc ∧ (s.onPdisc p g).jtag = s.jtag :=
  ⟨rfl, rfl, rfl, rfl, rfl, rfl, rfl, rfl, rfl, rfl, rfl, rfl, rfl, rfl, rfl, rfl, rfl, rfl, rfl, rfl, rfl, rfl, rfl, rfl, rfl, rfl, rfl⟩

@[simp] theorem State.onQsch_frame (k : Nat) (g : QSched → QSched) :
    (s.onQsch k g).pending = s.pending ∧ (s.onQsch k g).now = s.now ∧ (s.onQsch k g).tbase0 = s.tbase0
    ∧ (s.onQsch k g).ponAt = s.ponAt ∧ (s.onQsch k g).ponBase = s.ponBase ∧ (s.onQsch k g).free = s.free
    ∧ (s.onQsch k g).out = s.out ∧ (s.onQsch k g).regs = s.regs ∧ (s.onQsch k g).latch = s.latch
    ∧ (s.onQsch k g).fuses = s.fuses ∧ (s.onQsch k g).mem = s.mem ∧ (s.onQsch k g).flt = s.flt
    ∧ (s.onQsch k g).ctxRst = s.ctxRst ∧ (s.onQsch k g).fab = s.fab ∧ (s.onQsch k g).core = s.core
    ∧ (s.onQsch k g).link = s.link ∧ (s.onQsch k g).disc = s.disc ∧ (s.onQsch k g).rte = s.rte
    ∧ (s.onQsch k g).grp = s.grp ∧ (s.onQsch k g).shts = s.shts ∧ (s.onQsch k g).time = s.time
    ∧ (s.onQsch k g).lanes = s.lanes ∧ (s.onQsch k g).pwr = s.pwr ∧ (s.onQsch k g).mgt = s.mgt
    ∧ (s.onQsch k g).drf = s.drf
    ∧ (s.onQsch k g).ecc = s.ecc ∧ (s.onQsch k g).jtag = s.jtag :=
  ⟨rfl, rfl, rfl, rfl, rfl, rfl, rfl, rfl, rfl, rfl, rfl, rfl, rfl, rfl, rfl, rfl, rfl, rfl, rfl, rfl, rfl, rfl, rfl, rfl, rfl, rfl, rfl⟩

@[simp] theorem State.onPsch_frame (p : Nat) (g : PSched → PSched) :
    (s.onPsch p g).pending = s.pending ∧ (s.onPsch p g).now = s.now ∧ (s.onPsch p g).tbase0 = s.tbase0
    ∧ (s.onPsch p g).ponAt = s.ponAt ∧ (s.onPsch p g).ponBase = s.ponBase ∧ (s.onPsch p g).free = s.free
    ∧ (s.onPsch p g).out = s.out ∧ (s.onPsch p g).regs = s.regs ∧ (s.onPsch p g).latch = s.latch
    ∧ (s.onPsch p g).fuses = s.fuses ∧ (s.onPsch p g).mem = s.mem ∧ (s.onPsch p g).flt = s.flt
    ∧ (s.onPsch p g).ctxRst = s.ctxRst ∧ (s.onPsch p g).fab = s.fab ∧ (s.onPsch p g).core = s.core
    ∧ (s.onPsch p g).link = s.link ∧ (s.onPsch p g).disc = s.disc ∧ (s.onPsch p g).rte = s.rte
    ∧ (s.onPsch p g).grp = s.grp ∧ (s.onPsch p g).shts = s.shts ∧ (s.onPsch p g).time = s.time
    ∧ (s.onPsch p g).lanes = s.lanes ∧ (s.onPsch p g).pwr = s.pwr ∧ (s.onPsch p g).mgt = s.mgt
    ∧ (s.onPsch p g).drf = s.drf
    ∧ (s.onPsch p g).ecc = s.ecc ∧ (s.onPsch p g).jtag = s.jtag :=
  ⟨rfl, rfl, rfl, rfl, rfl, rfl, rfl, rfl, rfl, rfl, rfl, rfl, rfl, rfl, rfl, rfl, rfl, rfl, rfl, rfl, rfl, rfl, rfl, rfl, rfl, rfl, rfl⟩

@[simp] theorem State.setOrt_frame (e : Nat) (v : OrtEntry) :
    (s.setOrt e v).pending = s.pending ∧ (s.setOrt e v).now = s.now ∧ (s.setOrt e v).tbase0 = s.tbase0
    ∧ (s.setOrt e v).ponAt = s.ponAt ∧ (s.setOrt e v).ponBase = s.ponBase ∧ (s.setOrt e v).free = s.free
    ∧ (s.setOrt e v).out = s.out ∧ (s.setOrt e v).regs = s.regs ∧ (s.setOrt e v).latch = s.latch
    ∧ (s.setOrt e v).fuses = s.fuses ∧ (s.setOrt e v).mem = s.mem ∧ (s.setOrt e v).flt = s.flt
    ∧ (s.setOrt e v).ctxRst = s.ctxRst ∧ (s.setOrt e v).core = s.core ∧ (s.setOrt e v).link = s.link
    ∧ (s.setOrt e v).disc = s.disc ∧ (s.setOrt e v).rte = s.rte ∧ (s.setOrt e v).grp = s.grp
    ∧ (s.setOrt e v).shts = s.shts ∧ (s.setOrt e v).sched = s.sched ∧ (s.setOrt e v).time = s.time
    ∧ (s.setOrt e v).lanes = s.lanes ∧ (s.setOrt e v).pwr = s.pwr ∧ (s.setOrt e v).mgt = s.mgt
    ∧ (s.setOrt e v).drf = s.drf
    ∧ (s.setOrt e v).ecc = s.ecc ∧ (s.setOrt e v).jtag = s.jtag :=
  ⟨rfl, rfl, rfl, rfl, rfl, rfl, rfl, rfl, rfl, rfl, rfl, rfl, rfl, rfl, rfl, rfl, rfl, rfl, rfl, rfl, rfl, rfl, rfl, rfl, rfl, rfl, rfl⟩

@[simp] theorem State.setDir_frame (n : Nat) (v : DirEntry) :
    (s.setDir n v).pending = s.pending ∧ (s.setDir n v).now = s.now ∧ (s.setDir n v).tbase0 = s.tbase0
    ∧ (s.setDir n v).ponAt = s.ponAt ∧ (s.setDir n v).ponBase = s.ponBase ∧ (s.setDir n v).free = s.free
    ∧ (s.setDir n v).out = s.out ∧ (s.setDir n v).regs = s.regs ∧ (s.setDir n v).latch = s.latch
    ∧ (s.setDir n v).fuses = s.fuses ∧ (s.setDir n v).mem = s.mem ∧ (s.setDir n v).flt = s.flt
    ∧ (s.setDir n v).ctxRst = s.ctxRst ∧ (s.setDir n v).core = s.core ∧ (s.setDir n v).link = s.link
    ∧ (s.setDir n v).disc = s.disc ∧ (s.setDir n v).rte = s.rte ∧ (s.setDir n v).grp = s.grp
    ∧ (s.setDir n v).shts = s.shts ∧ (s.setDir n v).sched = s.sched ∧ (s.setDir n v).time = s.time
    ∧ (s.setDir n v).lanes = s.lanes ∧ (s.setDir n v).pwr = s.pwr ∧ (s.setDir n v).mgt = s.mgt
    ∧ (s.setDir n v).drf = s.drf
    ∧ (s.setDir n v).ecc = s.ecc ∧ (s.setDir n v).jtag = s.jtag :=
  ⟨rfl, rfl, rfl, rfl, rfl, rfl, rfl, rfl, rfl, rfl, rfl, rfl, rfl, rfl, rfl, rfl, rfl, rfl, rfl, rfl, rfl, rfl, rfl, rfl, rfl, rfl, rfl⟩

@[simp] theorem State.setFan_frame (r : Nat) (v : Option Fanout) :
    (s.setFan r v).pending = s.pending ∧ (s.setFan r v).now = s.now ∧ (s.setFan r v).tbase0 = s.tbase0
    ∧ (s.setFan r v).ponAt = s.ponAt ∧ (s.setFan r v).ponBase = s.ponBase ∧ (s.setFan r v).free = s.free
    ∧ (s.setFan r v).out = s.out ∧ (s.setFan r v).regs = s.regs ∧ (s.setFan r v).latch = s.latch
    ∧ (s.setFan r v).fuses = s.fuses ∧ (s.setFan r v).mem = s.mem ∧ (s.setFan r v).flt = s.flt
    ∧ (s.setFan r v).ctxRst = s.ctxRst ∧ (s.setFan r v).core = s.core ∧ (s.setFan r v).link = s.link
    ∧ (s.setFan r v).disc = s.disc ∧ (s.setFan r v).rte = s.rte ∧ (s.setFan r v).grp = s.grp
    ∧ (s.setFan r v).shts = s.shts ∧ (s.setFan r v).sched = s.sched ∧ (s.setFan r v).time = s.time
    ∧ (s.setFan r v).lanes = s.lanes ∧ (s.setFan r v).pwr = s.pwr ∧ (s.setFan r v).mgt = s.mgt
    ∧ (s.setFan r v).drf = s.drf
    ∧ (s.setFan r v).ecc = s.ecc ∧ (s.setFan r v).jtag = s.jtag :=
  ⟨rfl, rfl, rfl, rfl, rfl, rfl, rfl, rfl, rfl, rfl, rfl, rfl, rfl, rfl, rfl, rfl, rfl, rfl, rfl, rfl, rfl, rfl, rfl, rfl, rfl, rfl, rfl⟩

@[simp] theorem State.onRver_frame (k : Nat) (g : RouteVer → RouteVer) :
    (s.onRver k g).pending = s.pending ∧ (s.onRver k g).now = s.now ∧ (s.onRver k g).tbase0 = s.tbase0
    ∧ (s.onRver k g).ponAt = s.ponAt ∧ (s.onRver k g).ponBase = s.ponBase ∧ (s.onRver k g).free = s.free
    ∧ (s.onRver k g).out = s.out ∧ (s.onRver k g).regs = s.regs ∧ (s.onRver k g).latch = s.latch
    ∧ (s.onRver k g).fuses = s.fuses ∧ (s.onRver k g).mem = s.mem ∧ (s.onRver k g).flt = s.flt
    ∧ (s.onRver k g).ctxRst = s.ctxRst ∧ (s.onRver k g).fab = s.fab ∧ (s.onRver k g).core = s.core
    ∧ (s.onRver k g).link = s.link ∧ (s.onRver k g).disc = s.disc ∧ (s.onRver k g).grp = s.grp
    ∧ (s.onRver k g).shts = s.shts ∧ (s.onRver k g).sched = s.sched ∧ (s.onRver k g).time = s.time
    ∧ (s.onRver k g).lanes = s.lanes ∧ (s.onRver k g).pwr = s.pwr ∧ (s.onRver k g).mgt = s.mgt
    ∧ (s.onRver k g).drf = s.drf
    ∧ (s.onRver k g).ecc = s.ecc ∧ (s.onRver k g).jtag = s.jtag :=
  ⟨rfl, rfl, rfl, rfl, rfl, rfl, rfl, rfl, rfl, rfl, rfl, rfl, rfl, rfl, rfl, rfl, rfl, rfl, rfl, rfl, rfl, rfl, rfl, rfl, rfl, rfl, rfl⟩

@[simp] theorem State.setCell_frame (c : Nat) (v : CellEnt) :
    (s.setCell c v).pending = s.pending ∧ (s.setCell c v).now = s.now ∧ (s.setCell c v).tbase0 = s.tbase0
    ∧ (s.setCell c v).ponAt = s.ponAt ∧ (s.setCell c v).ponBase = s.ponBase ∧ (s.setCell c v).free = s.free
    ∧ (s.setCell c v).out = s.out ∧ (s.setCell c v).regs = s.regs ∧ (s.setCell c v).latch = s.latch
    ∧ (s.setCell c v).fuses = s.fuses ∧ (s.setCell c v).mem = s.mem ∧ (s.setCell c v).flt = s.flt
    ∧ (s.setCell c v).ctxRst = s.ctxRst ∧ (s.setCell c v).fab = s.fab ∧ (s.setCell c v).link = s.link
    ∧ (s.setCell c v).disc = s.disc ∧ (s.setCell c v).rte = s.rte ∧ (s.setCell c v).grp = s.grp
    ∧ (s.setCell c v).shts = s.shts ∧ (s.setCell c v).sched = s.sched ∧ (s.setCell c v).time = s.time
    ∧ (s.setCell c v).lanes = s.lanes ∧ (s.setCell c v).pwr = s.pwr ∧ (s.setCell c v).mgt = s.mgt
    ∧ (s.setCell c v).drf = s.drf
    ∧ (s.setCell c v).ecc = s.ecc ∧ (s.setCell c v).jtag = s.jtag :=
  ⟨rfl, rfl, rfl, rfl, rfl, rfl, rfl, rfl, rfl, rfl, rfl, rfl, rfl, rfl, rfl, rfl, rfl, rfl, rfl, rfl, rfl, rfl, rfl, rfl, rfl, rfl, rfl⟩

@[simp] theorem State.setEq_frame (k : Nat) (l : List Copy) :
    (s.setEq k l).pending = s.pending ∧ (s.setEq k l).now = s.now ∧ (s.setEq k l).tbase0 = s.tbase0
    ∧ (s.setEq k l).ponAt = s.ponAt ∧ (s.setEq k l).ponBase = s.ponBase ∧ (s.setEq k l).free = s.free
    ∧ (s.setEq k l).out = s.out ∧ (s.setEq k l).regs = s.regs ∧ (s.setEq k l).latch = s.latch
    ∧ (s.setEq k l).fuses = s.fuses ∧ (s.setEq k l).mem = s.mem ∧ (s.setEq k l).flt = s.flt
    ∧ (s.setEq k l).ctxRst = s.ctxRst ∧ (s.setEq k l).fab = s.fab ∧ (s.setEq k l).link = s.link
    ∧ (s.setEq k l).disc = s.disc ∧ (s.setEq k l).rte = s.rte ∧ (s.setEq k l).grp = s.grp
    ∧ (s.setEq k l).shts = s.shts ∧ (s.setEq k l).sched = s.sched ∧ (s.setEq k l).time = s.time
    ∧ (s.setEq k l).lanes = s.lanes ∧ (s.setEq k l).pwr = s.pwr ∧ (s.setEq k l).mgt = s.mgt
    ∧ (s.setEq k l).drf = s.drf
    ∧ (s.setEq k l).ecc = s.ecc ∧ (s.setEq k l).jtag = s.jtag :=
  ⟨rfl, rfl, rfl, rfl, rfl, rfl, rfl, rfl, rfl, rfl, rfl, rfl, rfl, rfl, rfl, rfl, rfl, rfl, rfl, rfl, rfl, rfl, rfl, rfl, rfl, rfl, rfl⟩

@[simp] theorem State.setXq_frame (k : Nat) (l : List Copy) :
    (s.setXq k l).pending = s.pending ∧ (s.setXq k l).now = s.now ∧ (s.setXq k l).tbase0 = s.tbase0
    ∧ (s.setXq k l).ponAt = s.ponAt ∧ (s.setXq k l).ponBase = s.ponBase ∧ (s.setXq k l).free = s.free
    ∧ (s.setXq k l).out = s.out ∧ (s.setXq k l).regs = s.regs ∧ (s.setXq k l).latch = s.latch
    ∧ (s.setXq k l).fuses = s.fuses ∧ (s.setXq k l).mem = s.mem ∧ (s.setXq k l).flt = s.flt
    ∧ (s.setXq k l).ctxRst = s.ctxRst ∧ (s.setXq k l).fab = s.fab ∧ (s.setXq k l).link = s.link
    ∧ (s.setXq k l).disc = s.disc ∧ (s.setXq k l).rte = s.rte ∧ (s.setXq k l).grp = s.grp
    ∧ (s.setXq k l).shts = s.shts ∧ (s.setXq k l).sched = s.sched ∧ (s.setXq k l).time = s.time
    ∧ (s.setXq k l).lanes = s.lanes ∧ (s.setXq k l).pwr = s.pwr ∧ (s.setXq k l).mgt = s.mgt
    ∧ (s.setXq k l).drf = s.drf
    ∧ (s.setXq k l).ecc = s.ecc ∧ (s.setXq k l).jtag = s.jtag :=
  ⟨rfl, rfl, rfl, rfl, rfl, rfl, rfl, rfl, rfl, rfl, rfl, rfl, rfl, rfl, rfl, rfl, rfl, rfl, rfl, rfl, rfl, rfl, rfl, rfl, rfl, rfl, rfl⟩

@[simp] theorem State.setWait_frame (k : Nat) (l : List Waiting) :
    (s.setWait k l).pending = s.pending ∧ (s.setWait k l).now = s.now ∧ (s.setWait k l).tbase0 = s.tbase0
    ∧ (s.setWait k l).ponAt = s.ponAt ∧ (s.setWait k l).ponBase = s.ponBase ∧ (s.setWait k l).free = s.free
    ∧ (s.setWait k l).out = s.out ∧ (s.setWait k l).regs = s.regs ∧ (s.setWait k l).latch = s.latch
    ∧ (s.setWait k l).fuses = s.fuses ∧ (s.setWait k l).mem = s.mem ∧ (s.setWait k l).flt = s.flt
    ∧ (s.setWait k l).ctxRst = s.ctxRst ∧ (s.setWait k l).fab = s.fab ∧ (s.setWait k l).link = s.link
    ∧ (s.setWait k l).disc = s.disc ∧ (s.setWait k l).rte = s.rte ∧ (s.setWait k l).grp = s.grp
    ∧ (s.setWait k l).shts = s.shts ∧ (s.setWait k l).sched = s.sched ∧ (s.setWait k l).time = s.time
    ∧ (s.setWait k l).lanes = s.lanes ∧ (s.setWait k l).pwr = s.pwr ∧ (s.setWait k l).mgt = s.mgt
    ∧ (s.setWait k l).drf = s.drf
    ∧ (s.setWait k l).ecc = s.ecc ∧ (s.setWait k l).jtag = s.jtag :=
  ⟨rfl, rfl, rfl, rfl, rfl, rfl, rfl, rfl, rfl, rfl, rfl, rfl, rfl, rfl, rfl, rfl, rfl, rfl, rfl, rfl, rfl, rfl, rfl, rfl, rfl, rfl, rfl⟩

@[simp] theorem State.setUsed_frame (k n : Nat) :
    (s.setUsed k n).pending = s.pending ∧ (s.setUsed k n).now = s.now ∧ (s.setUsed k n).tbase0 = s.tbase0
    ∧ (s.setUsed k n).ponAt = s.ponAt ∧ (s.setUsed k n).ponBase = s.ponBase ∧ (s.setUsed k n).free = s.free
    ∧ (s.setUsed k n).out = s.out ∧ (s.setUsed k n).regs = s.regs ∧ (s.setUsed k n).latch = s.latch
    ∧ (s.setUsed k n).fuses = s.fuses ∧ (s.setUsed k n).mem = s.mem ∧ (s.setUsed k n).flt = s.flt
    ∧ (s.setUsed k n).ctxRst = s.ctxRst ∧ (s.setUsed k n).fab = s.fab ∧ (s.setUsed k n).link = s.link
    ∧ (s.setUsed k n).disc = s.disc ∧ (s.setUsed k n).rte = s.rte ∧ (s.setUsed k n).grp = s.grp
    ∧ (s.setUsed k n).shts = s.shts ∧ (s.setUsed k n).sched = s.sched ∧ (s.setUsed k n).time = s.time
    ∧ (s.setUsed k n).lanes = s.lanes ∧ (s.setUsed k n).pwr = s.pwr ∧ (s.setUsed k n).mgt = s.mgt
    ∧ (s.setUsed k n).drf = s.drf
    ∧ (s.setUsed k n).ecc = s.ecc ∧ (s.setUsed k n).jtag = s.jtag :=
  ⟨rfl, rfl, rfl, rfl, rfl, rfl, rfl, rfl, rfl, rfl, rfl, rfl, rfl, rfl, rfl, rfl, rfl, rfl, rfl, rfl, rfl, rfl, rfl, rfl, rfl, rfl, rfl⟩

@[simp] theorem State.setGrpE_frame (g : Nat) (v : GrpEnt) :
    (s.setGrpE g v).pending = s.pending ∧ (s.setGrpE g v).now = s.now ∧ (s.setGrpE g v).tbase0 = s.tbase0
    ∧ (s.setGrpE g v).ponAt = s.ponAt ∧ (s.setGrpE g v).ponBase = s.ponBase ∧ (s.setGrpE g v).free = s.free
    ∧ (s.setGrpE g v).out = s.out ∧ (s.setGrpE g v).regs = s.regs ∧ (s.setGrpE g v).latch = s.latch
    ∧ (s.setGrpE g v).fuses = s.fuses ∧ (s.setGrpE g v).mem = s.mem ∧ (s.setGrpE g v).flt = s.flt
    ∧ (s.setGrpE g v).ctxRst = s.ctxRst ∧ (s.setGrpE g v).fab = s.fab ∧ (s.setGrpE g v).core = s.core
    ∧ (s.setGrpE g v).link = s.link ∧ (s.setGrpE g v).disc = s.disc ∧ (s.setGrpE g v).rte = s.rte
    ∧ (s.setGrpE g v).shts = s.shts ∧ (s.setGrpE g v).sched = s.sched ∧ (s.setGrpE g v).time = s.time
    ∧ (s.setGrpE g v).lanes = s.lanes ∧ (s.setGrpE g v).pwr = s.pwr ∧ (s.setGrpE g v).mgt = s.mgt
    ∧ (s.setGrpE g v).drf = s.drf
    ∧ (s.setGrpE g v).ecc = s.ecc ∧ (s.setGrpE g v).jtag = s.jtag :=
  ⟨rfl, rfl, rfl, rfl, rfl, rfl, rfl, rfl, rfl, rfl, rfl, rfl, rfl, rfl, rfl, rfl, rfl, rfl, rfl, rfl, rfl, rfl, rfl, rfl, rfl, rfl, rfl⟩

@[simp] theorem State.setTrk_frame (t : Nat) (v : Option Tracker) :
    (s.setTrk t v).pending = s.pending ∧ (s.setTrk t v).now = s.now ∧ (s.setTrk t v).tbase0 = s.tbase0
    ∧ (s.setTrk t v).ponAt = s.ponAt ∧ (s.setTrk t v).ponBase = s.ponBase ∧ (s.setTrk t v).free = s.free
    ∧ (s.setTrk t v).out = s.out ∧ (s.setTrk t v).regs = s.regs ∧ (s.setTrk t v).latch = s.latch
    ∧ (s.setTrk t v).fuses = s.fuses ∧ (s.setTrk t v).mem = s.mem ∧ (s.setTrk t v).flt = s.flt
    ∧ (s.setTrk t v).ctxRst = s.ctxRst ∧ (s.setTrk t v).fab = s.fab ∧ (s.setTrk t v).core = s.core
    ∧ (s.setTrk t v).link = s.link ∧ (s.setTrk t v).disc = s.disc ∧ (s.setTrk t v).rte = s.rte
    ∧ (s.setTrk t v).shts = s.shts ∧ (s.setTrk t v).sched = s.sched ∧ (s.setTrk t v).time = s.time
    ∧ (s.setTrk t v).lanes = s.lanes ∧ (s.setTrk t v).pwr = s.pwr ∧ (s.setTrk t v).mgt = s.mgt
    ∧ (s.setTrk t v).drf = s.drf
    ∧ (s.setTrk t v).ecc = s.ecc ∧ (s.setTrk t v).jtag = s.jtag :=
  ⟨rfl, rfl, rfl, rfl, rfl, rfl, rfl, rfl, rfl, rfl, rfl, rfl, rfl, rfl, rfl, rfl, rfl, rfl, rfl, rfl, rfl, rfl, rfl, rfl, rfl, rfl, rfl⟩

@[simp] theorem State.onSht_frame (p : Nat) (g : ShtSt → ShtSt) :
    (s.onSht p g).pending = s.pending ∧ (s.onSht p g).now = s.now ∧ (s.onSht p g).tbase0 = s.tbase0
    ∧ (s.onSht p g).ponAt = s.ponAt ∧ (s.onSht p g).ponBase = s.ponBase ∧ (s.onSht p g).free = s.free
    ∧ (s.onSht p g).out = s.out ∧ (s.onSht p g).regs = s.regs ∧ (s.onSht p g).latch = s.latch
    ∧ (s.onSht p g).fuses = s.fuses ∧ (s.onSht p g).mem = s.mem ∧ (s.onSht p g).flt = s.flt
    ∧ (s.onSht p g).ctxRst = s.ctxRst ∧ (s.onSht p g).fab = s.fab ∧ (s.onSht p g).core = s.core
    ∧ (s.onSht p g).link = s.link ∧ (s.onSht p g).disc = s.disc ∧ (s.onSht p g).rte = s.rte
    ∧ (s.onSht p g).grp = s.grp ∧ (s.onSht p g).sched = s.sched ∧ (s.onSht p g).time = s.time
    ∧ (s.onSht p g).lanes = s.lanes ∧ (s.onSht p g).pwr = s.pwr ∧ (s.onSht p g).mgt = s.mgt
    ∧ (s.onSht p g).drf = s.drf
    ∧ (s.onSht p g).ecc = s.ecc ∧ (s.onSht p g).jtag = s.jtag :=
  ⟨rfl, rfl, rfl, rfl, rfl, rfl, rfl, rfl, rfl, rfl, rfl, rfl, rfl, rfl, rfl, rfl, rfl, rfl, rfl, rfl, rfl, rfl, rfl, rfl, rfl, rfl, rfl⟩

@[simp] theorem State.onLane_frame (n : Nat) (g : LaneSt → LaneSt) :
    (s.onLane n g).pending = s.pending ∧ (s.onLane n g).now = s.now ∧ (s.onLane n g).tbase0 = s.tbase0
    ∧ (s.onLane n g).ponAt = s.ponAt ∧ (s.onLane n g).ponBase = s.ponBase ∧ (s.onLane n g).free = s.free
    ∧ (s.onLane n g).out = s.out ∧ (s.onLane n g).regs = s.regs ∧ (s.onLane n g).latch = s.latch
    ∧ (s.onLane n g).fuses = s.fuses ∧ (s.onLane n g).mem = s.mem ∧ (s.onLane n g).flt = s.flt
    ∧ (s.onLane n g).ctxRst = s.ctxRst ∧ (s.onLane n g).fab = s.fab ∧ (s.onLane n g).core = s.core
    ∧ (s.onLane n g).link = s.link ∧ (s.onLane n g).disc = s.disc ∧ (s.onLane n g).rte = s.rte
    ∧ (s.onLane n g).grp = s.grp ∧ (s.onLane n g).shts = s.shts ∧ (s.onLane n g).sched = s.sched
    ∧ (s.onLane n g).time = s.time ∧ (s.onLane n g).pwr = s.pwr ∧ (s.onLane n g).mgt = s.mgt
    ∧ (s.onLane n g).drf = s.drf
    ∧ (s.onLane n g).ecc = s.ecc ∧ (s.onLane n g).jtag = s.jtag :=
  ⟨rfl, rfl, rfl, rfl, rfl, rfl, rfl, rfl, rfl, rfl, rfl, rfl, rfl, rfl, rfl, rfl, rfl, rfl, rfl, rfl, rfl, rfl, rfl, rfl, rfl, rfl, rfl⟩

@[simp] theorem State.onPln_frame (p : Nat) (g : PortLn → PortLn) :
    (s.onPln p g).pending = s.pending ∧ (s.onPln p g).now = s.now ∧ (s.onPln p g).tbase0 = s.tbase0
    ∧ (s.onPln p g).ponAt = s.ponAt ∧ (s.onPln p g).ponBase = s.ponBase ∧ (s.onPln p g).free = s.free
    ∧ (s.onPln p g).out = s.out ∧ (s.onPln p g).regs = s.regs ∧ (s.onPln p g).latch = s.latch
    ∧ (s.onPln p g).fuses = s.fuses ∧ (s.onPln p g).mem = s.mem ∧ (s.onPln p g).flt = s.flt
    ∧ (s.onPln p g).ctxRst = s.ctxRst ∧ (s.onPln p g).fab = s.fab ∧ (s.onPln p g).core = s.core
    ∧ (s.onPln p g).link = s.link ∧ (s.onPln p g).disc = s.disc ∧ (s.onPln p g).rte = s.rte
    ∧ (s.onPln p g).grp = s.grp ∧ (s.onPln p g).shts = s.shts ∧ (s.onPln p g).sched = s.sched
    ∧ (s.onPln p g).time = s.time ∧ (s.onPln p g).pwr = s.pwr ∧ (s.onPln p g).mgt = s.mgt ∧ (s.onPln p g).drf = s.drf
    ∧ (s.onPln p g).ecc = s.ecc ∧ (s.onPln p g).jtag = s.jtag :=
  ⟨rfl, rfl, rfl, rfl, rfl, rfl, rfl, rfl, rfl, rfl, rfl, rfl, rfl, rfl, rfl, rfl, rfl, rfl, rfl, rfl, rfl, rfl, rfl, rfl, rfl, rfl, rfl⟩

/-! ### Registers and fields -/

@[simp] theorem State.emit_rd (o : Output) (k : Nat) : (s.emit o).rd k = s.rd k := rfl
@[simp] theorem State.emit_fld (o : Output) (f : FieldRef) : (s.emit o).fld f = s.fld f := rfl
@[simp] theorem State.emit_flag (o : Output) (f : FieldRef) : (s.emit o).flag f = s.flag f := rfl
@[simp] theorem State.setSheetByte_rd (a : Nat) (b : Byte) (k : Nat) : (s.setSheetByte a b).rd k = s.rd k := rfl
@[simp] theorem State.setSheetByte_fld (a : Nat) (b : Byte) (f : FieldRef) : (s.setSheetByte a b).fld f = s.fld f := rfl
@[simp] theorem State.setSheetByte_flag (a : Nat) (b : Byte) (f : FieldRef) : (s.setSheetByte a b).flag f = s.flag f := rfl
@[simp] theorem State.setFlashByte_rd (a : Nat) (b : Byte) (k : Nat) : (s.setFlashByte a b).rd k = s.rd k := rfl
@[simp] theorem State.setFlashByte_fld (a : Nat) (b : Byte) (f : FieldRef) : (s.setFlashByte a b).fld f = s.fld f := rfl
@[simp] theorem State.setFlashByte_flag (a : Nat) (b : Byte) (f : FieldRef) : (s.setFlashByte a b).flag f = s.flag f := rfl
@[simp] theorem State.setCapByte_rd (a : Nat) (b : Byte) (k : Nat) : (s.setCapByte a b).rd k = s.rd k := rfl
@[simp] theorem State.setCapByte_fld (a : Nat) (b : Byte) (f : FieldRef) : (s.setCapByte a b).fld f = s.fld f := rfl
@[simp] theorem State.setCapByte_flag (a : Nat) (b : Byte) (f : FieldRef) : (s.setCapByte a b).flag f = s.flag f := rfl
@[simp] theorem State.setSelByte_rd (a : Nat) (b : Byte) (k : Nat) : (s.setSelByte a b).rd k = s.rd k := rfl
@[simp] theorem State.setSelByte_fld (a : Nat) (b : Byte) (f : FieldRef) : (s.setSelByte a b).fld f = s.fld f := rfl
@[simp] theorem State.setSelByte_flag (a : Nat) (b : Byte) (f : FieldRef) : (s.setSelByte a b).flag f = s.flag f := rfl
@[simp] theorem State.onLnk_rd (p : Nat) (g : LinkSt → LinkSt) (k : Nat) : (s.onLnk p g).rd k = s.rd k := rfl
@[simp] theorem State.onLnk_fld (p : Nat) (g : LinkSt → LinkSt) (f : FieldRef) : (s.onLnk p g).fld f = s.fld f := rfl
@[simp] theorem State.onLnk_flag (p : Nat) (g : LinkSt → LinkSt) (f : FieldRef) : (s.onLnk p g).flag f = s.flag f := rfl
@[simp] theorem State.onPdisc_rd (p : Nat) (g : PortDisc → PortDisc) (k : Nat) : (s.onPdisc p g).rd k = s.rd k := rfl
@[simp] theorem State.onPdisc_fld (p : Nat) (g : PortDisc → PortDisc) (f : FieldRef) : (s.onPdisc p g).fld f = s.fld f := rfl
@[simp] theorem State.onPdisc_flag (p : Nat) (g : PortDisc → PortDisc) (f : FieldRef) : (s.onPdisc p g).flag f = s.flag f := rfl
@[simp] theorem State.onQsch_rd (k : Nat) (g : QSched → QSched) (j : Nat) : (s.onQsch k g).rd j = s.rd j := rfl
@[simp] theorem State.onQsch_fld (k : Nat) (g : QSched → QSched) (f : FieldRef) : (s.onQsch k g).fld f = s.fld f := rfl
@[simp] theorem State.onQsch_flag (k : Nat) (g : QSched → QSched) (f : FieldRef) : (s.onQsch k g).flag f = s.flag f := rfl
@[simp] theorem State.onPsch_rd (p : Nat) (g : PSched → PSched) (k : Nat) : (s.onPsch p g).rd k = s.rd k := rfl
@[simp] theorem State.onPsch_fld (p : Nat) (g : PSched → PSched) (f : FieldRef) : (s.onPsch p g).fld f = s.fld f := rfl
@[simp] theorem State.onPsch_flag (p : Nat) (g : PSched → PSched) (f : FieldRef) : (s.onPsch p g).flag f = s.flag f := rfl
@[simp] theorem State.setOrt_rd (e : Nat) (v : OrtEntry) (k : Nat) : (s.setOrt e v).rd k = s.rd k := rfl
@[simp] theorem State.setOrt_fld (e : Nat) (v : OrtEntry) (f : FieldRef) : (s.setOrt e v).fld f = s.fld f := rfl
@[simp] theorem State.setOrt_flag (e : Nat) (v : OrtEntry) (f : FieldRef) : (s.setOrt e v).flag f = s.flag f := rfl
@[simp] theorem State.setDir_rd (n : Nat) (v : DirEntry) (k : Nat) : (s.setDir n v).rd k = s.rd k := rfl
@[simp] theorem State.setDir_fld (n : Nat) (v : DirEntry) (f : FieldRef) : (s.setDir n v).fld f = s.fld f := rfl
@[simp] theorem State.setDir_flag (n : Nat) (v : DirEntry) (f : FieldRef) : (s.setDir n v).flag f = s.flag f := rfl
@[simp] theorem State.setFan_rd (r : Nat) (v : Option Fanout) (k : Nat) : (s.setFan r v).rd k = s.rd k := rfl
@[simp] theorem State.setFan_fld (r : Nat) (v : Option Fanout) (f : FieldRef) : (s.setFan r v).fld f = s.fld f := rfl
@[simp] theorem State.setFan_flag (r : Nat) (v : Option Fanout) (f : FieldRef) : (s.setFan r v).flag f = s.flag f := rfl
@[simp] theorem State.onRver_rd (k : Nat) (g : RouteVer → RouteVer) (j : Nat) : (s.onRver k g).rd j = s.rd j := rfl
@[simp] theorem State.onRver_fld (k : Nat) (g : RouteVer → RouteVer) (f : FieldRef) : (s.onRver k g).fld f = s.fld f := rfl
@[simp] theorem State.onRver_flag (k : Nat) (g : RouteVer → RouteVer) (f : FieldRef) : (s.onRver k g).flag f = s.flag f := rfl
@[simp] theorem State.setCell_rd (c : Nat) (v : CellEnt) (k : Nat) : (s.setCell c v).rd k = s.rd k := rfl
@[simp] theorem State.setCell_fld (c : Nat) (v : CellEnt) (f : FieldRef) : (s.setCell c v).fld f = s.fld f := rfl
@[simp] theorem State.setCell_flag (c : Nat) (v : CellEnt) (f : FieldRef) : (s.setCell c v).flag f = s.flag f := rfl
@[simp] theorem State.setEq_rd (k : Nat) (l : List Copy) (j : Nat) : (s.setEq k l).rd j = s.rd j := rfl
@[simp] theorem State.setEq_fld (k : Nat) (l : List Copy) (f : FieldRef) : (s.setEq k l).fld f = s.fld f := rfl
@[simp] theorem State.setEq_flag (k : Nat) (l : List Copy) (f : FieldRef) : (s.setEq k l).flag f = s.flag f := rfl
@[simp] theorem State.setXq_rd (k : Nat) (l : List Copy) (j : Nat) : (s.setXq k l).rd j = s.rd j := rfl
@[simp] theorem State.setXq_fld (k : Nat) (l : List Copy) (f : FieldRef) : (s.setXq k l).fld f = s.fld f := rfl
@[simp] theorem State.setXq_flag (k : Nat) (l : List Copy) (f : FieldRef) : (s.setXq k l).flag f = s.flag f := rfl
@[simp] theorem State.setWait_rd (k : Nat) (l : List Waiting) (j : Nat) : (s.setWait k l).rd j = s.rd j := rfl
@[simp] theorem State.setWait_fld (k : Nat) (l : List Waiting) (f : FieldRef) : (s.setWait k l).fld f = s.fld f := rfl
@[simp] theorem State.setWait_flag (k : Nat) (l : List Waiting) (f : FieldRef) : (s.setWait k l).flag f = s.flag f := rfl
@[simp] theorem State.setUsed_rd (k n : Nat) (j : Nat) : (s.setUsed k n).rd j = s.rd j := rfl
@[simp] theorem State.setUsed_fld (k n : Nat) (f : FieldRef) : (s.setUsed k n).fld f = s.fld f := rfl
@[simp] theorem State.setUsed_flag (k n : Nat) (f : FieldRef) : (s.setUsed k n).flag f = s.flag f := rfl
@[simp] theorem State.setGrpE_rd (g : Nat) (v : GrpEnt) (k : Nat) : (s.setGrpE g v).rd k = s.rd k := rfl
@[simp] theorem State.setGrpE_fld (g : Nat) (v : GrpEnt) (f : FieldRef) : (s.setGrpE g v).fld f = s.fld f := rfl
@[simp] theorem State.setGrpE_flag (g : Nat) (v : GrpEnt) (f : FieldRef) : (s.setGrpE g v).flag f = s.flag f := rfl
@[simp] theorem State.setTrk_rd (t : Nat) (v : Option Tracker) (k : Nat) : (s.setTrk t v).rd k = s.rd k := rfl
@[simp] theorem State.setTrk_fld (t : Nat) (v : Option Tracker) (f : FieldRef) : (s.setTrk t v).fld f = s.fld f := rfl
@[simp] theorem State.setTrk_flag (t : Nat) (v : Option Tracker) (f : FieldRef) : (s.setTrk t v).flag f = s.flag f := rfl
@[simp] theorem State.onSht_rd (p : Nat) (g : ShtSt → ShtSt) (k : Nat) : (s.onSht p g).rd k = s.rd k := rfl
@[simp] theorem State.onSht_fld (p : Nat) (g : ShtSt → ShtSt) (f : FieldRef) : (s.onSht p g).fld f = s.fld f := rfl
@[simp] theorem State.onSht_flag (p : Nat) (g : ShtSt → ShtSt) (f : FieldRef) : (s.onSht p g).flag f = s.flag f := rfl
@[simp] theorem State.onLane_rd (n : Nat) (g : LaneSt → LaneSt) (k : Nat) : (s.onLane n g).rd k = s.rd k := rfl
@[simp] theorem State.onLane_fld (n : Nat) (g : LaneSt → LaneSt) (f : FieldRef) : (s.onLane n g).fld f = s.fld f := rfl
@[simp] theorem State.onLane_flag (n : Nat) (g : LaneSt → LaneSt) (f : FieldRef) : (s.onLane n g).flag f = s.flag f := rfl
@[simp] theorem State.onPln_rd (p : Nat) (g : PortLn → PortLn) (k : Nat) : (s.onPln p g).rd k = s.rd k := rfl
@[simp] theorem State.onPln_fld (p : Nat) (g : PortLn → PortLn) (f : FieldRef) : (s.onPln p g).fld f = s.fld f := rfl
@[simp] theorem State.onPln_flag (p : Nat) (g : PortLn → PortLn) (f : FieldRef) : (s.onPln p g).flag f = s.flag f := rfl

/-- A register read after a register write. -/
theorem State.rd_wr (o : Nat) (v : Word) (k : Nat) : (s.wr o v).rd k = if k = o then v else s.rd k :=
  Sparse.get_put regDefault s.regs o k v

@[simp] theorem State.rd_wr_same (o : Nat) (v : Word) : (s.wr o v).rd o = v := by simp [State.rd_wr]

theorem State.rd_wr_ne {o k : Nat} (v : Word) (h : k ≠ o) : (s.wr o v).rd k = s.rd k := by simp [State.rd_wr, h]

theorem State.rd_setFld (f : FieldRef) (n k : Nat) :
    (s.setFld f n).rd k = if k = f.off then putBits (s.rd f.off) f.lo f.width n else s.rd k :=
  State.rd_wr s f.off _ k

theorem State.rd_setFld_ne (f : FieldRef) (n : Nat) {k : Nat} (h : k ≠ f.off) : (s.setFld f n).rd k = s.rd k :=
  State.rd_wr_ne s _ h

theorem State.rd_setFlag_ne (f : FieldRef) (b : Bool) {k : Nat} (h : k ≠ f.off) : (s.setFlag f b).rd k = s.rd k :=
  State.rd_wr_ne s _ h

theorem State.rd_bumpBy_ne (f : FieldRef) (n : Nat) {k : Nat} (h : k ≠ f.off) : (s.bumpBy f n).rd k = s.rd k :=
  State.rd_wr_ne s _ h

theorem State.rd_bump_ne (f : FieldRef) {k : Nat} (h : k ≠ f.off) : (s.bump f).rd k = s.rd k := State.rd_wr_ne s _ h

theorem State.rd_storeReg_ne {o k : Nat} (v : Word) (h : k ≠ o) : (s.storeReg o v).rd k = s.rd k := State.rd_wr_ne s _ h

/-- The field that was set reads the low bits of what was set. -/
theorem State.fld_setFld_same (f : FieldRef) (n : Nat) (h : f.lo + f.width ≤ 32) :
    (s.setFld f n).fld f = n % 2 ^ f.width := by
  simp only [State.fld, State.rd_setFld, if_true]
  exact bits_putBits_same _ _ _ _ h

/-- A field of another register, or another field of the register, reads as before. -/
theorem State.fld_setFld_ne (f g : FieldRef) (n : Nat) (h : g.off ≠ f.off ∨ f.lo + f.width ≤ g.lo ∨ g.lo + g.width ≤ f.lo) :
    (s.setFld f n).fld g = s.fld g := by
  simp only [State.fld, State.rd_setFld]
  by_cases ho : g.off = f.off
  · simp only [ho, if_true]
    exact bits_putBits_ne _ _ _ _ _ _ (h.resolve_left (fun c => c ho))
  · simp [ho]

theorem State.flag_setFld_ne (f g : FieldRef) (n : Nat)
    (h : g.off ≠ f.off ∨ f.lo + f.width ≤ g.lo ∨ g.lo + g.width ≤ f.lo) : (s.setFld f n).flag g = s.flag g := by
  simp [State.flag, State.fld_setFld_ne s f g n h]

theorem State.fld_setFlag_ne (f g : FieldRef) (b : Bool)
    (h : g.off ≠ f.off ∨ f.lo + f.width ≤ g.lo ∨ g.lo + g.width ≤ f.lo) : (s.setFlag f b).fld g = s.fld g :=
  State.fld_setFld_ne s f g _ h

theorem State.flag_setFlag_ne (f g : FieldRef) (b : Bool)
    (h : g.off ≠ f.off ∨ f.lo + f.width ≤ g.lo ∨ g.lo + g.width ≤ f.lo) : (s.setFlag f b).flag g = s.flag g :=
  State.flag_setFld_ne s f g _ h

/-- A flag that was set reads what was set. -/
theorem State.flag_setFlag_same (f : FieldRef) (b : Bool) (h : f.lo + f.width ≤ 32) (h1 : 0 < f.width) :
    (s.setFlag f b).flag f = b := by
  have hw : 1 < 2 ^ f.width := Nat.one_lt_two_pow (by omega)
  unfold State.setFlag State.flag
  rw [State.fld_setFld_same s f _ h]
  cases b
  · simp [ofBool]
  · simp [ofBool, Nat.mod_eq_of_lt hw]

/-- A counter after `n` events (R12). -/
theorem State.fld_bumpBy_same (f : FieldRef) (n : Nat) (h : f.lo + f.width ≤ 32) :
    (s.bumpBy f n).fld f = min (s.fld f + n) (2 ^ f.width - 1) := by
  unfold State.bumpBy
  rw [State.fld_setFld_same s f _ h]
  exact Nat.mod_eq_of_lt (by have := Nat.two_pow_pos f.width; unfold saturate; omega)

theorem State.fld_bumpBy_ne (f g : FieldRef) (n : Nat) (h : g.off ≠ f.off ∨ f.lo + f.width ≤ g.lo ∨ g.lo + g.width ≤ f.lo) :
    (s.bumpBy f n).fld g = s.fld g := State.fld_setFld_ne s f g _ h

/-! ### Records and memories -/

theorem State.onLnk_lnk (p : Nat) (g : LinkSt → LinkSt) (k : Nat) : (s.onLnk p g).lnk k = if k = p then g (s.lnk p) else s.lnk k :=
  Sparse.get_put _ _ _ _ _
theorem State.onPdisc_pdisc (p : Nat) (g : PortDisc → PortDisc) (k : Nat) : (s.onPdisc p g).pdisc k = if k = p then g (s.pdisc p) else s.pdisc k :=
  Sparse.get_put _ _ _ _ _
theorem State.onQsch_qsch (p : Nat) (g : QSched → QSched) (k : Nat) : (s.onQsch p g).qsch k = if k = p then g (s.qsch p) else s.qsch k :=
  Sparse.get_put _ _ _ _ _
theorem State.onPsch_psch (p : Nat) (g : PSched → PSched) (k : Nat) : (s.onPsch p g).psch k = if k = p then g (s.psch p) else s.psch k :=
  Sparse.get_put _ _ _ _ _
theorem State.onRver_rver (p : Nat) (g : RouteVer → RouteVer) (k : Nat) : (s.onRver p g).rver k = if k = p then g (s.rver p) else s.rver k :=
  Sparse.get_put _ _ _ _ _
theorem State.onSht_sht (p : Nat) (g : ShtSt → ShtSt) (k : Nat) : (s.onSht p g).sht k = if k = p then g (s.sht p) else s.sht k :=
  Sparse.get_put _ _ _ _ _
theorem State.onLane_lane (p : Nat) (g : LaneSt → LaneSt) (k : Nat) : (s.onLane p g).lane k = if k = p then g (s.lane p) else s.lane k :=
  Sparse.get_put _ _ _ _ _
theorem State.onPln_pln (p : Nat) (g : PortLn → PortLn) (k : Nat) : (s.onPln p g).pln k = if k = p then g (s.pln p) else s.pln k :=
  Sparse.get_put _ _ _ _ _
theorem State.setOrt_ortE (p : Nat) (v : OrtEntry) (k : Nat) : (s.setOrt p v).ortE k = if k = p then v else s.ortE k :=
  Sparse.get_put _ _ _ _ _
theorem State.setDir_dirE (p : Nat) (v : DirEntry) (k : Nat) : (s.setDir p v).dirE k = if k = p then v else s.dirE k :=
  Sparse.get_put _ _ _ _ _
theorem State.setFan_fanE (p : Nat) (v : Option Fanout) (k : Nat) : (s.setFan p v).fanE k = if k = p then v else s.fanE k :=
  Sparse.get_put _ _ _ _ _
theorem State.setCell_cell (p : Nat) (v : CellEnt) (k : Nat) : (s.setCell p v).cell k = if k = p then v else s.cell k :=
  Sparse.get_put _ _ _ _ _
theorem State.setEq_eqQ (p : Nat) (v : List Copy) (k : Nat) : (s.setEq p v).eqQ k = if k = p then v else s.eqQ k :=
  Sparse.get_put _ _ _ _ _
theorem State.setXq_xqQ (p : Nat) (v : List Copy) (k : Nat) : (s.setXq p v).xqQ k = if k = p then v else s.xqQ k :=
  Sparse.get_put _ _ _ _ _
theorem State.setWait_waitQ (p : Nat) (v : List Waiting) (k : Nat) : (s.setWait p v).waitQ k = if k = p then v else s.waitQ k :=
  Sparse.get_put _ _ _ _ _
theorem State.setUsed_usedC (p : Nat) (v : Nat) (k : Nat) : (s.setUsed p v).usedC k = if k = p then v else s.usedC k :=
  Sparse.get_put _ _ _ _ _
theorem State.setGrpE_grpE (p : Nat) (v : GrpEnt) (k : Nat) : (s.setGrpE p v).grpE k = if k = p then v else s.grpE k :=
  Sparse.get_put _ _ _ _ _
theorem State.setTrk_trkE (p : Nat) (v : Option Tracker) (k : Nat) : (s.setTrk p v).trkE k = if k = p then v else s.trkE k :=
  Sparse.get_put _ _ _ _ _
theorem State.setSheetByte_sheetByte (a : Nat) (b : Byte) (k : Nat) : (s.setSheetByte a b).sheetByte k = if k = a then b else s.sheetByte k :=
  Sparse.get_put _ _ _ _ _
theorem State.setFlashByte_flashByte (a : Nat) (b : Byte) (k : Nat) : (s.setFlashByte a b).flashByte k = if k = a then b else s.flashByte k :=
  Sparse.get_put _ _ _ _ _
theorem State.setCapByte_capByte (a : Nat) (b : Byte) (k : Nat) : (s.setCapByte a b).capByte k = if k = a then b else s.capByte k :=
  Sparse.get_put _ _ _ _ _
theorem State.setCellErr_cellErr (p : Nat) (v : Option Bool) (k : Nat) :
    (s.setCellErr p v).cellErr k = if k = p then v else s.cellErr k := Sparse.get_put _ _ _ _ _
theorem State.setWordErr_wordErr (p : Nat) (v : Option Bool) (k : Nat) :
    (s.setWordErr p v).wordErr k = if k = p then v else s.wordErr k := Sparse.get_put _ _ _ _ _
theorem State.setSelByte_selByte (a : Nat) (b : Byte) (k : Nat) : (s.setSelByte a b).selByte k = if k = a then b else s.selByte k :=
  Sparse.get_put _ _ _ _ _

end Sys2Proof.Machine
end

