-- ==== Sys2Proof/Laws/Fuses.lean ====
section
/-! SUPPORT. The fuses: the shared operations of the life cycle that leave them alone, and the three that do not. A fold
keeps whatever its step keeps. -/

namespace Sys2Proof.Machine

/-- A fold over a list keeps what each of its steps keeps. -/
theorem forEach_keeps {α σ β : Type} (g : σ → β) (l : List α) (f : α → σ → σ) (h : ∀ a s, g (f a s) = g s) (s : σ) :
    g (forEach l f s) = g s := by
  unfold forEach
  induction l generalizing s with
  | nil => rfl
  | cons a l ih => rw [List.foldl_cons, ih, h]

/-- Writing a list of bytes keeps what writing one byte keeps. -/
theorem writeBytes_keeps {β : Type} (g : State → β) (put : Nat → Byte → State → State)
    (h : ∀ a b s, g (put a b s) = g s) (l : List Byte) (a : Nat) (s : State) : g (writeBytes put a l s) = g s := by
  induction l generalizing a s with
  | nil => rfl
  | cons b l ih => rw [writeBytes, ih, h]

@[simp] theorem State.setSelWord_fuses (a n : Nat) (s : State) : (s.setSelWord a n).fuses = s.fuses :=
  writeBytes_keeps State.fuses State.setSelByte (fun _ _ _ => rfl) _ _ _

@[simp] theorem State.bumpSel_fuses (a : Nat) (s : State) : (s.bumpSel a).fuses = s.fuses :=
  State.setSelWord_fuses _ _ _

@[simp] theorem sendMsix_fuses (v : Nat) (s : State) : (sendMsix v s).fuses = s.fuses := by
  unfold sendMsix; split <;> rfl

@[simp] theorem raiseInt_fuses (v : Nat) (s : State) : (raiseInt v s).fuses = s.fuses := by
  unfold raiseInt
  by_cases h : s.flag ⟨R.MIO_INT_STATUS, v, 1⟩ = true
  · rw [if_pos h]
  · rw [if_neg h]; dsimp only; split
    · rw [sendMsix_fuses]; rfl
    · rfl

@[simp] theorem selConst_fuses (s : State) : (selConst s).fuses = s.fuses := by
  have h : ∀ l a (u : State), (writeBytes State.setSelByte a l u).fuses = u.fuses :=
    writeBytes_keeps State.fuses State.setSelByte (fun _ _ _ => rfl)
  unfold selConst
  dsimp only
  rw [h, State.setSelWord_fuses, State.setSelWord_fuses]

@[simp] theorem selHeader_fuses (s : State) : (selHeader s).fuses = s.fuses := by
  unfold selHeader
  dsimp only
  rw [State.setSelWord_fuses, State.setSelWord_fuses, State.setSelWord_fuses, selConst_fuses]

@[simp] theorem flashErase_fuses (a n : Nat) (s : State) : (flashErase a n s).fuses = s.fuses := rfl

@[simp] theorem flashWrite_fuses (a : Nat) (l : List Byte) (s : State) : (flashWrite a l s).fuses = s.fuses :=
  writeBytes_keeps State.fuses State.setFlashByte (fun _ _ _ => rfl) _ _ _

@[simp] theorem storeHalf_fuses (h n : Nat) (l : List Byte) (s : State) : (storeHalf h n l s).fuses = s.fuses := by
  simp only [storeHalf, State.setFld_frame, flashWrite_fuses, flashErase_fuses]

@[simp] theorem storeSelvedge_fuses (s : State) : (storeSelvedge s).fuses = s.fuses :=
  (storeHalf_fuses _ _ _ _).trans (selHeader_fuses s)

@[simp] theorem takeHalf_fuses (h : Nat) (l : List Byte) (s : State) : (takeHalf h l s).fuses = s.fuses := by
  have e : ∀ l a (u : State), (writeBytes State.setSelByte a l u).fuses = u.fuses :=
    writeBytes_keeps State.fuses State.setSelByte (fun _ _ _ => rfl)
  simp only [takeHalf, State.setFld_frame, State.setFlag_frame, e]

@[simp] theorem freshRecord_fuses (s : State) : (freshRecord s).fuses = s.fuses := rfl

@[simp] theorem loadSelvedge_fuses (s : State) : (loadSelvedge s).fuses = s.fuses := by
  unfold loadSelvedge
  rw [selConst_fuses]
  cases bestHalf s with
  | some h => exact takeHalf_fuses _ _ _
  | none => rfl

@[simp] theorem showLevels_fuses (s : State) : (showLevels s).fuses = s.fuses :=
  forEach_keeps State.fuses _ _ (fun _ _ => by simp only [State.setFld_frame]) _

@[simp] theorem watchAlert_fuses (f : State → State) (s : State) (h : (f s).fuses = s.fuses) :
    (watchAlert f s).fuses = s.fuses := by
  unfold watchAlert
  dsimp only
  split <;> simp [h]

@[simp] theorem setAlert_fuses (r : Nat) (s : State) : (setAlert r s).fuses = s.fuses := watchAlert_fuses _ _ rfl

@[simp] theorem setExt_fuses (b : Bool) (s : State) : (setExt b s).fuses = s.fuses := by
  unfold setExt withLevels
  dsimp only
  rw [forEach_keeps State.fuses, showLevels_fuses, forEach_keeps State.fuses]
  · intro a u; rfl
  · intro a u; split <;> simp

@[simp] theorem showAllLive_fuses (s : State) : (showAllLive s).fuses = s.fuses :=
  forEach_keeps State.fuses _ _ (fun _ _ => by simp only [showLive, State.setFlag_frame]) _

@[simp] theorem warmClear_fuses (s : State) : (warmClear s).fuses = s.fuses := by simp [warmClear, restartClocks]

@[simp] theorem trainPcie_fuses (s : State) : (trainPcie s).fuses = s.fuses := by unfold trainPcie; split <;> rfl

@[simp] theorem tileUp_fuses (s : State) : (tileUp s).fuses = s.fuses := trainPcie_fuses _

@[simp] theorem warmLevels_fuses (s : State) : (warmLevels s).fuses = s.fuses := by
  unfold warmLevels; split <;> simp

@[simp] theorem beginWarm_fuses (s : State) : (beginWarm s).fuses = s.fuses := by simp [beginWarm]

@[simp] theorem spoilFlash_fuses (a n : Nat) (s : State) : (spoilFlash a n s).fuses = s.fuses := by
  simp [spoilFlash, State.withFree]

@[simp] theorem cutFlash_fuses (s : State) : (cutFlash s).fuses = s.fuses := by
  unfold cutFlash
  dsimp only
  split <;> split <;> simp

/-- A life-cycle request changes at most the state that a transition is about to blow (R507). -/
theorem lifeCycle_fuses (v : Word) (s : State) :
    (lifeCycle v s).fuses = s.fuses
      ∨ (lcStep s.fuses.lcState (bits v.toNat 0 2) = true
          ∧ (lifeCycle v s).fuses = { s.fuses with lcTarget := some (bits v.toNat 0 2) }) := by
  unfold lifeCycle
  dsimp only
  split
  · left; rfl
  · split
    · left; simp
    · next h =>
      right
      simp only [Bool.or_eq_true, Bool.not_eq_true', not_or, Bool.not_eq_false] at h
      have hs : lcStep (lcState (s.storeReg R.AON_LC_CTL v)) (bits v.toNat 0 2) = true := by
        have := h.2; unfold lcAllowed at this; simp only [Bool.and_eq_true] at this; exact this.1
      refine ⟨hs, ?_⟩
      simp

/-- The end of a transition blows the fuses of its target, and changes no other fuse (R507). -/
theorem lifeCycleDone_fuses (s : State) :
    (lifeCycleDone s).fuses = s.fuses
      ∨ ∃ t h, s.fuses.lcTarget = some t ∧ (s.fuses.lcState ≠ 0 → h = s.fuses.keyHash)
          ∧ (lifeCycleDone s).fuses = { s.fuses with lcState := t, lcTarget := none, keyHash := h } := by
  unfold lifeCycleDone
  split
  · left; rfl
  · next t ht =>
    right
    dsimp only
    have hw : ∀ (l : List (Word × Nat)) (u : State),
        (forEach l (fun x s => s.wr (R.AON_LC_HASH x.2) x.1) u).fuses = u.fuses :=
      fun l u => forEach_keeps State.fuses l (fun x s => s.wr (R.AON_LC_HASH x.2) x.1) (fun _ _ => rfl) u
    have hb : ∀ u : State, u.fuses = s.fuses → ∃ h, (s.fuses.lcState ≠ 0 → h = s.fuses.keyHash)
        ∧ (blowFuses t u).fuses = { s.fuses with lcState := t, lcTarget := none, keyHash := h } := by
      intro u hu
      refine ⟨_, ?_, by unfold blowFuses; rw [hu]⟩
      intro h; rw [if_neg h]
    obtain ⟨h, hk, e⟩ := hb
      { raiseInt 12 ((storeSelvedge s).setFlag F.SEL_STATUS_busy false) with
        mgt := { (raiseInt 12 ((storeSelvedge s).setFlag F.SEL_STATUS_busy false)).mgt with selAgain := false } }
      (by simp only [raiseInt_fuses, State.setFlag_frame, storeSelvedge_fuses])
    refine ⟨t, h, ht, hk, ?_⟩
    split <;> simp only [beginWarm_fuses, hw, State.setFlag_frame, State.setFld_frame, loadSelvedge_fuses, e]

/-- Power-on reset ends a transition: it blew its fuses or it did not (R508). -/
theorem powerOnReset_fuses (s : State) :
    (∃ h, (s.fuses.lcState ≠ 0 → h = s.fuses.keyHash)
        ∧ (powerOnReset s).fuses = { s.fuses with lcTarget := none, keyHash := h })
      ∨ ∃ t h, s.fuses.lcTarget = some t ∧ (s.fuses.lcState ≠ 0 → h = s.fuses.keyHash)
        ∧ (powerOnReset s).fuses = { s.fuses with lcState := t, lcTarget := none, keyHash := h } := by
  have hf : (powerOnReset s).fuses = { (cutTransition s).fuses with lcTarget := none } := by
    simp [powerOnReset]
  rw [hf]
  unfold cutTransition
  split
  · left; exact ⟨s.fuses.keyHash, fun _ => rfl, rfl⟩
  · next t ht =>
    unfold State.withFree
    dsimp only
    split
    · right
      exact ⟨t, if s.fuses.lcState = 0 then _ else s.fuses.keyHash, ht, fun h => if_neg h, rfl⟩
    · left
      split
      · next h0 => exact ⟨_, fun h => absurd h0 h, rfl⟩
      · exact ⟨s.fuses.keyHash, fun _ => rfl, rfl⟩

end Sys2Proof.Machine
end

