-- ==== Sys2Proof/Laws/Memory.lean ====
section
/-! SUPPORT. The memories keep their canonical form: addresses strictly rising, no byte listed at its unlisted value. One
lemma per operation over them. -/

namespace Sys2Proof.Machine

theorem Mem.wf_iff (m : Mem) : m.wf = true ↔
    Sparse.wf (fun _ => (0 : Byte)) m.sheets = true ∧ Sparse.wf (fun _ => (0xFF : Byte)) m.flash = true
      ∧ Sparse.wf (fun _ => (0 : Byte)) m.cap = true ∧ Sparse.wf (fun _ => (0 : Byte)) m.sel = true := by
  simp only [Mem.wf, Bool.and_eq_true, and_assoc]

theorem setSheetByte_wf (a : Nat) (b : Byte) (s : State) (h : s.mem.wf = true) : (s.setSheetByte a b).mem.wf = true := by
  rw [Mem.wf_iff] at *
  exact ⟨Sparse.wf_put _ _ _ _ h.1, h.2⟩

theorem setFlashByte_wf (a : Nat) (b : Byte) (s : State) (h : s.mem.wf = true) : (s.setFlashByte a b).mem.wf = true := by
  rw [Mem.wf_iff] at *
  exact ⟨h.1, Sparse.wf_put _ _ _ _ h.2.1, h.2.2⟩

theorem setCapByte_wf (a : Nat) (b : Byte) (s : State) (h : s.mem.wf = true) : (s.setCapByte a b).mem.wf = true := by
  rw [Mem.wf_iff] at *
  exact ⟨h.1, h.2.1, Sparse.wf_put _ _ _ _ h.2.2.1, h.2.2.2⟩

theorem setSelByte_wf (a : Nat) (b : Byte) (s : State) (h : s.mem.wf = true) : (s.setSelByte a b).mem.wf = true := by
  rw [Mem.wf_iff] at *
  exact ⟨h.1, h.2.1, h.2.2.1, Sparse.wf_put _ _ _ _ h.2.2.2⟩

/-- Writing a list of bytes keeps what writing one byte keeps. -/
theorem writeBytes_wf (put : Nat → Byte → State → State)
    (hp : ∀ a b s, s.mem.wf = true → (put a b s).mem.wf = true) (l : List Byte) (a : Nat) (s : State)
    (h : s.mem.wf = true) : (writeBytes put a l s).mem.wf = true := by
  induction l generalizing a s with
  | nil => exact h
  | cons b l ih => rw [writeBytes]; exact ih _ _ (hp _ _ _ h)

/-- A fold keeps the form when each of its steps does. -/
theorem forEach_wf {α : Type} (l : List α) (f : α → State → State)
    (hf : ∀ a s, s.mem.wf = true → (f a s).mem.wf = true) (s : State) (h : s.mem.wf = true) :
    (forEach l f s).mem.wf = true := by
  unfold forEach
  induction l generalizing s with
  | nil => exact h
  | cons a l ih => exact ih _ (hf a s h)

/-- Noting errors of words leaves the memories alone. -/
@[simp] theorem clearWords_mem (a n : Nat) (s : State) : (clearWords a n s).mem = s.mem := rfl

/-- A fold of word errors leaves the memories alone. -/
theorem forEach_setWordErr_mem {α : Type} (l : List α) (k : α → Nat) (v : α → Option Bool) (s : State) :
    (forEach l (fun w s => s.setWordErr (k w) (v w)) s).mem = s.mem :=
  forEach_keeps State.mem l (fun w s => s.setWordErr (k w) (v w)) (fun _ _ => rfl) s

theorem zeroRange_wf (a b : Nat) (s : State) (h : s.mem.wf = true) : (zeroRange a b s).mem.wf = true := by
  unfold zeroRange
  rw [clearWords_mem]
  rw [Mem.wf_iff] at *
  exact ⟨Sparse.wf_filter _ _ _ h.1, h.2⟩

theorem copySheets_wf (p i q j n : Nat) (s : State) (h : s.mem.wf = true) : (copySheets p i q j n s).mem.wf = true := by
  unfold copySheets
  dsimp only
  rw [forEach_setWordErr_mem]
  exact forEach_wf _ _ (fun _ _ hs => setSheetByte_wf _ _ _ hs) _ (zeroRange_wf _ _ _ h)

theorem flashErase_wf (a n : Nat) (s : State) (h : s.mem.wf = true) : (flashErase a n s).mem.wf = true := by
  rw [Mem.wf_iff] at *
  exact ⟨h.1, Sparse.wf_filter _ _ _ h.2.1, h.2.2⟩

theorem flashWrite_wf (a : Nat) (l : List Byte) (s : State) (h : s.mem.wf = true) : (flashWrite a l s).mem.wf = true :=
  writeBytes_wf _ setFlashByte_wf _ _ _ h

theorem setSelWord_wf (a n : Nat) (s : State) (h : s.mem.wf = true) : (s.setSelWord a n).mem.wf = true :=
  writeBytes_wf _ setSelByte_wf _ _ _ h

theorem reset_mem_wf : State.reset.mem.wf = true := rfl

/-- A byte of the scratchpads reads what was last written to it, and a write leaves every other byte alone. -/
theorem sheetByte_setSheetByte (a k : Nat) (b : Byte) (s : State) :
    (s.setSheetByte a b).sheetByte k = if k = a then b else s.sheetByte k := Sparse.get_put _ _ _ _ _

theorem flashByte_setFlashByte (a k : Nat) (b : Byte) (s : State) :
    (s.setFlashByte a b).flashByte k = if k = a then b else s.flashByte k := Sparse.get_put _ _ _ _ _

theorem capByte_setCapByte (a k : Nat) (b : Byte) (s : State) :
    (s.setCapByte a b).capByte k = if k = a then b else s.capByte k := Sparse.get_put _ _ _ _ _

theorem selByte_setSelByte (a k : Nat) (b : Byte) (s : State) :
    (s.setSelByte a b).selByte k = if k = a then b else s.selByte k := Sparse.get_put _ _ _ _ _

end Sys2Proof.Machine
end

