-- ==== Sys2Proof/Tests/Slice0.lean ====
section
/-! SUPPORT. Small tests: values that the spec states, terms that the well-formedness checks refuse, and for the statements'
hypotheses states that meet them. -/

namespace Sys2Proof.Tests

open Sys2Proof.Machine
set_option Elab.async false

/-! ### Well-formed and ill-formed terms -/

/-- A LOAD of 64 bytes in a compact header. -/
def aLoad : Packet :=
  { form := .compact, op := .load, queue := 2, ord := false, status := .ok, nm := false, ssw := false, src := 0, ftag := 5,
    dst := 0x10, dsw := false, lenM1 := 63, ctx := 1, handle := 0, dat := false, offset := 0x40, operator := .sum,
    format := .fp32, address := 0, epoch := 0, tree := false, stage := 0, lclass := 0, pick := 0, payload := [] }

/-- A control packet with an empty body of 48 bytes. -/
def aCtl : Ctl := { ckind := 0x10, queue := 0, lenM1 := 47, ks := 0x1000, w1 := 0, w2 := 0, body := List.replicate 48 0 }

/-- A link-control unit with no limits raised. -/
def aLcu : Lcu :=
  { txSeq := 0, ackSeq := 0, nakSeq := 0, init := false, pseen := false, ucnt := false, rpl := false, nakVld := false,
    ackVld := false, lims := List.replicate 8 0 }

theorem test_wf_load : (Instr.load 0 aLoad).wf = true := by decide
theorem test_wf_row_op : (Instr.store 0 aLoad).wf = false := by decide
theorem test_wf_payload : (Instr.load 0 { aLoad with payload := [1] }).wf = false := by decide
theorem test_wf_compact_only : (Instr.load 0 { aLoad with epoch := 1 }).wf = false := by decide
theorem test_wf_compact_fields : (Instr.load 0 { aLoad with address := 1 }).wf = false := by decide
theorem test_wf_acc_fields : (Instr.acc 0 { aLoad with op := .acc, ftag := 1 }).wf = false := by decide
theorem test_wf_direct_fields : (Instr.load 0 { aLoad with form := .direct }).wf = false := by decide
theorem test_wf_op_spelling : (Instr.load 0 { aLoad with op := .reserved 1 }).wf = false := by decide
theorem test_wf_status_spelling : (Instr.load 0 { aLoad with status := .reserved 0 }).wf = false := by decide
theorem test_wf_operator_spelling : (Instr.load 0 { aLoad with operator := .reserved 0 }).wf = false := by decide
theorem test_wf_format_spelling : (Instr.load 0 { aLoad with format := .reserved 0 }).wf = false := by decide
theorem test_wf_ctl : (Instr.hello 0 aCtl).wf = true := by decide
theorem test_wf_ctl_body : (Instr.hello 0 { aCtl with body := [] }).wf = false := by decide
theorem test_wf_ctl_kind : (Instr.req 0 aCtl).wf = false := by decide
theorem test_wf_ctl_type : (Instr.nbr 0 aCtl).wf = false := by decide
theorem test_wf_unit : (Instr.packetReceive 0 [⟨0, [1]⟩]).wf = false := by decide
theorem test_wf_lcu : (Instr.lcuU 0 aLcu).wf = true ∧ (Instr.lcuI 0 aLcu).wf = false := by decide
theorem test_wf_lcu_limits : (Instr.lcuU 0 { aLcu with lims := [] }).wf = false := by decide
theorem test_wf_rpl : (Instr.rplGroup 0 aLcu).wf = false := by decide
theorem test_wf_reweight : (Instr.reweight 0 [1]).wf = false := by decide
theorem test_wf_rails : (Instr.railMonitor []).wf = false := by decide
theorem test_wf_droop : (Instr.droop 0 100001).wf = false := by decide
theorem test_wf_channel : (Instr.d2dChannelFail 1 1 0).wf = false := by decide
theorem test_wf_i2c : (Instr.i2cTransferEnd 0 7 [] none).wf = false
    ∧ (Instr.i2cTransferEnd 0 0 (List.replicate 33 0) none).wf = false := by decide
theorem test_wf_board : (Instr.powerUp ⟨[], false, 33, none, none, false⟩).wf = false := by decide

/-! ### States that meet the statements' hypotheses -/

/-- A device whose power sequence is ON and whose dies run. -/
def running : State :=
  { (State.reset.setFld F.FLT_STATUS_die_rst 0).setFld F.PWR_STATUS_seq 2 with pwr := { State.reset.pwr with por := false } }

/-- Port 0 enabled with role `role` (Table 00-3: 0 endpoint, 1 fabric, 2 service), its link UP. -/
def portUp (role : Nat) : State :=
  ((running.setFlag (F.PRT_CFG_en 0) true).setFld (F.PRT_CFG_role 0) role).setFld (F.PRT_LL_STATUS_state 0) 2

/-- Port 0 is an endpoint port that is UP and ASSIGNED with 16 tags; context 1 may use it; endpoint 16 is behind port 1. -/
def leaf : State :=
  ((((portUp 0).setFld (F.PRT_DISC_STATUS_state 0) pAssigned).setFlag ⟨R.CTX_PORT_EN 1 0, 0, 1⟩ true).onPdisc 0 fun d =>
    { d with allot := 16 }).onRver (R.RTE_LOCAL 16) fun r => { r with active := 0x201 }

/-- The next state of a step, or the state before it. -/
def after (c : Instr) (s : State) : State := match exec c s with | .next t => t | _ => s

theorem wit_StepRunsFrontCommand : ({ State.reset with pending := [.snap 0] } : State).pending = .snap 0 :: [] := rfl
theorem wit_EmptyQueueIdles : State.reset.pending = [] := rfl
theorem wit_QueueDrainsInOrder : core.run 0 State.reset = .next State.reset := rfl

/-- A device in PROVISIONED with a transition to PRODUCTION in progress: the legal case at its boundary. -/
def provisioned : State := { State.reset with fuses := { lcState := 1, lcTarget := some 2 } }

theorem wit_LifeCycleLegal : LifeCycleLegal provisioned ∧ provisioned.fuses.lcState ≠ 0 ∧ ∃ t, step provisioned = .next t := by
  refine ⟨⟨by decide, ?_⟩, by decide, _, rfl⟩
  rintro t h; cases h; decide
theorem wit_OnlyLifeCycleCommandsBlowFuses :
    (after (.lifeCycleRequest 0x4C02) { State.reset with fuses := { lcState := 1 } }).fuses.lcTarget = some 2 := by decide +kernel
theorem wit_RegisterAccesses : windowOf 0 = none ∧ windowOf 0x3FFFFF8 = none ∧ State.reset.mgt.cfg.d3hot = false
    ∧ isLatchLo R.SCH_FTIME_LO = true ∧ windowOf R.SCH_FTIME_LO = none ∧ R.SCH_FTIME_LO % 4 = 0 := by decide +kernel
theorem wit_BroadcastWindows :
    (windowOf 0xB00FFC).isSome = true ∧ (windowOf 0x1800000).isSome = true ∧ selected bcwPort running = []
      ∧ selected bcwPort (portUp 0) = [0] ∧ State.reset.mgt.cfg.d3hot = false := by decide +kernel
theorem wit_RequestsAreRouted :
    isEp leaf 0 = true ∧ TakesPackets leaf 0 ∧ restricted leaf 0 = false ∧ isSvc leaf 0 = false
      ∧ leafCheck leaf 0 aLoad = none ∧ (police 0 (allocate 0 aLoad leaf).1 (allocate 0 aLoad leaf).2).1 ≠ 2
      ∧ (∃ x t, routeData 0 (nmSource 0 aLoad) aLoad leaf = (.send x, t)) := by
  refine ⟨by decide +kernel, by decide +kernel, by decide +kernel, by decide +kernel, by decide +kernel, by decide +kernel, _, _, rfl⟩
theorem wit_RequestsAreRejected : leafCheck leaf 0 { aLoad with ctx := 2 } = some .access
    ∧ leafCheck leaf 0 { aLoad with ftag := 16 } = some .tagErr := by decide +kernel
theorem wit_RequestsOnFabricPort : isEp (portUp 1) 0 = false ∧ isGroupPkt aLoad = false ∧ TakesPackets (portUp 1) 0 := by
  decide +kernel
theorem wit_AllocationFillsOneEntry : getsCpl aLoad.op = true := by decide

/-- Tag 5 of port 0 is in use towards endpoint 16. -/
def busy : State := (leaf.setFld (F.PRT_TAG_CFG_tags_m1 0) 5).setOrt 5 { gen := 3, busy := true, port := 0, tag := 5, dst := 16, deadline := 7 }
/-- The completion of that request from endpoint 16 to endpoint 0. -/
def aCpl : Packet := { aLoad with op := .cpl, ftag := 0x3005, src := 16, dst := 0 }

theorem wit_CompletionFreesItsEntry :
    localPort (busy.onRver (R.RTE_LOCAL 0) fun r => { r with active := 0x200 }) (idLocal (dstEpOf aCpl)) = some 0
      ∧ 5 ≤ busy.fld (F.PRT_TAG_CFG_tags_m1 0) ∧ ortIndex busy 0 5 = 5 ∧ (busy.ortE 5).busy = true
      ∧ (busy.ortE 5).gen = aCpl.ftag.toNat / 4096 ∧ fromDst (busy.ortE 5) aCpl = true := by decide +kernel

/-- Group 0 of context 1 is entry 0, valid: SUM of FP32, 1,024 elements, picks of 256. -/
def grouped : State :=
  ((leaf.setFld (F.CTX_GRP_grp_cnt 1) 1).setFld (F.CTX_GRP_grp_base 1) 0).setGrpE 0
    { active := ⟨[0x80000000, 0x00080000, 1023, 0, 0, 0x20000, 0, 0, 0, 0, 0, 0, 0, 0, 0], 0⟩ }
/-- A contribution of 64 bytes to it. -/
def anAcc : Packet :=
  { aLoad with form := .direct, op := .acc, queue := 0, ftag := 0, address := mkGroupAddr 1 0 0, payload := List.replicate 64 0 }
/-- The same in a control packet of 48 bytes. -/
def aSacc : Ctl := { aCtl with ckind := 1, ks := 0, w1 := 0x80080000 }
/-- The version with short = 1 and 12 elements. -/
def short : State :=
  grouped.setGrpE 0 { active := ⟨[0xA0000000, 0x00080000, 11, 0, 0, 0x20000, 0, 0, 0, 0, 0, 0, 0, 0, 0], 0⟩ }

def isOk : Except Status (Nat × GrpVer) → Bool | .ok _ => true | .error _ => false

theorem wit_AccGoesInTransit : TakesPackets grouped 0 ∧ isEp grouped 0 = true ∧ restricted grouped 0 = false
    ∧ isSvc grouped 0 = false ∧ anAcc.queue ≠ 7 ∧ leafCheck (disarmed 0 grouped) 0 anAcc = none
    ∧ isOk (contribCheck (disarmed 0 grouped) (grpPkt (.data anAcc))) = true := by decide +kernel
theorem wit_AccIsRejected :
    leafCheck (disarmed 0 leaf) 0 { anAcc with ctx := 2 } = some .access
      ∧ leafCheck (disarmed 0 leaf) 0 anAcc = none
      ∧ isOk (contribCheck (disarmed 0 leaf) (grpPkt (.data anAcc))) = false := by decide +kernel
theorem wit_SaccGoesInTransit : FitsControl aSacc ∧ isGroupAddr (grpPkt (.ctl aSacc)).addr = true
    ∧ gateClosed (disarmed 0 short) 1 = false ∧ ctxPortEn (disarmed 0 short) (grpPkt (.ctl aSacc)).ctx 0 = true
    ∧ isOk (contribCheck (disarmed 0 short) (grpPkt (.ctl aSacc))) = true
    ∧ isOk (contribCheck (disarmed 0 grouped) (grpPkt (.ctl aSacc))) = false := by decide +kernel
theorem wit_SaccIsTurnedAway : ¬ FitsControl { aSacc with lenM1 := 48 } ∧ ¬ FitsControl { aSacc with queue := 2 }
    ∧ ctxPortEn leaf 2 0 = false ∧ isGroupAddr (grpPkt (.ctl { aSacc with w1 := 0x00080000 })).addr = false := by decide +kernel

/-- A directory whose line 0 is in S-INV with RD_M pending and another request behind it, and line 1 in M-RCL. -/
def lines : State :=
  ((State.reset.setDir 0 { st := .sInv, pend := some ⟨aLoad, 0⟩, wait := [⟨aLoad, 0⟩] }).setDir 1
    { st := .mRcl, pend := some ⟨aLoad, 0⟩ }).setDir 2 { st := .s, wait := [⟨aLoad, 0⟩] }

theorem wit_FabricExpiriesAct :
    (busy.ortE 5).deadline < ({ busy with now := 8 } : State).now ∧ (busy.ortE 5).quarUntil = none
      ∧ ((leaf.setOrt 5 { quarUntil := some 0 }).ortE 5).quarUntil = some 0
      ∧ (lines.dirE 2).wait = [⟨aLoad, 0⟩] ∧ transient (lines.dirE 2) = false
      ∧ (lines.dirE 0).st = .sInv ∧ (lines.dirE 1).st = .mRcl ∧ (lines.dirE 1).pend = some ⟨aLoad, 0⟩ := by decide +kernel
theorem wit_WindowAtomics :
    winRead State.reset 0 0 4 = ({ aLoad with op := .cas, lenM1 := 3, payload := List.replicate 8 0 } : Packet).payload.take 4
      ∧ winRead State.reset 0 0 4 ≠ ({ aLoad with op := .cas, lenM1 := 3, payload := List.replicate 8 1 } : Packet).payload.take 4 := by
  decide +kernel

/-- The unsent groups of port 0's link layer. -/
def linked : State := (portUp 1).onLnk 0 fun l => { l with replay := [(7, [])], rxExp := 7 }

theorem wit_LinkStatesAndRetry :
    llState linked 0 = 2 ∧ aLcu.nakVld = false ∧ aLcu.ackVld = false ∧ (linked.lnk 0).nak ≠ some (linked.lnk 0).rxExp
      ∧ ((linked.onLnk 0 fun l => { l with nak := some 7 }).lnk 0).nak = some (linked.lnk 0).rxExp
      ∧ llState State.reset 0 ≠ 2 ∧ (linked.lnk 0).replay = [(7, [])] ∧ (State.reset.lnk 0).replay = []
      ∧ seqGe 8 (linked.lnk 0).rxExp = true ∧ seqGe 6 (linked.lnk 0).rxExp = false := by decide +kernel
/-- A counted group whose only link-control unit names group `n`. -/
def aGroup (n : Nat) : List LinkUnit :=
  ⟨3, encodeLcu { aLcu with txSeq := BitVec.ofNat 16 n }⟩ :: List.replicate 9 ⟨0, List.replicate 64 0⟩
def skipping : State := linked.onLnk 0 fun l => { l with mode := .skipTo 5 }
theorem wit_CountedGroupIsTaken :
    portOn linked 0 = true ∧ linkUp linked 0 = true ∧ isUncounted (tenUnits (aGroup 7)) = false
      ∧ ((countedGroup 0 linked).lnk 0).mode = .take ∧ wrongSeq 7 (aGroup 7) = false ∧ wrongSeq 7 (aGroup 8) = true
      ∧ ((countedGroup 0 (linked.onLnk 0 fun l => { l with mode := .waitReplay })).lnk 0).mode = .waitReplay
      ∧ ((countedGroup 0 skipping).lnk 0).mode = .skipTo 5 ∧ wrongSeq 5 (aGroup 5) = false := by decide +kernel

/-! ### Discovery and routing -/

theorem wit_DiscoveryActs :
    State.reset.flag F.RTE_COORD_coord_mode = false
      ∧ (State.reset.setFlag F.RTE_COORD_coord_mode true).flag F.RTE_COORD_coord_mode = true
      ∧ isFab (portUp 1) 0 = true ∧ quarantined (portUp 1) 0 = false
      ∧ quarantined ((portUp 1).setFlag (F.PRT_DISC_STATUS_dup 0) true) 0 = true
      ∧ isFab (portUp 0) 0 = false ∧ isEp (portUp 0) 0 = true ∧ pstate ((portUp 0).setFld (F.PRT_DISC_STATUS_state 0) pWait) 0 = pWait
      ∧ pstate ((portUp 0).setFld (F.PRT_DISC_STATUS_state 0) pOffer) 0 = pOffer := by decide +kernel

/-- Port 0 in LEARN with its commit done at 0, port 1 not. -/
def learning : State :=
  (((portUp 0).setFld (F.PRT_DISC_STATUS_state 0) pLearn).onPdisc 0 fun d => { d with learn := some ⟨5, some 0⟩ }).onPdisc 1
    fun d => { d with learn := some ⟨6, none⟩ }
/-- A quarantined endpoint port with the one cause dup. -/
def dup : State := (portUp 0).setFlag (F.PRT_DISC_STATUS_dup 0) true
/-- What CLR leaves of the causes of port 0. -/
def cleared (val : Word) (s : State) : State :=
  forEach (quarCauses 0) (fun c s => if bitOf val.toNat c.1.lo && s.flag c.1 then
    endLive c.2 (locPort 0) (s.setFlag c.1 false) else s) s

theorem wit_LearningAndQuarantine :
    (learning.pdisc 0).learn = some ⟨5, some 0⟩ ∧ ∀ l, (learning.pdisc 1).learn = some l → l.stamp = none := by
  refine ⟨by decide +kernel, fun l h => ?_⟩
  have e : (learning.pdisc 1).learn = some ⟨6, none⟩ := by decide +kernel
  rw [e] at h; cases h; rfl
theorem wit_Clr : inReset dup 0 = false ∧ quarantined dup 0 = true ∧ quarantined (cleared 0xFFFFFFFF dup) 0 = false
    ∧ isFab (cleared 0xFFFFFFFF dup) 0 = false ∧ quarantined (cleared 0 dup) 0 = true ∧ quarantined running 0 = false
    ∧ inReset State.reset 0 = true := by decide +kernel

/-- The first wide routing entry, and the first narrow one. -/
def wide : Nat := R.RTE_ROW_LO 0
def narrow : Nat := R.RTE_DEST 0
/-- The wide entry with a version that retires while packets are in flight on it, and one on which none is. -/
def retiring (n : Nat) : State := running.onRver wide fun r => { r with retiring := some (4, n), old := some (0, 0) }
theorem wit_RoutingVersions :
    wide % 8 = 0 ∧ routeKey wide = some wide ∧ isWide wide = true ∧ narrow % 8 = 0 ∧ routeKey narrow = some narrow
      ∧ isWide narrow = false ∧ routeKey (R.RTE_ROW_LO 0 + 504) = some (R.RTE_ROW_LO 0 + 504)
      ∧ (running.rver wide).retiring = none ∧ ((retiring 1).rver wide).retiring = some (4, 1)
      ∧ ((retiring 0).rver wide).retiring = some (4, 0) ∧ holding (retiring 1) wide = true ∧ holding running wide = false := by
  decide +kernel

/-! ### The switch core, scheduling and time -/

/-- A copy of one link unit in cell 7 for queue `q` of port 0. -/
def aCopy (q : Nat) : Copy :=
  { pkt := .data aLoad, head := 7, nLu := 1, queue := q, igPort := 1, igQueue := 2, acct := 9, cut := false, hdr := 0,
    stamp := 0, hops := 0, vers := [], stomp := false, yellow := false }
/-- It waits for admission behind port 0. -/
def waits (q : Nat) (s : State) : State := s.setWait 0 [{ copies := [aCopy q] }]
/-- One cell of the shared pool of die 0, or none. -/
def pool (n : Nat) : State :=
  (running.setFld (F.CBF_SHARED_cells 0) n).setFld (F.CBF_EG_RES_res 0 0) 0
/-- The pool's one cell holds a Q7 copy. -/
def full : State :=
  charge 0 9 1 (((pool 1).setCell 7 { closed := true, luCnt := 1, refcnt := 1, acct := 9 }).setEq 7 [aCopy 7])
/-- A context shaper that holds context 1 on port 1. -/
def shaped : State :=
  { ((running.setFlag (F.PRT_CFG_en 1) true).setFld (F.PRT_CFG_role 1) 0).setFlag (F.SHP_CTX_RATE_en 1) true with
    sched := { running.sched with ctx := [(1, { tok := -1 })] } }
theorem wit_Admission :
    (waits 2 running).waitQ 0 = [{ copies := [aCopy 2] }] ∧ running.waitQ 0 = []
      ∧ ctxAllows running (aCopy 2) = true ∧ ctxAllows shaped (aCopy 2) = false
      ∧ (admitTo (pool 1) 0 [aCopy 0]).isSome = true ∧ admitTo (pool 0) 0 [aCopy 0] = none
      ∧ lowQueue { copies := [aCopy 6] } = 6 ∧ lowQueue { copies := [aCopy 5] } = 5
      ∧ admitTo full 0 [aCopy 0] = none ∧ (admitTo (pushOut 0 full) 0 [aCopy 0]).isSome = true
      ∧ admitTo (pushOut 0 (pool 0)) 0 [aCopy 0] = none := by decide +kernel

/-- A copy of two link units of Q2 that port 0 sends, one unit sent. -/
def aTx : TxPkt := { copy := { aCopy 2 with nLu := 2 }, sent := 1, cell := 7, since := 0, resumed := false }
/-- Port 0 sends it, with preemption on or off, and has a ready copy in Q0 or nothing. -/
def sending (preempt : Bool) (q0 : List Copy) : State :=
  ((((((portUp 1).setFlag (F.PRT_LL_CFG_preempt_en 0) preempt).setFld (F.PRT_LANE_STATUS_active 0) 255).setCell 7
    { closed := true, luCnt := 1, refcnt := 1, acct := 9 }).setEq 0 q0)).onLnk 0 fun l =>
      { l with txCur := some aTx, peerLim := List.replicate 8 9 }
/-- The same with the packet suspended. -/
def suspended (q0 : List Copy) : State := (sending true q0).onLnk 0 fun l => { l with txCur := none, txSusp := some aTx }
theorem wit_EgressArbitration :
    ((sending false []).lnk 0).txCur = some aTx ∧ mayPreempt (sending false []) 0 aTx = false
      ∧ mayPreempt (sending true []) 0 aTx = true ∧ arbitrate (sending true []) 0 (express (sending true []) 0) = none
      ∧ (arbitrate (sending true [aCopy 0]) 0 (express (sending true [aCopy 0]) 0)).isSome = true
      ∧ linkUp (sending true []) 0 = true ∧ replayRoom (sending true []) 0 = true := by decide +kernel
theorem wit_Suspended :
    ((suspended []).lnk 0).txCur = none ∧ ((suspended []).lnk 0).txSusp = some aTx
      ∧ ((suspended []).lnk 0).xpCount < max 1 ((suspended []).fld (F.PRT_LL_CFG_xp_max 0))
      ∧ (arbitrate (suspended [aCopy 0]) 0 (express (suspended [aCopy 0]) 0)).isSome = true
      ∧ (running.lnk 0).txCur = none ∧ (running.lnk 0).txSusp = none ∧ arbitrate running 0 (fun _ => true) = none
      ∧ (arbitrate ((suspended [aCopy 0]).onLnk 0 fun l => { l with txSusp := none }) 0 (fun _ => true)).isSome = true := by
  decide +kernel
theorem wit_HolFlush :
    ((running.setEq 2 [aCopy 2]).onQsch 2 fun r => { r with starved := some 0 }).eqQ 2 = [aCopy 2]
      ∧ (((running.setEq 2 [aCopy 2]).onQsch 2 fun r => { r with starved := some 0 }).qsch 2).starved = some 0
      ∧ (running.setFld (F.CBF_HOL_hol_exp 0) 20).fld (F.CBF_HOL_hol_exp 0) ≤ 20
      ∧ 20 < (running.setFld (F.CBF_HOL_hol_exp 0) 21).fld (F.CBF_HOL_hol_exp 0) := by decide +kernel
/-- Port 0 with its first shed open, in a period of 64 ns; the shed lasts `n` × 32 ns from phase 0. -/
def shed (n : Nat) : State :=
  ((running.wr (R.SCH_SHED_LO 0 0) (BitVec.ofNat 32 (n * 32768))).setFld (F.PRT_TRD_CFG_period 0) 2).onPsch 0 fun r =>
    { r with openShed := some 0 }
theorem wit_SchedulingActs : ((shed 1).psch 0).openShed = some 0
    ∧ (shedStart (shedOf (shed 1) 0 0) ≤ trdPhase (shed 1) 0 ∧ trdPhase (shed 1) 0 < shedEnd (shedOf (shed 1) 0 0))
    ∧ ¬ trdPhase (shed 0) 0 < shedEnd (shedOf (shed 0) 0 0) ∧ (running.psch 0).openShed = none
    ∧ ((running.onPsch 0 fun r => { r with newTrd := some [] }).psch 0).newTrd = some [] := by decide +kernel
/-- A placed switch in row 0, column 1, with time_en, whose parent is at port 0; the answer to REQ 5 is awaited. -/
def timed (col : Nat) : State :=
  let s := (((portUp 1).setFlag F.SCH_TIME_CFG_time_en true).setFlag F.RTE_DISC_STATUS_placed true).setFld F.RTE_DISC_STATUS_col col
  { s.onRver wide fun r => { r with active := 0x1000000000000 } with time := { t1 := some 0, seq := 5 } }
theorem wit_FabricTimeExchange :
    (timed 1).flag F.SCH_TIME_CFG_time_en = true ∧ placed (timed 1) = true ∧ (timed 1).flag F.SCH_TIME_STATUS_master = false
      ∧ (timed 1).time.nextAt ≤ (timed 1).now ∧ timeParent (showParent (timed 1)) = some (1, 0)
      ∧ timeParent (showParent (timed 0)) = none ∧ isFab (portUp 1) 0 = true ∧ (timed 1).time.t1 = some 0
      ∧ bits (5#16).toNat 0 8 = (timed 1).time.seq ∧ running.time.t1 = none ∧ isFab running 0 = false ∧ isEp running 0 = false := by
  decide +kernel

/-! ### Groups and shuttles -/

/-- A group entry with a retiring version, and one with a pending commit behind it. -/
def entry (p : Option (List Word)) : State := running.setGrpE 0 { retiring := some (3, 9), pending := p }
/-- The version of the group of `grouped`. -/
def ver0 : GrpVer := (grouped.grpE 0).active
/-- An input of that group in transit from port 0. -/
def anInput (w : Nat) : Input := { pkt := .data anAcc, port := 0, entry := 0, ver := ver0, shaped := w }
/-- A tracker of its pick 0 in state `st`. -/
def aTrk (st : TrkSt) : Tracker :=
  { ctx := 1, group := 0, pick := 0, entry := 0, ver := ver0, exact := true, treeB := false, leaf := true, line := false, root := true,
    home := 0, phys := 0, sheets := [0], expected := 16, st := st, deadline := some 5, run := 1 }
/-- Member 0 of the group is endpoint 16 at port 0. -/
def member : State :=
  (((grouped.onRver (R.RTE_LOCAL 16) fun r => { r with active := 0x200 }).setFlag (F.MBR_SLOT_HI_active 0) true).setFld
    (F.MBR_SLOT_HI_local 0) 16)
/-- The tracker open, with the input in transit. -/
def tracked (w : Nat) (st : TrkSt) : State :=
  { (member.setTrk 0 (some (aTrk st))) with grp := { (member.setTrk 0 (some (aTrk st))).grp with transit := [anInput w] } }

theorem wit_GroupVersions : ((entry none).grpE 0).retiring = some (3, 9) ∧ verBusy (entry none) 0 3 = false
    ∧ ((entry none).grpE 0).pending = none ∧ ((entry (some [])).grpE 0).pending = some []
    ∧ verBusy { entry none with grp := { (entry none).grp with transit := [{ anInput 0 with ver := ⟨[], 3⟩ }] } } 0 3 = true
    ∧ (running.grpE 0).retiring = none := by decide +kernel
theorem wit_InEvent : running.grp.transit[0]? = none ∧ (tracked 0 .acc).grp.transit[0]? = some (anInput 0)
    ∧ (anInput 2).shaped ≠ 0 ∧ inputPick (tracked 0 .acc) (anInput 0) (grpPkt (.data anAcc)) = 0
    ∧ findTrk (tracked 0 .acc) 1 0 0 = some (0, aTrk .acc) ∧ findTrk member 1 0 0 = none := by decide +kernel
theorem wit_InputAccepted :
    (aTrk .acc).st = .acc ∧ acceptedAs (tracked 0 .acc) ver0 (anInput 0) (grpPkt (.data anAcc)) 0 = some (some 0)
      ∧ acceptedAs grouped ver0 (anInput 0) (grpPkt (.data anAcc)) 0 = none
      ∧ inputPlace (tracked 0 .acc) ver0 true (anInput 0) (grpPkt (.data anAcc)) 0 = some (0, 16, 16)
      ∧ inputPlace member ver0 true (anInput 0) (grpPkt (.data { anAcc with stage := 1, lenM1 := 0 })) 0 = none := by decide +kernel
theorem wit_Results : isEp (portUp 1) 0 = false ∧ isGroupPkt anAcc = true
    ∧ (grpPkt (.data { anAcc with stage := 3 })).stage = 3 ∧ gateClosed (portUp 1) 1 = false ∧ aSacc.ckind = 1
    ∧ restricted (portUp 1) 0 = false ∧ isSvc (portUp 1) 0 = false ∧ (grpPkt (.ctl { aSacc with ks := 0xC0 })).stage = 3 := by
  decide +kernel
/-- A tracker whose emission is done. -/
def emitted : State := running.setTrk 0 (some { aTrk .emit with emitted := true, deadline := none })
theorem wit_SentAndTmo :
    running.trkE 0 = none ∧ emitted.trkE 0 = some { aTrk .emit with emitted := true, deadline := none }
      ∧ waitingCopy emitted (outCopy emitted { aTrk .emit with emitted := true }) = false
      ∧ emitted.rte.held.any (heldOut emitted (aTrk .emit)) = false ∧ (aTrk .acc).st ≠ .emit
      ∧ (tracked 0 .acc).trkE 0 = some (aTrk .acc) ∧ (aTrk .acc).deadline = some 5 := by decide +kernel
/-- A lag of member 0 of entry 0. -/
def lagging : State :=
  { member with grp := { member.grp with lag := [(lagKey 0 0, some ⟨0, false⟩)] } }
theorem wit_GroupControlActs :
    running.grp.abortAt = none ∧ ({ running with grp := { running.grp with abortAt := some (1, 2, 3) } } : State).grp.abortAt = some (1, 2, 3)
      ∧ lagRec lagging (lagKey 0 0) = some ⟨0, false⟩ ∧ groupOf lagging 0 = some (1, 0)
      ∧ ((members lagging (lagging.grpE 0).active).find? (·.slot == 0)).isSome = true
      ∧ lagRec running (lagKey 0 0) = none := by decide +kernel

/-- A descriptor of operation `op` and source `src` in progress on shuttle 0, for run `run` of tracker 0. -/
def aDesc (op src run : Nat) : Desc :=
  { w0 := BitVec.ofNat 32 (op * 2 ^ 27 + src * 2 ^ 25), w1 := 0, w2 := 0, w3 := 0, pkt := some (.data anAcc), run := run,
    startAt := some 0 }
/-- Tracker 0 is open, and shuttle 0 runs the descriptor. -/
def running1 (op src run : Nat) : State := (running.setTrk 0 (some (aTrk .acc))).onSht 0 fun r => { r with dq := [aDesc op src run] }
theorem wit_DescriptorsRun :
    inReset running 0 = false ∧ inReset State.reset 0 = true
      ∧ (∀ op ∈ [1, 2], inProgress (running1 op 2 1) 0 [op] (fun d => dSrc d != 1) = some (0, aDesc op 2 1))
      ∧ firstResult (running1 3 2 1) 0 = some (0, aDesc 3 2 1)
      ∧ (∀ op ∈ [4, 5], inProgress (running1 op 2 1) 0 [op] (fun d => dSrc d == 2) = some (0, aDesc op 2 1))
      ∧ (∀ op ∈ [0x10, 0x11], inProgress (running1 op 1 1) 0 [op] (fun _ => true) = some (0, aDesc op 1 1)) := by decide +kernel
theorem wit_DescriptorsTracker :
    trkOf (running1 1 2 1) (aDesc 1 2 1) = some (aTrk .acc) ∧ trkOf (running1 1 2 1) (aDesc 1 2 9) = none
      ∧ (aDesc 1 2 1).pkt = some (.data anAcc)
      ∧ trkOf (dropDesc 0 0 (running1 2 2 1)) (aDesc 2 2 1) = some (aTrk .acc)
      ∧ inProgress running 0 [1] (fun d => dSrc d != 1) = none ∧ firstResult running 0 = none := by decide +kernel
theorem wit_ScratchpadWrites : State.reset.mem.wf = true := by decide
/-- Shuttle 0 of die 0 waiting for its place from OFF, and with it. -/
def waking (placed : Bool) : State := (setShtP 0 3 running).onSht 0 fun r => { r with fromOff := true, placed := placed }
theorem wit_ShuttlePowerStates : inReset running 0 = false ∧ inReset State.reset 0 = true ∧ shtP (waking true) 0 = 3
    ∧ ((waking true).sht 0).placed = true ∧ shtP running 0 = 0 ∧ shtP (setShtP 0 1 running) 0 = 1 := by decide +kernel
/-- A migration of logical shuttle 0 to shuttle 130 of die 0. -/
def aMig (force : Bool) : Mig := { logical := 0, target := 130, old := none, force := force }
/-- Shuttle 0 whose software descriptor has hung, carried by logical shuttle 0 or by none; one spare or none; migration by itself. -/
def hung (carry spare auto : Bool) : State :=
  let s := (((running.setFlag (F.GLB_SHT_MAP_valid 0) carry).setFld (F.GLB_SHT_MAP_phys 0) 0).setFlag F.FLT_HANG_CFG_auto_mig auto)
  let s := forEach (upTo 136) (fun i s => setRole i 1 s) s
  (if spare then setRole 130 0 s else s).onSht 0 fun r => { r with dq := [aDesc 0x10 1 0] }
theorem wit_MigrationAndShuttleTimers :
    running.shts.mig = none ∧ (aMig true).force = true
      ∧ ({ running with shts := { running.shts with mig := some (aMig true) } } : State).shts.mig = some (aMig true)
      ∧ ((running1 1 2 1).sht 0).dq.zipIdx.find? (fun x => match x.1.startAt with
          | some t => decide (t + cmdTmoNs { running1 1 2 1 with now := 2 ^ 60 } (dCtx x.1) < 2 ^ 60) | none => false)
        = some (aDesc 1 2 1, 0)
      ∧ (running.sht 0).dq = [] ∧ dSrc (aDesc 0x10 1 0) = 1 := by decide +kernel

/-- `hung` when 2^60 ns have passed. -/
def hungNow (carry spare auto : Bool) : State := { hung carry spare auto with now := 2 ^ 60 }
/-- It is carried. -/
def carriedNow : State := setRole 0 1 (hungNow true true true)
theorem wit_ShtHang :
    isHung (hungNow false false false) 0 = true ∧ isHung running 0 = false ∧ inReset carriedNow 0 = false
      ∧ carried carriedNow 0 = some 0 ∧ carried (setRole 0 0 (hungNow false false false)) 0 = none
      ∧ ((upTo 136).find? fun i => shtRole carriedNow i == 0) = some 130
      ∧ ((upTo 136).find? fun i => shtRole (hungNow true false true) i == 0) = none
      ∧ carriedNow.flag F.FLT_HANG_CFG_auto_mig = true ∧ carriedNow.shts.mig = none := by decide +kernel

/-! ### Lanes -/

/-- Lane 0 of port 0, which is enabled, in state `st`. -/
def laneIn (st : Nat) : State := (portUp 1).setFld (F.LNE_STATUS_state 0) st
theorem wit_LaneTraining :
    (∀ st ∈ [0, 1, 2, 3, 4, 5], lstate (laneIn st) 0 = st) ∧ portOfLane (laneIn 5) 0 = some 0
      ∧ portOfLane running 0 = none ∧ inReset (laneIn 5) 0 = false ∧ inReset State.reset 0 = true
      ∧ linkUp (laneIn 5) 0 = true ∧ bits 1 0 4 = 1 := by decide +kernel
/-- The link of an enabled port is down, and so are its lanes, or one has been trained for 40 ms. -/
def joining (t : Nat) : State := ({ (portUp 1).setFld (F.PRT_LL_STATUS_state 0) 0 with now := t }).onPln 0 fun l => { l with firstTrained := some 0 }
theorem wit_Join : portOn (joining 0) 0 = true ∧ llState (joining 0) 0 = 0
    ∧ (portLanes (joining 0) 0).any (fun n => lstate (joining 0) n == 4) = false
    ∧ ((joining 0).pln 0).firstTrained = some 0 ∧ (0 : Nat) + 40000000 ≤ (joining 40000000).now
    ∧ ((portLanes (joining 0) 0).filter fun n => lstate (joining 0) n == 5 || trained (joining 0) n).length
      ≠ (portLanes (joining 0) 0).length := by decide +kernel
/-- Port 0 may enter electrical idle and has nothing to send. -/
def idling (sent : Bool) (quiet : Option Nat) : State :=
  ((portUp 1).setFlag (F.PRT_EI_CFG_ei_en 0) true).onPln 0 fun l => { l with eiSent := sent, quietAt := quiet }
theorem wit_ElectricalIdle :
    linkUp (idling true none) 0 = true ∧ (idling true none).flag (F.PRT_EI_CFG_ei_en 0) = true
      ∧ (idling true none).flag (F.PRT_EI_CFG_tx_ei 0) = false ∧ txQuiet (idling true none) 0 = true
      ∧ ((idling true none).pln 0).eiSent = true ∧ ((idling false (some 3)).pln 0).quietAt = some 3
      ∧ ((idling false none).pln 0).quietAt = none ∧ txQuiet ((idling true none).setEq 0 [aCopy 0]) 0 = false := by decide +kernel
/-- Port 0 has a proposal outstanding for lanes `m`, and one that waits to be tried again. -/
def proposed (m : Nat) : State := (portUp 1).onPln 0 fun l => { l with prop := some ⟨9, true, m, 0⟩, retry := some ⟨9, true, m, 0⟩ }
/-- A PROP or ACK of seq 9 for lanes `m` with answer `a`. -/
def aProp (m a : Nat) : Ctl := { aCtl with ckind := 0x12, w2 := 1, body := wordBytes (BitVec.ofNat 32 (9 * 2 ^ 24 + a * 2 ^ 20 + m)) }
theorem wit_WidthChanges :
    ((proposed 1).pln 0).prop = some ⟨9, true, 1, 0⟩ ∧ ((portUp 1).pln 0).prop = none ∧ ((portUp 1).pln 0).retry = none
      ∧ ((proposed 1).pln 0).retry = some ⟨9, true, 1, 0⟩ ∧ bits (wordAt (aProp 1 0).body 0).toNat 0 8 = 1
      ∧ bits (wordAt (aProp 2 1).body 0).toNat 20 4 = 1 ∧ bits (wordAt (aProp 2 1).body 0).toNat 24 8 = 9
      ∧ tieSerial ((aProp 1 0).w1 ++ (aProp 1 0).w2) = 1 ∧ tieSerial (ownSerial running) = 2 ^ 64
      ∧ tieSerial (ownSerial { running with fuses := { serial := 1 } }) = 1
      ∧ portOfLane running 0 = none ∧ portOfLane (portUp 1) 0 = some 0 := by decide +kernel

/-! ### Power, faults, resets and management -/

/-- The power-down has rail 4 to switch off next. -/
def downing : State := { running with pwr := { running.pwr with toOff := [4] } }
theorem wit_PowerSequences : downing.pwr.toOff = [4] ∧ running.pwr.toOff.head? ≠ some 4 ∧ (railMon running 4).farSince = none
    ∧ (railMon { running with pwr := { running.pwr with mon := [(4, { farSince := some 1 })] } } 4).farSince = some 1 := by decide +kernel
/-- Die 0 at effective level `e`. -/
def level (e : Nat) : State := running.setFld (F.PWR_DIE_STATUS_eff_lvl 0) e
theorem wit_LevelStep :
    inStandby running 0 = false ∧ inStandby (running.setFlag (F.PWR_DIE_STATUS_standby 0) true) 0 = true
      ∧ effLvl (level 5) 0 = 5 ∧ targetLvl (level 5) 0 < 5 ∧ 4 < effLvl (level 5) 0 ∧ effLvl (level 4) 0 ≤ 4
      ∧ followsVdd running = false ∧ (∃ e, e < targetLvl (level e) 0 ∨ e = targetLvl (level e) 0) := by
  refine ⟨by decide +kernel, by decide +kernel, by decide +kernel, by decide +kernel, by decide +kernel, by decide +kernel,
    by decide +kernel, 0, ?_⟩
  decide +kernel
/-- A power table that switches VDD_CORE by method 1. -/
def regulated : State :=
  { running with pwr := { running.pwr with table := some [{ pwrEntry running 4 with method := 1 }] } }
theorem wit_FollowsVdd : followsVdd { regulated with regs := (level 4).regs } = true
    ∧ targetLvl { regulated with regs := (level 4).regs } 0 < effLvl (level 4) 0 := by decide +kernel
theorem wit_MoveThr : (thr running 0 0).lowSince = none
    ∧ (thr (setThr 0 0 { level := 1, lowSince := some 2 } running) 0 0).lowSince = some 2 := by decide +kernel
theorem wit_FaultsAndTheirPin : running.flt.minUntil = none
    ∧ ({ running with flt := { running.flt with minUntil := some 4 } } : State).flt.minUntil = some 4
    ∧ isFatal running = false ∧ isFatal (running.setFlag F.FLT_STATUS_fatal true) = true := by decide +kernel
theorem wit_Watchdog : ({ running with flt := { running.flt with wdogAt := some 0 } } : State).now < 0 + 10000000000 := by decide +kernel
theorem wit_SelvedgeIsWritten : running.mem.wf = true ∧ halfAddr running.mgt.selHalf + 0x20000 ≤ halfAddr (1 - running.mgt.selHalf) := by
  decide +kernel
/-- A context reset whose steps have run, or not. -/
def resetting (ran panel : Bool) : State :=
  { running with ctxRst := some { ctxs := [1], start := 0, sample := false, ran := ran, panel := panel } }
theorem wit_ContextAndDieResets :
    (resetting true false).ctxRst = some { ctxs := [1], start := 0, sample := false, ran := true, panel := false }
      ∧ (ctxResetSteps (resetting true false)).ctxRst = (resetting true false).ctxRst ∧ (ctxResetSteps running).ctxRst = none
      ∧ holdsCopies [1] (resetting true false) = false
      ∧ holdsCopies [1] ((resetting true false).setEq 0 [aCopy 0]) = true
      ∧ ((ctxResetSteps (resetting false false)).ctxRst.map (·.ran)) = some true := by decide +kernel
theorem wit_WarmAndPowerOnReset : running.flag F.SEL_STATUS_busy = false ∧ running.mgt.spi = none ∧ running.fuses.lcTarget = none := by
  decide +kernel
theorem wit_FlashOperations :
    running.mgt.spi = none ∧ ({ running with mgt := { running.mgt with spi := some (0, 0, 1), spiWait := true } } : State).mgt.spi = some (0, 0, 1)
      ∧ running.flag F.SEL_STATUS_busy = false ∧ (running.setFlag F.SEL_STATUS_busy true).flag F.SEL_STATUS_busy = true := by decide +kernel
/-- A load of slot 0 that drains `d`. -/
def loading (v : Bool) (d : Option (Nat × Nat)) : State :=
  { running with drf := { running.drf with load := some { slot := 0, since := 0, verified := v, draining := d } } }
theorem wit_DraftsAndUnitResets :
    running.drf.load = none ∧ (loading true none).drf.load = some { slot := 0, since := 0, verified := true, draining := none }
      ∧ (verifySlot (loading false none) 0).isSome = true
      ∧ ((loading false (some (1, 0))).drf.load.bind (·.draining)) = some (1, 0)
      ∧ ((loading false (some (2, 3))).drf.load.bind (·.draining)) = some (2, 3) := by decide +kernel
theorem wit_ContextResetOfPanel :
    (loading true (some (3, 2))).drf.load.bind (fun ld => match ld.draining with
      | some (3, k) => some (k, ld.slot, 0) | _ => none) = some (2, 0, 0) := by decide +kernel
theorem wit_LifeCycleTransitions : provisioned.fuses.lcTarget = some 2 ∧ running.fuses.lcTarget = none := by decide +kernel

/-! ### Encodings, counters and memories -/

theorem wit_WireRoundTrip : (Pkt.data aLoad).wf = true ∧ (Pkt.ctl aCtl).wf = true := by decide +kernel
theorem wit_LcuRoundTrip : aLcu.wf = true ∧ (crc32c (lcuCovered aLcu) + 1#32) ≠ crc32c (lcuCovered aLcu) := by decide +kernel
theorem wit_CountersSaturate : (F.PRT_CRC_ERR_CNT_count 511).lo + (F.PRT_CRC_ERR_CNT_count 511).width ≤ 32 := by decide
theorem wit_MemoriesStayCanonical : State.reset.mem.wf = true ∧ ∃ t, step State.reset = .next t := ⟨by decide, _, rfl⟩

end Sys2Proof.Tests
end

section
/-! SUPPORT. The fields of a register: those of one register lie apart and inside its 32 bits, so that a software write
(Table 00-3) can be read off bit by bit. -/

namespace Sys2Proof.Machine

/-! ### The field tables -/

/-- The fields of a list lie inside 32 bits, and no two of them share a bit. -/
def FieldsApart (l : List FieldSpec) : Prop :=
  (∀ f ∈ l, f.lo + f.width ≤ 32) ∧ l.Pairwise fun f g => f.lo + f.width ≤ g.lo ∨ g.lo + g.width ≤ f.lo

theorem FieldsApart.ite {c : Prop} [Decidable c] {l m : List FieldSpec} (hl : FieldsApart l) (hm : FieldsApart m) :
    FieldsApart (if c then l else m) := by
  split
  · exact hl
  · exact hm

/-- No register of the map has overlapping fields: every branch of the tables is a literal list of apart fields. -/
theorem fieldsApart_regFields (off : Nat) : FieldsApart (regFields off) := by
  unfold regFields Fields.glbBlock Fields.aonBlock Fields.fltBlock Fields.pwrBlock Fields.dftBlock Fields.mioBlock
    Fields.prtBlock Fields.lneBlock Fields.bcwBlock Fields.shtBlock Fields.bcsBlock Fields.grpBlock Fields.mbrBlock
    Fields.ctxBlock Fields.rteBlock Fields.cbfBlock Fields.mirBlock Fields.shpcBlock Fields.schBlock Fields.polBlock
    Fields.shedBlock Fields.histBlock Fields.selBlock Fields.wmkBlock Fields.trcBlock Fields.trecBlock
  repeat' apply FieldsApart.ite
  all_goals
    unfold FieldsApart
    decide

/-! ### A software write, bit by bit -/

/-- What a software write of bit `v` leaves of a bit that was `w`, by access type (Table 00-3). -/
def storedBit (a : Access) (v w : Bool) : Bool :=
  match a with
  | .rw => v
  | .w1c => w && !v
  | .w1s => w || v
  | .ro | .wo | .rc | .dl => w

/-- Bit `i` is one of the field's. -/
def FieldSpec.Holds (f : FieldSpec) (i : Nat) : Prop := f.lo ≤ i ∧ i < f.lo + f.width

theorem getLsbD_fieldMask_of_holds {f : FieldSpec} {i : Nat} (hf : f.lo + f.width ≤ 32) (h : f.Holds i) :
    (fieldMask f.lo f.width).getLsbD i = true := by
  obtain ⟨hlo, hhi⟩ := h
  rw [getLsbD_fieldMask]
  simp only [Bool.and_eq_true, decide_eq_true_eq]
  omega

theorem getLsbD_fieldMask_of_not_holds {f : FieldSpec} {i : Nat} (h : ¬ f.Holds i) :
    (fieldMask f.lo f.width).getLsbD i = false := by
  rw [getLsbD_fieldMask]
  simp only [Bool.and_eq_false_iff, decide_eq_false_iff_not]
  unfold FieldSpec.Holds at h
  omega

theorem getLsbD_storeField_of_holds (v w : Word) {f : FieldSpec} {i : Nat} (hf : f.lo + f.width ≤ 32) (h : f.Holds i) :
    (State.storeField v w f).getLsbD i = storedBit f.access (v.getLsbD i) (w.getLsbD i) := by
  have hm := getLsbD_fieldMask_of_holds hf h
  have hi : i < 32 := Nat.lt_of_lt_of_le h.2 hf
  unfold State.storeField storedBit
  cases f.access <;> simp [-BitVec.getLsbD_eq_getElem, hm, hi]

theorem getLsbD_storeField_of_not_holds (v w : Word) {f : FieldSpec} {i : Nat} (h : ¬ f.Holds i) :
    (State.storeField v w f).getLsbD i = w.getLsbD i := by
  have hm := getLsbD_fieldMask_of_not_holds h
  rcases Nat.lt_or_ge i 32 with hi | hi
  · unfold State.storeField
    cases f.access <;> simp [-BitVec.getLsbD_eq_getElem, hm, hi]
  · rw [BitVec.getLsbD_of_ge _ _ hi, BitVec.getLsbD_of_ge _ _ hi]

/-- The fields that do not hold a bit leave it alone. -/
theorem getLsbD_storeFields_of_not_holds (v : Word) {l : List FieldSpec} {i : Nat} (h : ∀ f ∈ l, ¬ f.Holds i) (w : Word) :
    (l.foldl (State.storeField v) w).getLsbD i = w.getLsbD i := by
  induction l generalizing w with
  | nil => rfl
  | cons g l ih =>
    rw [List.forall_mem_cons] at h
    rw [List.foldl_cons, ih h.2, getLsbD_storeField_of_not_holds v w h.1]

/-- Of fields that lie apart, the one that holds a bit says alone what becomes of it. -/
theorem getLsbD_storeFields_of_holds (v : Word) {l : List FieldSpec} (hl : FieldsApart l) {f : FieldSpec} (hf : f ∈ l)
    {i : Nat} (h : f.Holds i) (w : Word) :
    (l.foldl (State.storeField v) w).getLsbD i = storedBit f.access (v.getLsbD i) (w.getLsbD i) := by
  induction l generalizing w with
  | nil => exact absurd hf List.not_mem_nil
  | cons g l ih =>
    obtain ⟨hfit, hap⟩ := hl
    rw [List.forall_mem_cons] at hfit
    rw [List.pairwise_cons] at hap
    have apart : ∀ {x y : FieldSpec}, (x.lo + x.width ≤ y.lo ∨ y.lo + y.width ≤ x.lo) → x.Holds i → ¬ y.Holds i := by
      unfold FieldSpec.Holds; omega
    rw [List.foldl_cons]
    rcases List.mem_cons.mp hf with rfl | hmem
    · rw [getLsbD_storeFields_of_not_holds v (fun x hx => apart (hap.1 x hx) h), getLsbD_storeField_of_holds v w hfit.1 h]
    · have hg : ¬ g.Holds i := apart (hap.1 f hmem).symm h
      rw [ih ⟨hfit.2, hap.2⟩ hmem, getLsbD_storeField_of_not_holds v w hg]

/-- A register after a software write. -/
theorem State.rd_storeReg_same (s : State) (off : Nat) (v : Word) :
    (s.storeReg off v).rd off = (regFields off).foldl (State.storeField v) (s.rd off) := State.rd_wr_same s off _

theorem State.testBit_fld (s : State) (r : FieldRef) (i : Nat) :
    (s.fld r).testBit i = (decide (i < r.width) && (s.rd r.off).getLsbD (r.lo + i)) := testBit_bits _ _ _ _

theorem State.fld_lt (s : State) (r : FieldRef) : s.fld r < 2 ^ r.width := bits_lt _ _ _

theorem decide_and_testBit {x n : Nat} (h : x < 2 ^ n) (i : Nat) : (decide (i < n) && x.testBit i) = x.testBit i := by
  rw [← Nat.testBit_mod_two_pow, Nat.mod_eq_of_lt h]

theorem testBit_complement {x n : Nat} (h : x < 2 ^ n) (i : Nat) :
    (2 ^ n - 1 - x).testBit i = (decide (i < n) && !x.testBit i) := by
  rw [Nat.sub_sub, Nat.add_comm 1 x, Nat.testBit_two_pow_sub_succ h]

/-- A field after a software write, bit by bit. -/
theorem State.testBit_fld_storeReg (s : State) {off : Nat} (v : Word) {f : FieldSpec} (hf : f ∈ regFields off) (i : Nat) :
    ((s.storeReg off v).fld ⟨off, f.lo, f.width⟩).testBit i
      = (decide (i < f.width)
          && storedBit f.access ((bits v.toNat f.lo f.width).testBit i) ((s.fld ⟨off, f.lo, f.width⟩).testBit i)) := by
  rw [State.testBit_fld, State.testBit_fld, testBit_bits, State.rd_storeReg_same]
  by_cases hi : i < f.width
  · have h : f.Holds (f.lo + i) := ⟨Nat.le_add_right _ _, Nat.add_lt_add_left hi _⟩
    simp only [hi, decide_true, Bool.true_and, getLsbD_storeFields_of_holds v (fieldsApart_regFields off) hf h]
    rfl
  · simp [hi]

/-! ### The statements -/

/-- Settles O14, bit by bit: the fields of a register lie apart, so each bit is the business of one field or of none. -/
theorem softwareWriteByAccessType : Obligations.SoftwareWriteByAccessType := by
  unfold Obligations.SoftwareWriteByAccessType
  intro s off v
  refine ⟨fun f hf => ?field, fun i hi => ?reserved, fun o ho => State.rd_storeReg_ne s v ho⟩
  case field =>
    apply Nat.eq_of_testBit_eq
    intro i
    rw [State.testBit_fld_storeReg s v hf]
    have hnew : (decide (i < f.width) && (bits v.toNat f.lo f.width).testBit i) = (bits v.toNat f.lo f.width).testBit i :=
      decide_and_testBit (bits_lt _ _ _) i
    have hold : (decide (i < f.width) && (s.fld ⟨off, f.lo, f.width⟩).testBit i) = (s.fld ⟨off, f.lo, f.width⟩).testBit i :=
      decide_and_testBit (State.fld_lt s ⟨off, f.lo, f.width⟩) i
    cases f.access with
    | rw => exact hnew
    | w1c => rw [storedBit, Nat.testBit_and, testBit_complement (bits_lt _ _ _), Bool.and_left_comm]
    | w1s => rw [storedBit, Nat.testBit_or, Bool.and_or_distrib_left, hold, hnew]
    | ro | wo | rc | dl => exact hold
  case reserved =>
    rw [State.rd_storeReg_same]
    refine getLsbD_storeFields_of_not_holds v (fun f hf h => ?_) _
    have := hi f hf
    unfold FieldSpec.Holds at h
    omega

/-- Settles O59: the sum is capped before it is stored, and a field's write touches its own bits alone. -/
theorem countersSaturate : Obligations.CountersSaturate := by
  unfold Obligations.CountersSaturate
  intro s f n hf
  have hsum := State.fld_bumpBy_same s f n hf
  have hlt := State.fld_lt s f
  refine ⟨hsum, by omega, fun i hi => ?_, fun o ho => State.rd_bumpBy_ne s f n ho⟩
  rw [State.bumpBy, State.rd_setFld, if_pos rfl, getLsbD_putBits, if_neg (by omega)]

end Sys2Proof.Machine
end

section
/-! SUPPORT. BAR accesses: what a read returns and leaves, and the cases of a write. -/

namespace Sys2Proof.Machine

/-! ### Reads -/

/-- Clearing RC fields is at most a write of the register. -/
theorem clearRc_keeps {β : Type} (g : State → β) (off : Nat) (hg : ∀ (s : State) v, g (s.wr off v) = g s) (events : Word)
    (s : State) : g (clearRc off events s) = g s := by
  unfold clearRc
  split
  · rfl
  · exact hg s _

theorem rd_clearRc_ne {o off : Nat} (h : o ≠ off) (events : Word) (s : State) : (clearRc off events s).rd o = s.rd o :=
  clearRc_keeps (State.rd · o) off (fun s v => State.rd_wr_ne s v h) events s

@[simp] theorem clearRc_frame (off : Nat) (events : Word) (s : State) :
    (clearRc off events s).out = s.out ∧ (clearRc off events s).latch = s.latch ∧ (clearRc off events s).mem = s.mem
      ∧ (clearRc off events s).fab = s.fab ∧ (clearRc off events s).core = s.core ∧ (clearRc off events s).link = s.link :=
  ⟨clearRc_keeps _ off (fun _ _ => rfl) _ _, clearRc_keeps _ off (fun _ _ => rfl) _ _, clearRc_keeps _ off (fun _ _ => rfl) _ _,
    clearRc_keeps _ off (fun _ _ => rfl) _ _, clearRc_keeps _ off (fun _ _ => rfl) _ _, clearRc_keeps _ off (fun _ _ => rfl) _ _⟩

/-- A 32-bit read returns the register and changes no other. -/
theorem readReg32_frame (off : Nat) (events : Word) (s : State) :
    (readReg32 off events s).out = s.out ++ [.readData off 4 ((readValue s off).setWidth 64)]
      ∧ (∀ o, o ≠ off → (readReg32 off events s).rd o = s.rd o)
      ∧ (readReg32 off events s).mem = s.mem ∧ (readReg32 off events s).fab = s.fab
      ∧ (readReg32 off events s).core = s.core ∧ (readReg32 off events s).link = s.link := by
  refine ⟨?_, fun o ho => ?_, ?_⟩
  · simp [readReg32, State.emit]
  · rw [readReg32, State.emit_rd, rd_clearRc_ne ho]; rfl
  · simp [readReg32]

/-- A 32-bit read consumes the capture of its own register, if there is one. -/
theorem readReg32_latch {off : Nat} (h : isLatchLo off = false) (events : Word) (s : State) :
    (readReg32 off events s).latch = s.latch.filter fun x => x.1 != off := by
  simp [readReg32, h]

/-- A 32-bit read of a LO register captures its HI half. -/
theorem readReg32_latch_of_lo {off : Nat} (h : isLatchLo off = true) (events : Word) (s : State) :
    (readReg32 off events s).latch.find? (fun x => x.1 == off + 4) = some (off + 4, regValue s (off + 4)) := by
  simp [readReg32, h]

/-- A 64-bit read returns both halves live, captures nothing and changes no other register. -/
theorem readReg64_frame (off : Nat) (events : BitVec 64) (s : State) :
    (readReg64 off events s).out = s.out ++ [.readData off 8 (regValue s (off + 4) ++ regValue s off)]
      ∧ (readReg64 off events s).latch = s.latch
      ∧ (∀ o, o ≠ off → o ≠ off + 4 → (readReg64 off events s).rd o = s.rd o)
      ∧ (readReg64 off events s).mem = s.mem := by
  refine ⟨?_, ?_, fun o ho ho' => ?_, ?_⟩
  · simp [readReg64, State.emit]
  · simp [readReg64]
  · rw [readReg64, State.emit_rd, rd_clearRc_ne ho', rd_clearRc_ne ho]
  · simp [readReg64]

/-! ### The commands -/

theorem exec_readClear (off : BitVec 26) (size : Nat) (events : BitVec 64) (s : State) :
    exec (.readClear off size events) s = .next (kept s (readClear off.toNat size events s)) := rfl

theorem exec_latchingRead (off : BitVec 26) (s : State) :
    exec (.latchingRead off) s = .next (kept s (readClear off.toNat 4 0 s)) := rfl

/-- An access of a form that the BAR takes: 32 bits aligned to 4 or 64 bits aligned to 8 (R5). -/
abbrev Aligned (off size : Nat) : Prop := (size = 4 ∧ off % 4 = 0) ∨ (size = 8 ∧ off % 8 = 0)

theorem readClear_unsupported {off size : Nat} {s : State} (h : s.mgt.cfg.d3hot = true ∨ ¬ Aligned off size)
    (events : BitVec 64) : readClear off size events s = s.emit (.unsupported off) := by
  unfold readClear
  by_cases hd : s.mgt.cfg.d3hot = true
  · rw [if_pos hd]
  · obtain ⟨h4, h8⟩ := not_or.mp (h.resolve_left hd)
    rw [if_neg hd, if_neg h4, if_neg h8]

theorem readClear_word {off : Nat} {s : State} (hw : windowOf off = none) (hd : s.mgt.cfg.d3hot = false) (h : off % 4 = 0)
    (events : BitVec 64) : readClear off 4 events s = readReg32 off (lo32 events) s := by
  simp [readClear, hw, hd, h]

theorem readClear_double {off : Nat} {s : State} (hw : windowOf off = none) (hd : s.mgt.cfg.d3hot = false) (h : off % 8 = 0)
    (events : BitVec 64) : readClear off 8 events s = readReg64 off events s := by
  simp [readClear, hw, hd, h]

/-- The cases of a BAR write: refused, 32 bits, a routing entry at once, or the low half and then the high half. -/
theorem registerWrite_cases (off size : Nat) (v hw : BitVec 64) (s : State) :
    registerWrite off size v hw s
      = if s.mgt.cfg.d3hot = true ∨ ¬ Aligned off size then s.emit (.unsupported off)
        else if size = 4 then writeKeeping off (lo32 v) (lo32 hw) s
        else if (routeKey off).isSome = true then routeWrite off 8 v s
        else writeKeeping (off + 4) (hi32 v) (hi32 hw) (writeKeeping off (lo32 v) (lo32 hw) s) := by
  unfold registerWrite
  by_cases hd : s.mgt.cfg.d3hot = true
  · rw [if_pos hd, if_pos (.inl hd)]
  rw [if_neg hd]
  by_cases ha : Aligned off size
  · rw [if_neg (not_or.mpr ⟨hd, not_not.mpr ha⟩)]
    rcases ha with h4 | h8
    · rw [if_pos h4, if_pos h4.1]
    · have h4 : size ≠ 4 := by omega
      rw [if_neg (fun h => h4 h.1), if_pos h8, if_neg h4, h8.1]
  · obtain ⟨h4, h8⟩ := not_or.mp ha
    rw [if_neg h4, if_neg h8, if_pos (.inr ha)]

theorem exec_registerWrite (off : BitVec 26) (size : Nat) (w : BarWrite) (s : State) :
    exec (.registerWrite off size w) s
      = .next (if reachesLc off.toNat size = true
          then { registerWrite off.toNat size w.data w.hw s with pending := s.pending, now := s.now }
          else kept s (settle (registerWrite off.toNat size w.data w.hw s))) := by
  change (if reachesLc off.toNat size = true then _ else _) = _
  split <;> rfl

/-! ### The statement -/

/-- Settles O13: a command is its access, an access one of its cases, and each case has its laws above. -/
theorem registerAccesses : Obligations.RegisterAccesses := by
  unfold Obligations.RegisterAccesses
  refine ⟨fun s off size w => ?write, fun s off size events h => ?refused, fun s off events hw hd => ⟨fun h => ?word, fun h => ?double,
    fun h hl => ?latching⟩⟩
  case write => rw [exec_registerWrite, registerWrite_cases]
  case refused => rw [exec_readClear, readClear_unsupported h]
  case word =>
    rw [exec_readClear, readClear_word hw hd h]
    obtain ⟨hout, hrd, hrest⟩ := readReg32_frame off.toNat (lo32 events) s
    exact ⟨_, rfl, hout, fun hl => readReg32_latch hl (lo32 events) s, hrd, hrest⟩
  case double =>
    rw [exec_readClear, readClear_double hw hd h]
    exact ⟨_, rfl, readReg64_frame off.toNat events s⟩
  case latching =>
    rw [exec_latchingRead, readClear_word hw hd h]
    obtain ⟨hout, hrd, hrest⟩ := readReg32_frame off.toNat (lo32 0) s
    exact ⟨_, rfl, hout, readReg32_latch_of_lo hl (lo32 0) s, hrd, hrest⟩

end Sys2Proof.Machine
end

section
/-! SUPPORT. The outstanding-request table: what an allocation takes and what a completion gives back (R52, R63, R66). -/

namespace Sys2Proof.Machine

/-- The entry that an allocation leaves in the table: the next generation, busy for the request (R52, R63). -/
def takenEntry (s : State) (port : Nat) (p : Packet) : OrtEntry :=
  let e := s.ortE (ortIndex s port (p.ftag.toNat % 4096))
  { e with
    gen := nextGen e, busy := true, port := port, tag := p.ftag.toNat % 4096, ctx := p.ctx.toNat, queue := p.queue.toNat,
    ord := p.ord, dst := dstEpOf p, dstSw := isWindowPkt p, deadline := s.now + tmoNs s p.ctx.toNat }

theorem allocate_of_getsCpl {p : Packet} (h : getsCpl p.op = true) (port : Nat) (s : State) :
    allocate port p s
      = ({ p with ftag := BitVec.ofNat 16 ((takenEntry s port p).gen * 4096 + p.ftag.toNat % 4096) },
          s.setOrt (ortIndex s port (p.ftag.toNat % 4096)) (takenEntry s port p)) := by
  rw [allocate, if_pos h]
  rfl

theorem matchCpl_of_match {s : State} {p : Packet} {port : Nat} (hport : localPort s (idLocal (dstEpOf p)) = some port)
    (hmine : p.ftag.toNat % 4096 ≤ s.fld (F.PRT_TAG_CFG_tags_m1 port))
    (hbusy : (s.ortE (ortIndex s port (p.ftag.toNat % 4096))).busy = true)
    (hgen : (s.ortE (ortIndex s port (p.ftag.toNat % 4096))).gen = p.ftag.toNat / 4096)
    (hsrc : fromDst (s.ortE (ortIndex s port (p.ftag.toNat % 4096))) p = true) :
    matchCpl p s = (some (port, { p with ftag := BitVec.ofNat 16 (p.ftag.toNat % 4096) }),
      s.setOrt (ortIndex s port (p.ftag.toNat % 4096))
        { s.ortE (ortIndex s port (p.ftag.toNat % 4096)) with busy := false }) := by
  simp only [matchCpl, hport, hmine, hbusy, hgen, hsrc, decide_true, Bool.and_self, beq_self_eq_true, if_true]

/-- Settles O17: the allocation is one write of the table at the request's own entry. -/
theorem allocationFillsOneEntry : Obligations.AllocationFillsOneEntry := by
  unfold Obligations.AllocationFillsOneEntry
  intro s port p h i a
  have ha : a = ({ p with ftag := BitVec.ofNat 16 ((takenEntry s port p).gen * 4096 + p.ftag.toNat % 4096) },
      s.setOrt i (takenEntry s port p)) := allocate_of_getsCpl h port s
  have hi : a.2.ortE i = takenEntry s port p := by rw [ha, State.setOrt_ortE, if_pos rfl]
  rw [hi]
  refine ⟨rfl, rfl, rfl, rfl, rfl, rfl, ?tag, fun j hj => ?others, fun o => ?regs, ?mem⟩
  case tag => rw [ha]; exact BitVec.toNat_ofNat _ _
  case others => rw [ha, State.setOrt_ortE, if_neg hj]
  case regs => rw [ha, State.setOrt_rd]
  case mem => rw [ha]; simp

/-- Settles O18: with its four conditions met, the match is the one write that frees the entry. -/
theorem completionFreesItsEntry : Obligations.CompletionFreesItsEntry := by
  unfold Obligations.CompletionFreesItsEntry
  intro s p port hport tag i hmine hbusy hgen hsrc
  exact matchCpl_of_match hport hmine hbusy hgen hsrc

end Sys2Proof.Machine
end

section
/-! SUPPORT. Operations on window bytes (R42, Table 02-4), one equation per operation. -/

namespace Sys2Proof.Machine

/-- `n` little-endian bytes hold a number modulo 2 ^ (8 n). -/
theorem leBytes_mod (n x : Nat) : leBytes n (x % 2 ^ (8 * n)) = leBytes n x := by
  induction n generalizing x with
  | zero => rfl
  | succ k ih =>
    have hpow : 2 ^ (8 * (k + 1)) = 256 * 2 ^ (8 * k) := by rw [Nat.mul_succ, Nat.pow_add, Nat.mul_comm]
    have hlow : BitVec.ofNat 8 (x % (256 * 2 ^ (8 * k))) = BitVec.ofNat 8 x := by
      apply BitVec.eq_of_toNat_eq
      rw [BitVec.toNat_ofNat, BitVec.toNat_ofNat]
      exact Nat.mod_mul_right_mod _ _ _
    have hhigh : x % (256 * 2 ^ (8 * k)) / 256 = x / 256 % 2 ^ (8 * k) := Nat.mod_mul_right_div_self _ _ _
    rw [leBytes, leBytes, hpow, hlow, hhigh, ih]

section
variable {p : Packet} (ph : Nat) (s : State)

theorem performWin_load (h : p.op = .load) :
    performWin ph p s = (some (winRead s ph (windowOff p.address) (pktLen p)), s) := by
  simp only [performWin, h]

theorem performWin_store (h : p.op = .store) :
    performWin ph p s = (none, winWrite ph (windowOff p.address) (p.payload.take (pktLen p)) s) := by
  simp only [performWin, h]

theorem performWin_fadd (h : p.op = .fadd) :
    performWin ph p s = (some (winRead s ph (windowOff p.address) (pktLen p)),
      winWrite ph (windowOff p.address)
        (leBytes (pktLen p) (ofLe (winRead s ph (windowOff p.address) (pktLen p)) + ofLe (p.payload.take (pktLen p)))) s) := by
  simp only [performWin, h]

theorem performWin_swap (h : p.op = .swap) :
    performWin ph p s = (some (winRead s ph (windowOff p.address) (pktLen p)),
      winWrite ph (windowOff p.address) (p.payload.take (pktLen p)) s) := by
  simp only [performWin, h]

theorem performWin_cas (h : p.op = .cas) :
    performWin ph p s = (some (winRead s ph (windowOff p.address) (pktLen p)),
      if winRead s ph (windowOff p.address) (pktLen p) = p.payload.take (pktLen p)
      then winWrite ph (windowOff p.address) ((p.payload.drop (pktLen p)).take (pktLen p)) s else s) := by
  simp only [performWin, h]

end

/-- Settles O21, one equation per operation; the sum of a FADD wraps because its bytes do. -/
theorem windowAtomics : Obligations.WindowAtomics := by
  unfold Obligations.WindowAtomics
  intro s ph p off n
  refine ⟨performWin_load ph s, performWin_store ph s, fun h => ?fadd, performWin_swap ph s, fun h heq => ?equal,
    fun h hne => ?different⟩
  case fadd => rw [leBytes_mod]; exact performWin_fadd ph s h
  case equal => rw [performWin_cas ph s h, if_pos heq]
  case different => rw [performWin_cas ph s h, if_neg hne]

end Sys2Proof.Machine
end

section
/-! SUPPORT. A packet arrives: what the disarming of its receive direction leaves alone, and which way a data packet goes
(R105, R150, R386). -/

namespace Sys2Proof.Machine

/-! ### Disarming -/

theorem rd_disarmed_ne (s : State) (n : Nat) {k : Nat} (h : k ≠ R.PRT_EI_CFG n) : (disarmed n s).rd k = s.rd k := by
  unfold disarmed eiDisarm
  split
  · rw [State.onPln_rd, State.rd_setFlag_ne _ _ _ h]
  · rfl

theorem fld_disarmed_ne (s : State) (n : Nat) {f : FieldRef} (h : f.off ≠ R.PRT_EI_CFG n) :
    (disarmed n s).fld f = s.fld f := by
  unfold State.fld
  rw [rd_disarmed_ne s n h]

theorem flag_disarmed_ne (s : State) (n : Nat) {f : FieldRef} (h : f.off ≠ R.PRT_EI_CFG n) :
    (disarmed n s).flag f = s.flag f := by
  unfold State.flag
  rw [fld_disarmed_ne s n h]

section
variable (s : State) (n : Nat)

theorem prtCfg_ne_prtEiCfg : R.PRT_CFG n ≠ R.PRT_EI_CFG n := by unfold R.PRT_CFG R.PRT_EI_CFG; omega

theorem prtDiscStatus_ne_prtEiCfg : R.PRT_DISC_STATUS n ≠ R.PRT_EI_CFG n := by
  unfold R.PRT_DISC_STATUS R.PRT_EI_CFG; omega

@[simp] theorem portOn_disarmed : portOn (disarmed n s) n = portOn s n := by
  unfold portOn
  rw [flag_disarmed_ne s n (prtCfg_ne_prtEiCfg n), fld_disarmed_ne s n (prtCfg_ne_prtEiCfg n)]

@[simp] theorem isEp_disarmed : isEp (disarmed n s) n = isEp s n := by
  unfold isEp
  rw [portOn_disarmed, fld_disarmed_ne s n (prtCfg_ne_prtEiCfg n)]

@[simp] theorem isSvc_disarmed : isSvc (disarmed n s) n = isSvc s n := by
  unfold isSvc
  rw [portOn_disarmed, fld_disarmed_ne s n (prtCfg_ne_prtEiCfg n)]

@[simp] theorem quarantined_disarmed : quarantined (disarmed n s) n = quarantined s n := by
  have hflag : ∀ lo, (disarmed n s).flag ⟨R.PRT_DISC_STATUS n, lo, 1⟩ = s.flag ⟨R.PRT_DISC_STATUS n, lo, 1⟩ :=
    fun _ => flag_disarmed_ne s n (prtDiscStatus_ne_prtEiCfg n)
  simp only [quarantined, F.PRT_DISC_STATUS_dup, F.PRT_DISC_STATUS_role, F.PRT_DISC_STATUS_loop, F.PRT_DISC_STATUS_excess,
    F.PRT_DISC_STATUS_miswire, hflag]

@[simp] theorem restricted_disarmed : restricted (disarmed n s) n = restricted s n := by
  unfold restricted assigned
  rw [isEp_disarmed, quarantined_disarmed, fld_disarmed_ne s n (prtDiscStatus_ne_prtEiCfg n)]

end

/-! ### Arrival -/

theorem arrive_of_takesPackets {s : State} {port : Nat} (h : TakesPackets s port) (pk : Pkt) :
    arrive port pk s = settle (receivePkt port pk .good (disarmed port s)) := by
  rw [arrive, if_pos (by rw [h.1, h.2]; rfl)]

theorem arrive_of_not_takesPackets {s : State} {port : Nat} (h : ¬ TakesPackets s port) (pk : Pkt) :
    arrive port pk s = s := by
  rw [arrive, if_neg (by rwa [Bool.and_eq_true])]

/-- The commands that bring an operation, with the operation that each fixes (log 28). -/
theorem exec_operationRow {x : (Fin 512 → Packet → Instr) × Op}
    (hx : x ∈ requestRows ++ [(.acc, .acc), (.inv, .inv), (.cpl, .cpl)]) (s : State) (port : Fin 512) (p : Packet) :
    exec (x.1 port p) s = .next (kept s (arrive port.val (.data { p with op := x.2 }) s)) := by
  simp only [requestRows, List.cons_append, List.nil_append, List.mem_cons, List.not_mem_nil, or_false] at hx
  rcases hx with rfl | rfl | rfl | rfl | rfl | rfl | rfl | rfl | rfl | rfl | rfl | rfl <;> rfl

/-- The queue of a data packet is Q7. -/
theorem qOf_data_eq_seven (p : Packet) : qOf (.data p) = 7 ↔ p.queue = 7 := by
  rw [← BitVec.toNat_inj]
  rfl

/-- The three ways of a data packet with a good CRC (R105, R150, R201). -/
theorem receiveData_good (port : Nat) (p : Packet) (s : State) :
    receiveData port p .good s
      = if p.queue = 7 ∧ isSvc s port = false then protoError port s
        else if restricted s port = true ∨ isSvc s port = true then
          giveCredits port p.queue.toNat (nLuOf (.data p)) (s.bump F.RTE_QUAR_DROP_CNT_count)
        else carryOut port p (mirSelect s false port (.data p)) (lookup port p s) := by
  have hq : (qOf (.data p) = 7 && !isSvc s port) = true ↔ p.queue = 7 ∧ isSvc s port = false := by
    rw [Bool.and_eq_true, decide_eq_true_eq, qOf_data_eq_seven, Bool.not_eq_true']
  have hr : (restricted s port || isSvc s port) = true ↔ restricted s port = true ∨ isSvc s port = true := Bool.or_eq_true_iff
  unfold receiveData
  simp only [hq, hr]
  rfl

theorem arrive_data (port : Nat) (p : Packet) (s : State) :
    arrive port (.data p) s
      = if TakesPackets s port then
          settle (
            if p.queue = 7 ∧ isSvc (disarmed port s) port = false then protoError port (disarmed port s)
            else if restricted (disarmed port s) port = true ∨ isSvc (disarmed port s) port = true then
              giveCredits port p.queue.toNat (nLuOf (.data p)) ((disarmed port s).bump F.RTE_QUAR_DROP_CNT_count)
            else carryOut port p (mirSelect (disarmed port s) false port (.data p)) (lookup port p (disarmed port s)))
        else s := by
  by_cases h : TakesPackets s port
  · rw [if_pos h, arrive_of_takesPackets h, receivePkt, receiveData_good]
  · rw [if_neg h, arrive_of_not_takesPackets h]

theorem carryOut_reject (port : Nat) (p : Packet) (mir : List Nat) (st : Status) (s : State) :
    carryOut port p mir (.reject st, s) = rejectOp port { p with ssw := false } st mir s := rfl

theorem carryOut_done (port : Nat) (p : Packet) (mir : List Nat) (s : State) :
    carryOut port p mir (.done, s) = mirrorOnly port mir (.data p) s := rfl

/-! ### What a header decides -/

section
variable {s : State} {port : Nat} {p : Packet}

theorem lookup_endpoint (h : isEp s port = true) : lookup port p s = leafData port { p with ssw := false } s := by
  rw [lookup, if_pos h]

theorem lookup_fabric (h : isEp s port = false) (hg : isGroupPkt p = false) :
    lookup port p s = routeData port none p s := by
  simp only [lookup, h, transitData, hg, Bool.false_eq_true, if_false]

theorem leafData_of_failed {st : Status} (h : leafCheck s port p = some st) : leafData port p s = (.reject st, s) := by
  rw [leafData, h]

theorem leafData_of_contribution (h : leafCheck s port p = none) (hop : p.op = .acc) :
    leafData port p s = (.done, takeContribution port (.data p) s) := by
  simp only [leafData, h, hop, if_true]

/-- The colour of an operation that has its entry, and the state after allocation and policing. -/
abbrev policed (s : State) (port : Nat) (p : Packet) : Nat × State := police port (allocate port p s).1 (allocate port p s).2

/-- Where an operation that has its entry and its colour is routed. -/
abbrev routedAtLeaf (s : State) (port : Nat) (p : Packet) : Fate × State :=
  routeData port (nmSource port p) (allocate port p s).1 (policed s port p).2

theorem leafData_of_red (h : leafCheck s port p = none) (hop : p.op ≠ .acc) (hred : (policed s port p).1 = 2) :
    leafData port p s
      = (.done, nackFor port (.data (allocate port p s).1)
          (giveCredits port p.queue.toNat (nLuOf (.data p)) (policed s port p).2)) := by
  simp only [leafData, h, hop, hred, if_true, if_false]
  rfl

theorem leafData_of_sent (h : leafCheck s port p = none) (hop : p.op ≠ .acc) (hcol : (policed s port p).1 ≠ 2)
    {x : Sending} {t : State} (hr : routedAtLeaf s port p = (.send x, t)) :
    leafData port p s = (.send { x with yellow := (policed s port p).1 == 1 }, t) := by
  simp only [leafData, h, hop, hcol, hr, if_false]

theorem leafData_of_taken (h : leafCheck s port p = none) (hop : p.op ≠ .acc) (hcol : (policed s port p).1 ≠ 2)
    {t : State} (hr : routedAtLeaf s port p = (.done, t)) : leafData port p s = (.done, t) := by
  simp only [leafData, h, hop, hcol, hr, if_false]

end

/-! ### The statement -/

/-- Settles O16: a row is an arrival, an arrival one of its three ways, and the third turns on the lookup. -/
theorem requestsAreRoutedOrRejected : Obligations.RequestsAreRoutedOrRejected := by
  unfold Obligations.RequestsAreRoutedOrRejected
  refine ⟨fun x hx s port p => ?arrives, fun s port p hep hop => ?leaf, fun s port p hep hg => lookup_fabric hep hg⟩
  case arrives => rw [exec_operationRow hx, arrive_data]
  case leaf =>
    rw [lookup_endpoint hep]
    exact ⟨fun st hfail => leafData_of_failed hfail,
      fun hpass => ⟨leafData_of_red hpass hop, fun hcol _ _ hr => leafData_of_sent hpass hop hcol hr,
        fun hcol _ hr => leafData_of_taken hpass hop hcol hr⟩⟩

end Sys2Proof.Machine
end

section
/-! SUPPORT. Contributions at their leaf: ACC and SACC go in transit to their tracker or end with a PCPL (R546, R551). -/

namespace Sys2Proof.Machine

section
variable {s : State} {port : Nat}

theorem takeContribution_ok {pk : Pkt} {e : Nat} {v : GrpVer} (h : contribCheck s (grpPkt pk) = .ok (e, v)) :
    takeContribution port pk s = toTransit port pk e v s := by
  simp only [takeContribution, h]

theorem takeContribution_error {pk : Pkt} {st : Status} (h : contribCheck s (grpPkt pk) = .error st) :
    takeContribution port pk s = rejectAcc port (some (port, qOf pk, nLuOf pk, [])) (grpPkt pk) st s := by
  simp only [takeContribution, h]

/-! ### ACC -/

theorem rejectOp_acc {p : Packet} (hop : p.op = .acc) (st : Status) (mir : List Nat) :
    rejectOp port p st mir s
      = mirrorOnly port mir (.data p) (rejectAcc port (some (port, p.queue.toNat, nLuOf (.data p), [])) (grpPkt (.data p)) st
          (if st = .unreach then s.bump F.RTE_UNREACH_CNT_count else s)) := by
  rw [rejectOp, if_pos hop]
  rfl

end

/-- An ACC below Q7 on an endpoint port that takes packets, neither restricted nor a service port, is carried out as its leaf
decides. -/
theorem exec_acc {s : State} {port : Fin 512} {p : Packet} (ht : TakesPackets s port.val) (hep : isEp s port.val = true)
    (hr : restricted s port.val = false) (hs : isSvc s port.val = false) (hq : p.queue ≠ 7) :
    exec (.acc port p) s
      = .next (kept s (settle (carryOut port.val { p with op := .acc }
          (mirSelect (disarmed port.val s) false port.val (.data { p with op := .acc }))
          (leafData port.val { p with op := .acc, ssw := false } (disarmed port.val s))))) := by
  have hrow : exec (.acc port p) s = .next (kept s (arrive port.val (.data { p with op := .acc }) s)) := rfl
  have hway : ¬ (restricted (disarmed port.val s) port.val = true ∨ isSvc (disarmed port.val s) port.val = true) := by
    simp [hr, hs]
  rw [hrow, arrive_data, if_pos ht, if_neg (fun h => hq h.1), if_neg hway, lookup_endpoint (by simpa using hep)]

/-! ### SACC -/

section
variable {s : State} {port : Nat} {c : Ctl}

/-- A control packet that does not fit is a link protocol error (R101, R102). -/
theorem receiveCtl_of_not_fits (h : ¬ FitsControl c) (crc : Crc) : receiveCtl port c crc s = protoError port s := by
  rw [receiveCtl, if_pos (by unfold FitsControl at h; omega)]

theorem receiveCtl_of_fits (h : FitsControl c) : receiveCtl port c .good s = controlGood port c s := by
  rw [receiveCtl, if_neg (by unfold FitsControl at h; omega), if_pos rfl]

/-- A SACC on an endpoint port that is neither restricted nor a service port is checked there. -/
theorem controlGood_sacc (hep : isEp s port = true) (hr : restricted s port = false) (hs : isSvc s port = false)
    (hc : c.ckind = 1#5) :
    controlGood port c s = mirrorOnly port (mirSelect s false port (.ctl c)) (.ctl c) (leafSacc port c s) := by
  simp [controlGood, hc, hr, hs, hep]

theorem leafSacc_of_noAccess (h : gateClosed s (grpPkt (.ctl c)).ctx = true ∨ ctxPortEn s (grpPkt (.ctl c)).ctx port = false) :
    leafSacc port c s = rejectAcc port (some (port, c.queue.toNat, 1, [])) (grpPkt (.ctl c)) .access s := by
  rcases h with h | h <;> simp [leafSacc, h]

theorem leafSacc_of_noGroup (hg : gateClosed s (grpPkt (.ctl c)).ctx = false)
    (hp : ctxPortEn s (grpPkt (.ctl c)).ctx port = true) (ha : isGroupAddr (grpPkt (.ctl c)).addr = false) :
    leafSacc port c s = rejectAcc port (some (port, c.queue.toNat, 1, [])) (grpPkt (.ctl c)) .unsup s := by
  simp [leafSacc, hg, hp, ha]

theorem leafSacc_of_passed (hg : gateClosed s (grpPkt (.ctl c)).ctx = false)
    (hp : ctxPortEn s (grpPkt (.ctl c)).ctx port = true) (ha : isGroupAddr (grpPkt (.ctl c)).addr = true) :
    leafSacc port c s = takeContribution port (.ctl c) s := by
  simp [leafSacc, hg, hp, ha]

end

/-- A SACC on an endpoint port that takes packets, neither restricted nor a service port: refused when it does not fit, else
checked. -/
theorem exec_sacc {s : State} {port : Fin 512} (c : Ctl) (ht : TakesPackets s port.val) (hep : isEp s port.val = true)
    (hr : restricted s port.val = false) (hs : isSvc s port.val = false) :
    exec (.sacc port c) s
      = .next (kept s (settle (if FitsControl c then
          mirrorOnly port.val (mirSelect (disarmed port.val s) false port.val (.ctl { c with ckind := 1 }))
            (.ctl { c with ckind := 1 }) (leafSacc port.val { c with ckind := 1 } (disarmed port.val s))
          else protoError port.val (disarmed port.val s)))) := by
  have hrow : exec (.sacc port c) s = .next (kept s (arrive port.val (.ctl { c with ckind := 1 }) s)) := rfl
  rw [hrow, arrive_of_takesPackets ht, receivePkt]
  by_cases hfit : FitsControl c
  · have hfit' : FitsControl { c with ckind := 1 } := hfit
    rw [if_pos hfit, receiveCtl_of_fits hfit', controlGood_sacc (by simpa) (by simpa) (by simpa) rfl]
  · have hfit' : ¬ FitsControl { c with ckind := 1 } := hfit
    rw [if_neg hfit, receiveCtl_of_not_fits hfit']

/-! ### The statement -/

/-- Settles O19: each command is reduced to the check of its leaf, and each outcome of the check has its lemma above. -/
theorem contributionGoesInTransit : Obligations.ContributionGoesInTransit := by
  unfold Obligations.ContributionGoesInTransit
  refine ⟨fun s port p ht hep hr hs hq => ?acc, fun s port c ht hep hr hs => ?sacc⟩
  case acc =>
    intro n d q l mir
    rw [exec_acc ht hep hr hs hq]
    refine ⟨fun st h => ?failed, fun h => ⟨fun e v hok => ?passed, fun st herr => ?rejected⟩⟩
    case failed => rw [leafData_of_failed h, carryOut_reject, rejectOp_acc rfl]
    case passed => rw [leafData_of_contribution h rfl, carryOut_done, takeContribution_ok hok]
    case rejected => rw [leafData_of_contribution h rfl, carryOut_done, takeContribution_error herr]; rfl
  case sacc =>
    intro n d k g mir bad
    rw [exec_sacc c ht hep hr hs]
    refine ⟨fun hno => by rw [if_neg hno], fun hfit => ?_⟩
    rw [if_pos hfit]
    refine ⟨fun h => by rw [leafSacc_of_noAccess h], fun hg hp =>
      ⟨fun ha => by rw [leafSacc_of_noGroup hg hp ha], fun ha => ?_⟩⟩
    rw [leafSacc_of_passed hg hp ha]
    exact ⟨fun e v hok => by rw [takeContribution_ok hok], fun st herr => by rw [takeContribution_error herr]; rfl⟩

end Sys2Proof.Machine
end

section
/-! SUPPORT. Expiries: of requests and their entries, of fan-out records, of directory lines and of copies that wait (R63, R65,
R68, R69, R81, R84, R548). Where a condition of the model is a Boolean, its lemma here states it as a proposition. -/

namespace Sys2Proof.Machine

/-! ### Fan-out records -/

theorem fanAdmit_of_full {s : State} (h : freeFan s = none) : fanAdmit s = s := by
  unfold fanAdmit
  rw [h]

theorem fanAdmit_of_noneWaiting {s : State} (h : s.fab.fanWait = []) : fanAdmit s = s := by
  unfold fanAdmit
  split
  · next hw => rw [h] at hw; cases hw
  · rfl

theorem fanAdmit_of_waiting {s : State} {r port : Nat} {p : Packet} {rest : List (Packet × Nat)} (h : freeFan s = some r)
    (hw : s.fab.fanWait = (p, port) :: rest) :
    fanAdmit s = fanTake r p (takeReq ⟨p, port⟩ { s with fab := { s.fab with fanWait := rest } }) := by
  unfold fanAdmit
  rw [h, hw]

/-! ### Requests and their entries -/

theorem ortTimeout_eq (i : Nat) (s : State) :
    ortTimeout i s = if (s.ortE i).busy = true ∧ (s.ortE i).deadline < s.now then
      endEntry i .timeout (s.bump (F.CTX_TIMEOUT_CNT_count (s.ortE i).ctx)) else s := by
  simp only [ortTimeout, Bool.and_eq_true, decide_eq_true_eq]

theorem quarantineDone_of_some {i t : Nat} {s : State} (h : (s.ortE i).quarUntil = some t) :
    quarantineDone i s = if t ≤ s.now then s.setOrt i { s.ortE i with quarUntil := none } else s := by
  simp only [quarantineDone, h]

theorem quarantineDone_of_none {i : Nat} {s : State} (h : (s.ortE i).quarUntil = none) : quarantineDone i s = s := by
  simp only [quarantineDone, h]

/-! ### Directory lines -/

theorem dirExpire_eq (n : Nat) (s : State) :
    dirExpire n s = if transient (s.dirE n) = true ∧ (s.dirE n).deadline < s.now then
      atHome (lineHome n) (.expire n) (expireLine n) s else s := by
  simp only [dirExpire, Bool.and_eq_true, decide_eq_true_eq]

theorem waitListHead_of_unmapped {n : Nat} {s : State} (h : physOf s (lineHome n) = none) :
    waitListHead n s = takeDueHead n s := by
  simp only [waitListHead, h]

theorem waitListHead_of_mapped {n p : Nat} {s : State} (h : physOf s (lineHome n) = some p) :
    waitListHead n s = if (s.dirE n).wait = [] then s
      else if shtP (wakeSht p s) p = 0 then takeDueHead n (wakeSht p s) else wakeSht p s := by
  simp only [waitListHead, h, List.isEmpty_iff]

/-- The head of a stable line is taken off the list and served. -/
theorem takeDueHead_of_stable {n : Nat} {s : State} {r : Req} {rest : List Req} (hw : (s.dirE n).wait = r :: rest)
    (ht : transient (s.dirE n) = false) :
    takeDueHead n s = serveStable n r (served n r (onDir n (fun d => { d with wait := rest }) s)) := by
  simp only [takeDueHead, hw, ht, Bool.false_eq_true, if_false]

/-- The state in which an expired line's COH_TIMEOUT is raised and counted. -/
def cohTimedOut (n : Nat) (s : State) : State :=
  (raiseCause Cause.cohTimeout (lineLoc s n) ((s.dirE n).pend.map fun r => r.p.ctx.toNat) 0 s).bump F.GLB_COH_TMO_CNT_count

theorem expireLine_of_sInv {n : Nat} {s : State} (h : (s.dirE n).st = .sInv) :
    expireLine n s = completeP n (cohTimedOut n s) := by
  simp [expireLine, transient, h, cohTimedOut]

theorem expireLine_of_mRcl {n : Nat} {s : State} {r : Req} (h : (s.dirE n).st = .mRcl) (hp : (s.dirE n).pend = some r) :
    expireLine n s = answer r .poison none
      (poisonLine n (onDir n (fun d => { noSharers d with st := .i, pend := none }) (cohTimedOut n s))) := by
  simp [expireLine, transient, h, hp, cohTimedOut]

/-! ### Copies that wait -/

/-- Two copies are one and the same: cells, queue and descriptor agree. -/
def sameCopy (c x : Copy) : Bool := x.head == c.head && x.queue == c.queue && x.desc == c.desc

theorem waitDiscard_of_some {port q i : Nat} {s : State} {c : Copy} (h : (waitingFor s (port * 8 + q))[i]? = some c) :
    waitDiscard port q i s = if waitedOut s c = true ∧ crossing s c = false then
      removeHeld (fun h => h.copy.any (sameCopy c)) (dropQueued (sameCopy c) (dropWaiting (sameCopy c)
        (nackFor port c.pkt (s.bump (F.PRT_FLUSH_CNT_count port))))) else s := by
  simp only [waitDiscard, h, Bool.and_eq_true, Bool.not_eq_true']
  rfl

theorem waitDiscard_of_none {port q i : Nat} {s : State} (h : (waitingFor s (port * 8 + q))[i]? = none) :
    waitDiscard port q i s = s := by
  simp only [waitDiscard, h]

/-! ### The commands -/

section
variable (s : State)

theorem exec_fanoutAdmit : exec .fanoutAdmit s = .next (kept s (settle (fanAdmit s))) := rfl
theorem exec_fanoutExpire (r : Fin 4096) : exec (.fanoutExpire r) s = .next (kept s (fanExpire r.val s)) := rfl
theorem exec_timeout (e : Fin 131072) : exec (.timeout e) s = .next (kept s (settle (ortTimeout e.val s))) := rfl
theorem exec_quarantineEnd (e : Fin 131072) : exec (.quarantineEnd e) s = .next (kept s (quarantineDone e.val s)) := rfl
theorem exec_staleExpire (e : Fin 131072) (g : BitVec 4) :
    exec (.staleExpire e g) s = .next (kept s (staleDone e.val g.toNat s)) := rfl
theorem exec_expire (n : Fin 65536) : exec (.expire n) s = .next (kept s (settle (dirExpire n.val s))) := rfl
theorem exec_waitListHead (n : Fin 65536) :
    exec (.waitListHead n) s = .next (kept s (settle (waitListHead n.val s))) := rfl
theorem exec_waitDiscard (port : Fin 512) (q : Fin 8) (i : Nat) :
    exec (.waitDiscard port q i) s = .next (kept s (settle (waitDiscard port.val q.val i s))) := rfl

end

/-! ### The statement -/

/-- Settles O20, one command after the other: each is its expiry, and each expiry's cases have their lemmas above. -/
theorem fabricExpiriesAct : Obligations.FabricExpiriesAct := by
  unfold Obligations.FabricExpiriesAct
  refine ⟨fun s => ?admission, exec_fanoutExpire, fun s e => ?entries, fun s n => ?lines, fun s port q i => ?copies⟩
  case admission =>
    rw [exec_fanoutAdmit]
    cases hf : freeFan s with
    | none => rw [fanAdmit_of_full hf]
    | some r =>
      cases hw : s.fab.fanWait with
      | nil => rw [fanAdmit_of_noneWaiting hw]
      | cons x rest => rw [fanAdmit_of_waiting hf hw]
  case entries =>
    intro x
    rw [exec_timeout, exec_quarantineEnd, ortTimeout_eq]
    exact ⟨rfl, fun t h => by rw [quarantineDone_of_some h], fun h => by rw [quarantineDone_of_none h], exec_staleExpire s e⟩
  case lines =>
    rw [exec_expire, exec_waitListHead, dirExpire_eq]
    refine ⟨rfl, ?head, fun r rest hw ht => takeDueHead_of_stable hw ht, fun u hu => ?expiry⟩
    case head =>
      cases h : physOf s (lineHome n.val) with
      | none => rw [waitListHead_of_unmapped h]
      | some p => rw [waitListHead_of_mapped h]
    case expiry =>
      have hu : u = cohTimedOut n.val s := hu
      rw [hu]
      exact ⟨expireLine_of_sInv, fun r h hp => expireLine_of_mRcl h hp⟩
  case copies =>
    rw [exec_waitDiscard]
    cases h : (waitingFor s (port.val * 8 + q.val))[i]? with
    | none => rw [waitDiscard_of_none h]
    | some c => rw [waitDiscard_of_some h]; rfl

end Sys2Proof.Machine
end

section
/-! SUPPORT. Packets and link-control units on the wire (R89, R92, R93, R101, R104 to R107): what each header word gives back,
where the words, the payload and the CRC of an encoded packet lie. -/

namespace Sys2Proof.Machine

/-! ### Fields of a concatenation

The library's lemmas on the two halves of an appended bit vector, with the widths left out of the index: in a header word the
widths of the parts are numerals, and their sum appears as 32. -/

section
variable {m n lo k : Nat} {x : BitVec m} {y : BitVec n}

@[simp] theorem extractLsb'_append_high (h : n ≤ lo) :
    BitVec.extractLsb' (n := no_index (m + n)) lo k (HAppend.hAppend (γ := no_index (BitVec (m + n))) x y)
      = x.extractLsb' (lo - n) k :=
  BitVec.extractLsb'_append_eq_of_le h

@[simp] theorem extractLsb'_append_low (h : lo + k ≤ n) :
    BitVec.extractLsb' (n := no_index (m + n)) lo k (HAppend.hAppend (γ := no_index (BitVec (m + n))) x y)
      = y.extractLsb' lo k :=
  BitVec.extractLsb'_append_eq_of_add_le h

@[simp] theorem getElem_append_high (h : n ≤ lo) (hlo : lo < m + n) :
    GetElem.getElem (coll := no_index (BitVec (m + n))) (HAppend.hAppend (γ := no_index (BitVec (m + n))) x y) lo hlo
      = x[lo - n]'(Nat.sub_lt_right_of_lt_add h hlo) := by
  rw [BitVec.getElem_append, dif_neg (Nat.not_lt.mpr h)]

@[simp] theorem getElem_append_low (h : lo < n) :
    GetElem.getElem (coll := no_index (BitVec (m + n))) (HAppend.hAppend (γ := no_index (BitVec (m + n))) x y) lo
      (Nat.lt_add_left m h) = y[lo] := by
  rw [BitVec.getElem_append, dif_pos h]

end

@[simp] theorem getElem_bit1 (b : Bool) : (bit1 b)[0] = b := by cases b <;> rfl

/-! ### Words in a list of bytes -/

@[simp] theorem length_wordBytes (w : Word) : (wordBytes w).length = 4 := rfl

theorem length_flatMap_wordBytes (ws : List Word) : (ws.flatMap wordBytes).length = 4 * ws.length := by
  simp [List.length_flatMap, Nat.mul_comm]

@[simp] theorem length_padTo (n : Nat) (l : List Byte) : (padTo n l).length = n := by
  simp only [padTo, List.length_append, List.length_take, List.length_replicate]
  omega

theorem padTo_of_length_le {n : Nat} {l : List Byte} (h : l.length ≤ n) : padTo n l = l ++ List.replicate (n - l.length) 0 := by
  rw [padTo, List.take_of_length_le h]

/-- The word at an offset depends on its four bytes alone. -/
theorem wordAt_congr {l l' : List Byte} {a a' : Nat} (h : ∀ i < 4, l.getD (a + i) 0 = l'.getD (a' + i) 0) :
    wordAt l a = wordAt l' a' := by
  simp only [wordAt, h 3 (by decide), h 2 (by decide), h 1 (by decide), show l.getD a 0 = l'.getD a' 0 from h 0 (by decide)]

theorem wordAt_append_left {l : List Byte} (r : List Byte) {a : Nat} (h : a + 4 ≤ l.length) : wordAt (l ++ r) a = wordAt l a :=
  wordAt_congr fun i hi => List.getD_append _ _ _ _ (by omega)

theorem wordAt_append_right {l : List Byte} (r : List Byte) {a : Nat} (h : l.length ≤ a) :
    wordAt (l ++ r) a = wordAt r (a - l.length) :=
  wordAt_congr fun i _ => by rw [List.getD_append_right _ _ _ _ (by omega), Nat.sub_add_comm h]

theorem wordAt_take {l : List Byte} {n a : Nat} (h : a + 4 ≤ n) : wordAt (l.take n) a = wordAt l a :=
  wordAt_congr fun i _ => by simp only [List.getD_eq_getElem?_getD, List.getElem?_take_of_lt (show a + i < n by omega)]

@[simp] theorem wordAt_wordBytes_append (w : Word) (r : List Byte) : wordAt (wordBytes w ++ r) 0 = w := by
  show w.extractLsb' 24 8 ++ w.extractLsb' 16 8 ++ w.extractLsb' 8 8 ++ w.extractLsb' 0 8 = w
  rw [BitVec.extractLsb'_append_extractLsb'_eq_extractLsb' (show 24 = 16 + 8 from rfl),
    BitVec.extractLsb'_append_extractLsb'_eq_extractLsb' (show 16 = 8 + 8 from rfl),
    BitVec.extractLsb'_append_extractLsb'_eq_extractLsb' (show 8 = 0 + 8 from rfl)]
  exact BitVec.extractLsb'_eq_self

/-- A word that follows other bytes is found at their length. -/
theorem wordAt_append_wordBytes {l : List Byte} {a : Nat} (ha : a = l.length) (w : Word) (r : List Byte) :
    wordAt (l ++ (wordBytes w ++ r)) a = w := by
  rw [wordAt_append_right _ (Nat.le_of_eq ha.symm), ha, Nat.sub_self, wordAt_wordBytes_append]

theorem padTo_append {n : Nat} {l : List Byte} (r : List Byte) (h : l.length ≤ n) :
    padTo n (l ++ r) = l ++ padTo (n - l.length) r := by
  simp only [padTo, List.take_append, List.take_of_length_le h, List.length_append, List.append_assoc, Nat.sub_sub]

/-- The words stand in the bytes one after the other from offset `a` on. -/
def WordsAt : List Word → Nat → List Byte → Prop
  | [], _, _ => True
  | w :: ws, a, l => wordAt l a = w ∧ WordsAt ws (a + 4) l

theorem WordsAt.congr {ws : List Word} {a : Nat} {l l' : List Byte} (h : WordsAt ws a l)
    (hl : ∀ b, b + 4 ≤ a + 4 * ws.length → wordAt l' b = wordAt l b) : WordsAt ws a l' := by
  induction ws generalizing a with
  | nil => trivial
  | cons w ws ih =>
    rw [List.length_cons] at hl
    exact ⟨(hl a (by omega)).trans h.1, ih h.2 fun b hb => hl b (by omega)⟩

theorem wordsAt_flatMap_wordBytes (ws : List Word) (pre post : List Byte) :
    WordsAt ws pre.length (pre ++ (ws.flatMap wordBytes ++ post)) := by
  induction ws generalizing pre with
  | nil => trivial
  | cons w ws ih =>
    rw [List.flatMap_cons, List.append_assoc]
    refine ⟨wordAt_append_wordBytes rfl _ _, ?_⟩
    have := ih (pre ++ wordBytes w)
    rwa [List.length_append, length_wordBytes, List.append_assoc] at this

/-! ### Data packets -/

/-- The bytes begin with the header of the packet. -/
def HasHeader (p : Packet) (l : List Byte) : Prop := WordsAt (headerWords p) 0 l

/-- The header kind of a data packet (Table 03-2). -/
def hdrKind : HdrForm → BitVec 2
  | .compact => 1#2
  | .direct => 2#2

theorem hdrKind_ne_zero (f : HdrForm) : hdrKind f ≠ 0#2 := by cases f <;> decide
theorem hdrKind_ne_three (f : HdrForm) : hdrKind f ≠ 3#2 := by cases f <;> decide

theorem length_headerWords (p : Packet) : 4 * (headerWords p).length = hdrSize p.form := by
  unfold headerWords
  cases p.form with
  | compact => dsimp only; split <;> rfl
  | direct => rfl

theorem HasHeader.word0 {p : Packet} {l : List Byte} (h : HasHeader p l) : wordAt l 0 = dataWord0 (hdrKind p.form) p := by
  unfold HasHeader headerWords at h
  cases hf : p.form with
  | compact =>
    rw [hf] at h
    dsimp only at h
    split at h <;> exact h.1
  | direct =>
    rw [hf] at h
    exact h.1

theorem HasHeader.kind {p : Packet} {l : List Byte} (h : HasHeader p l) : (wordAt l 0).extractLsb' 30 2 = hdrKind p.form := by
  rw [h.word0]
  simp [dataWord0]

theorem HasHeader.take {p : Packet} {l : List Byte} (h : HasHeader p l) {n : Nat} (hn : hdrSize p.form ≤ n) :
    HasHeader p (l.take n) :=
  WordsAt.congr h fun _ hb => wordAt_take (by have := length_headerWords p; omega)

theorem HasHeader.append {p : Packet} {l : List Byte} (h : HasHeader p l) (hl : hdrSize p.form ≤ l.length) (r : List Byte) :
    HasHeader p (l ++ r) :=
  WordsAt.congr h fun _ hb => wordAt_append_left r (by have := length_headerWords p; omega)

theorem length_payload_of_wf {p : Packet} (h : p.wf = true) : p.payload.length = payloadSize p.op p.dat (pktLen p) := by
  simp only [Packet.wf, Bool.and_eq_true, beq_iff_eq] at h
  obtain ⟨⟨-, hlen⟩, -⟩ := h
  exact hlen

/-- A group address is the fields that a compact ACC spells (Table 03-5). -/
theorem groupAddress_of_fields {a : BitVec 64} {ctx : BitVec 12} (h : a.extractLsb' 51 13 = 1#1 ++ ctx) :
    1#1 ++ ctx ++ a.extractLsb' 37 14 ++ a.extractLsb' 32 5 ++ a.extractLsb' 0 32 = a := by
  rw [← h, BitVec.extractLsb'_append_extractLsb'_eq_extractLsb' (show 51 = 37 + 14 from rfl),
    BitVec.extractLsb'_append_extractLsb'_eq_extractLsb' (show 37 = 32 + 5 from rfl),
    BitVec.extractLsb'_append_extractLsb'_eq_extractLsb' (show 32 = 0 + 32 from rfl)]
  exact BitVec.extractLsb'_eq_self

theorem decodeData_compactAcc {p : Packet} {l : List Byte} (hp : p.wf = true) (hf : p.form = .compact) (ho : p.op = .acc)
    (h : HasHeader p l) : decodeData l = some { p with payload := (l.drop 16).take p.payload.length } := by
  simp only [HasHeader, headerWords, hf, ho, if_true, WordsAt, Nat.reduceAdd] at h
  simp only [Packet.wf, hf, ho, Packet.accFields, Packet.compactOnly, Bool.and_eq_true, beq_iff_eq, Bool.not_eq_true',
    beq_self_eq_true, if_true] at hp
  obtain ⟨⟨hcodes, hlen⟩, hzero, haddr⟩ := hp
  simp [decodeData, dataWord0, payloadSize, pktLen, h, hf, ho, hcodes, hlen, hzero, groupAddress_of_fields haddr]

theorem decodeData_compact {p : Packet} {l : List Byte} (hp : p.wf = true) (hf : p.form = .compact) (ho : p.op ≠ .acc)
    (h : HasHeader p l) : decodeData l = some { p with payload := (l.drop 16).take p.payload.length } := by
  simp only [HasHeader, headerWords, hf, ho, if_false, WordsAt, Nat.reduceAdd] at h
  simp only [Packet.wf, hf, ho, Packet.compactFields, Packet.compactOnly, Bool.and_eq_true, beq_iff_eq, Bool.not_eq_true',
    if_false] at hp
  obtain ⟨⟨hcodes, hlen⟩, hzero, hcpl⟩ := hp
  by_cases hc : p.op = .cpl
  · simp only [hc, if_true, beq_iff_eq] at h hcodes hlen hcpl
    simp [decodeData, dataWord0, pktLen, h, hf, hc, hcodes, hlen, hzero, hcpl]
  · simp only [hc, if_false, Bool.not_eq_true'] at h hcpl
    simp [decodeData, dataWord0, pktLen, h, hf, ho, hc, hcodes, hlen, hzero, hcpl]

theorem decodeData_direct {p : Packet} {l : List Byte} (hp : p.wf = true) (hf : p.form = .direct)
    (h : HasHeader p l) : decodeData l = some { p with payload := (l.drop 32).take p.payload.length } := by
  simp only [HasHeader, headerWords, hf, WordsAt, Nat.reduceAdd] at h
  simp only [Packet.wf, hf, Packet.directFields, Bool.and_eq_true, beq_iff_eq, Bool.not_eq_true'] at hp
  obtain ⟨⟨hcodes, hlen⟩, hzero⟩ := hp
  have haddr : p.address.extractLsb' 32 32 ++ p.address.extractLsb' 0 32 = p.address := by
    rw [BitVec.extractLsb'_append_extractLsb'_eq_extractLsb' (show 32 = 0 + 32 from rfl)]
    exact BitVec.extractLsb'_eq_self
  simp [decodeData, dataWord0, pktLen, h, hf, hcodes, hlen, hzero, haddr]

/-- The header of a well-formed packet decodes to its fields, and the payload is what follows. -/
theorem decodeData_of_hasHeader {p : Packet} {l : List Byte} (hp : p.wf = true) (h : HasHeader p l) :
    decodeData l = some { p with payload := (l.drop (hdrSize p.form)).take p.payload.length } := by
  cases hf : p.form with
  | compact =>
    rw [← hf]
    by_cases ho : p.op = .acc
    · rw [decodeData_compactAcc hp hf ho h, hf]; rfl
    · rw [decodeData_compact hp hf ho h, hf]; rfl
  | direct => rw [decodeData_direct hp hf h, hf]; rfl

/-- A packet's link units hold its header, its payload and its CRC (R92). -/
theorem add_le_luOf (h n : Nat) : h + n + 4 ≤ 64 * luOf h n := by
  simp only [luOf, ceilDiv, show max 64 1 = 64 from rfl]
  omega

theorem length_dataBody (p : Packet) : (dataBody p).length + 4 = 64 * nLuOf (.data p) := by
  have := add_le_luOf (hdrSize p.form) (payloadSize p.op p.dat (pktLen p))
  simp only [dataBody, length_padTo, nLuOf]
  omega

theorem hdrSize_le_length_dataBody (p : Packet) : hdrSize p.form ≤ (dataBody p).length := by
  have := add_le_luOf (hdrSize p.form) (payloadSize p.op p.dat (pktLen p))
  have := length_dataBody p
  simp only [nLuOf] at this
  omega

/-- The body of a data packet is its header and what follows, padded. -/
theorem dataBody_eq (p : Packet) :
    dataBody p = (headerWords p).flatMap wordBytes ++ padTo ((dataBody p).length - hdrSize p.form) p.payload := by
  have hl : ((headerWords p).flatMap wordBytes).length = hdrSize p.form := by
    rw [length_flatMap_wordBytes, length_headerWords]
  have hn : (dataBody p).length = 64 * nLuOf (.data p) - 4 := length_padTo _ _
  have := hdrSize_le_length_dataBody p
  rw [hn, dataBody, padTo_append _ (by omega), hl]

theorem hasHeader_dataBody (p : Packet) : HasHeader p (dataBody p) := by
  rw [dataBody_eq]
  exact wordsAt_flatMap_wordBytes _ [] _

theorem hasHeader_dataBody_append (p : Packet) (r : List Byte) : HasHeader p (dataBody p ++ r) :=
  (hasHeader_dataBody p).append (hdrSize_le_length_dataBody p) r

/-- The payload of a well-formed packet follows its header. -/
theorem payload_of_dataBody {p : Packet} (hp : p.wf = true) (r : List Byte) :
    ((dataBody p ++ r).drop (hdrSize p.form)).take p.payload.length = p.payload := by
  have hlen := length_payload_of_wf hp
  have hfit := add_le_luOf (hdrSize p.form) p.payload.length
  have hbody := length_dataBody p
  rw [nLuOf, ← hlen] at hbody
  have hl : ((headerWords p).flatMap wordBytes).length = hdrSize p.form := by
    rw [length_flatMap_wordBytes, length_headerWords]
  rw [dataBody_eq, padTo_of_length_le (by omega), List.append_assoc, List.append_assoc, List.drop_left' hl, List.take_left]

/-! ### Control packets -/

theorem ctlWord0_kind (c : Ctl) : (ctlWord0 c).extractLsb' 30 2 = 0#2 := by simp [ctlWord0]

/-- The four words of a control packet and its body: CRC word `w`. -/
theorem wordsAt_ctl (c : Ctl) (w : Word) (r : List Byte) :
    WordsAt [ctlWord0 c, c.w1, c.w2, w] 0 (wordBytes (ctlWord0 c) ++ wordBytes c.w1 ++ wordBytes c.w2 ++ wordBytes w ++ r) :=
  wordsAt_flatMap_wordBytes [ctlWord0 c, c.w1, c.w2, w] [] r

theorem decodeCtl_encodeCtl {c : Ctl} (hc : c.body.length = 48) : decodeCtl (encodeCtl c) = c := by
  obtain ⟨h0, h1, h2, -⟩ := wordsAt_ctl c (crc32c (ctlCovered c)) (padTo 48 c.body)
  rw [← encodeCtl] at h0 h1 h2
  have hbody : (encodeCtl c).drop 16 = padTo 48 c.body := rfl
  have hpad : padTo 48 c.body = c.body := by rw [padTo_of_length_le (Nat.le_of_eq hc), hc]; exact List.append_nil _
  rw [decodeCtl, hbody, hpad, List.take_of_length_le (Nat.le_of_eq hc), h0, h1, h2]
  simp [ctlWord0]

/-! ### The CRC of a packet -/

/-- The CRC of a data packet is its last word and covers what stands before it (R104). -/
theorem crcCheck_dataBody (p : Packet) (w : Word) :
    crcCheck (dataBody p ++ wordBytes w)
      = if w = crc32c (dataBody p) then .good else if w = crc32c (dataBody p) ^^^ 0xFFFFFFFF#32 then .stomped else .bad := by
  have hk : (wordAt (dataBody p ++ wordBytes w) 0).extractLsb' 30 2 ≠ 0#2 :=
    (hasHeader_dataBody_append p _).kind ▸ hdrKind_ne_zero p.form
  have hlen : (dataBody p ++ wordBytes w).length - 4 = (dataBody p).length := by
    rw [List.length_append, length_wordBytes, Nat.add_sub_cancel]
  have hw : wordAt (dataBody p ++ wordBytes w) (dataBody p).length = w := by
    simpa using wordAt_append_wordBytes (l := dataBody p) rfl w []
  simp only [crcCheck, if_neg hk, hlen, hw, List.take_left]

/-- The CRC of a control packet is its fourth word and covers the others and the body (R101). -/
theorem crcCheck_ctl (c : Ctl) (w : Word) (body : List Byte) :
    let crc := crc32c (wordBytes (ctlWord0 c) ++ wordBytes c.w1 ++ wordBytes c.w2 ++ body)
    crcCheck (wordBytes (ctlWord0 c) ++ wordBytes c.w1 ++ wordBytes c.w2 ++ wordBytes w ++ body)
      = if w = crc then .good else if w = crc ^^^ 0xFFFFFFFF#32 then .stomped else .bad := by
  obtain ⟨h0, -, -, h3, -⟩ := wordsAt_ctl c w body
  simp only [crcCheck, h0, h3, if_pos (ctlWord0_kind c)]
  rfl

/-! ### Link-control units -/

/-- The words of a link-control unit before its zeros (Table 03-10). -/
def lcuWords (u : Lcu) : List Word :=
  let lim (i : Nat) : BitVec 16 := u.lims.getD i 0
  [u.txSeq ++ u.ackSeq,
   u.nakSeq ++ 0#8 ++ bit1 u.init ++ bit1 u.pseen ++ bit1 u.ucnt ++ bit1 u.rpl ++ bit1 u.nakVld ++ bit1 u.ackVld ++ 0#2,
   lim 1 ++ lim 0, lim 3 ++ lim 2, lim 5 ++ lim 4, lim 7 ++ lim 6]

theorem lcuCovered_eq (u : Lcu) : lcuCovered u = (lcuWords u).flatMap wordBytes ++ List.replicate 36 0 := rfl

theorem length_lcuCovered (u : Lcu) : (lcuCovered u).length = 60 := rfl

theorem wordAt_lcuCovered_crc (u : Lcu) (w : Word) : wordAt (lcuCovered u ++ wordBytes w) 60 = w := by
  simpa using wordAt_append_wordBytes (length_lcuCovered u).symm w []

theorem take_lcuCovered (u : Lcu) (r : List Byte) : (lcuCovered u ++ r).take 60 = lcuCovered u :=
  List.take_left' (length_lcuCovered u)

theorem decodeLcu_of_ne {u : Lcu} {w : Word} (h : w ≠ crc32c (lcuCovered u)) :
    decodeLcu (lcuCovered u ++ wordBytes w) = none := by
  rw [decodeLcu, wordAt_lcuCovered_crc, take_lcuCovered, if_neg h]

/-- A list of eight is its entries. -/
theorem getD_zero_to_seven {α : Type} (d : α) {l : List α} (h : l.length = 8) :
    [l.getD 0 d, l.getD 1 d, l.getD 2 d, l.getD 3 d, l.getD 4 d, l.getD 5 d, l.getD 6 d, l.getD 7 d] = l :=
  match l, h with
  | [_, _, _, _, _, _, _, _], _ => rfl

theorem decodeLcu_encodeLcu {u : Lcu} (h : u.lims.length = 8) : decodeLcu (encodeLcu u) = some u := by
  have hw : WordsAt (lcuWords u) 0 (encodeLcu u) := by
    rw [encodeLcu, lcuCovered_eq, List.append_assoc]
    exact wordsAt_flatMap_wordBytes _ [] _
  obtain ⟨h0, h1, h2, h3, h4, h5, -⟩ := hw
  have hcrc : wordAt (encodeLcu u) 60 = crc32c ((encodeLcu u).take 60) := by
    rw [encodeLcu, wordAt_lcuCovered_crc, take_lcuCovered]
  rw [decodeLcu, if_pos hcrc]
  simp only [Nat.reduceAdd] at h1 h2 h3 h4 h5
  simp [h0, h1, h2, h3, h4, h5, -List.getD_eq_getElem?_getD, getD_zero_to_seven _ h]

/-! ### The statements -/

/-- Settles O56: the header words and the payload stand where the decoder looks for them. -/
theorem wireRoundTrip : Obligations.WireRoundTrip := by
  unfold Obligations.WireRoundTrip
  intro pk hpk
  cases pk with
  | data p =>
    have hh : HasHeader p (encodeData p) := hasHeader_dataBody_append p _
    have hlen : (encodeData p).length = 64 * nLuOf (.data p) := by
      rw [encodeData, List.length_append, length_wordBytes, length_dataBody]
    have hfirst : HasHeader p ((encodeData p).take 64) := hh.take (by cases p.form <;> decide)
    refine ⟨?_, hlen, ?_⟩
    · rw [decodePkt, encodePkt, if_neg (hh.kind ▸ hdrKind_ne_zero p.form), decodeData_of_hasHeader hpk hh, encodeData,
        payload_of_dataBody hpk]
      rfl
    · rw [luNeed, encodePkt, if_neg (hfirst.kind ▸ hdrKind_ne_zero p.form), if_neg (hfirst.kind ▸ hdrKind_ne_three p.form),
        decodeData_of_hasHeader hpk hfirst]
      rfl
  | ctl c =>
    have hc : c.body.length = 48 := by simpa only [Pkt.wf, Ctl.wf, beq_iff_eq] using hpk
    obtain ⟨h0, -⟩ := wordsAt_ctl c (crc32c (ctlCovered c)) (padTo 48 c.body)
    rw [← encodeCtl] at h0
    have hlen : (encodeCtl c).length = 64 := by
      rw [encodeCtl, List.length_append, length_padTo]
      rfl
    have hk : (wordAt (encodeCtl c) 0).extractLsb' 30 2 = 0#2 := h0 ▸ ctlWord0_kind c
    refine ⟨?_, hlen, ?_⟩
    · rw [decodePkt, encodePkt, if_pos hk, decodeCtl_encodeCtl hc]
    · rw [luNeed, encodePkt, List.take_of_length_le (Nat.le_of_eq hlen), if_pos hk]
      rfl

/-- Settles O57: the CRC is the last word, over the 60 bytes before it. -/
theorem lcuRoundTrip : Obligations.LcuRoundTrip := by
  unfold Obligations.LcuRoundTrip
  intro u hu
  exact ⟨decodeLcu_encodeLcu (by simpa only [Lcu.wf, beq_iff_eq] using hu), rfl, fun _ hw => decodeLcu_of_ne hw⟩

/-- Settles O58: the CRC word and what it covers, found by the header kind. -/
theorem crcTellsGoodStompedBad : Obligations.CrcTellsGoodStompedBad := by
  unfold Obligations.CrcTellsGoodStompedBad
  exact ⟨crcCheck_dataBody, fun c w => crcCheck_ctl c w c.body⟩

end Sys2Proof.Machine
end

section
/-! SUPPORT. The link layer of a port: entry into INIT, the rows of Table 03-11, retry, and the groups that arrive (R108, R110,
R118 to R124). -/

namespace Sys2Proof.Machine

/-! ### What sending leaves alone -/

theorem prtLlStatus_ne_prtEiCfg (p : Nat) : R.PRT_LL_STATUS p ≠ R.PRT_EI_CFG p := by
  unfold R.PRT_LL_STATUS R.PRT_EI_CFG; omega

/-- Training frames are outputs alone. -/
theorem sendSync_keeps {β : Type} (g : State → β) (hg : ∀ (s : State) o, g (s.emit o) = g s) (n join : Nat) :
    ∀ (k : Nat) (s : State), g (sendSync n join k s) = g s
  | 0, s => hg s _
  | k + 1, s => (sendSync_keeps g hg n join k _).trans (hg s _)

/-- The exit from electrical idle touches PRT_EI_CFG, the lanes' record of the port and the outputs. -/
theorem eiExit_keeps {β : Type} (g : State → β) (p : Nat)
    (hflag : ∀ (s : State) b, g (s.setFlag (F.PRT_EI_CFG_tx_ei p) b) = g s)
    (hpln : ∀ (s : State) f, g (s.onPln p f) = g s) (hout : ∀ (s : State) o, g (s.emit o) = g s) (s : State) :
    g (eiExit p s) = g s := by
  unfold eiExit
  split
  · rw [forEach_keeps g _ _ (fun n u => by rw [sendSync_keeps g hout, sendFrame, hout, sendFrame, hout, hout]), hpln, hflag]
  · rfl

@[simp] theorem eiExit_lnk (p j : Nat) (s : State) : (eiExit p s).lnk j = s.lnk j :=
  eiExit_keeps (State.lnk · j) p (fun _ _ => rfl) (fun _ _ => rfl) (fun _ _ => rfl) s

@[simp] theorem eiExit_mem (p : Nat) (s : State) : (eiExit p s).mem = s.mem :=
  eiExit_keeps State.mem p (fun _ _ => rfl) (fun _ _ => rfl) (fun _ _ => rfl) s

@[simp] theorem eiExit_llState (p : Nat) (s : State) : llState (eiExit p s) p = llState s p :=
  eiExit_keeps (llState · p) p (fun s b => State.fld_setFlag_ne s _ _ b (.inl (prtLlStatus_ne_prtEiCfg p)))
    (fun _ _ => rfl) (fun _ _ => rfl) s

/-- A group dealt to its lane takes a slot of the port. -/
theorem dealGroup_lnk (p j : Nat) (units : List LinkUnit) (s : State) :
    (dealGroup p units s).lnk j = if j = p then { s.lnk p with slot := (s.lnk p).slot + 1 } else s.lnk j := by
  unfold dealGroup
  cases slotLane s p with
  | none => exact State.onLnk_lnk s p _ j
  | some n => exact State.onLnk_lnk _ p _ j

@[simp] theorem dealGroup_mem (p : Nat) (units : List LinkUnit) (s : State) : (dealGroup p units s).mem = s.mem := by
  unfold dealGroup
  cases slotLane s p <;> rfl

@[simp] theorem dealGroup_fld (p : Nat) (units : List LinkUnit) (s : State) (f : FieldRef) :
    (dealGroup p units s).fld f = s.fld f := by
  unfold dealGroup
  cases slotLane s p <;> rfl

/-- What a link-control unit sent changes of the port's link: the slot count, and what R118 measures. -/
theorem sendLcu_lnk (p j : Nat) (u : Lcu) (s : State) :
    (sendLcu p u s).lnk j
      = if j = p then { s.lnk p with sinceLcu := 0, advLim := (s.lnk p).myLim, slot := (s.lnk p).slot + 1 } else s.lnk j := by
  have he : ∀ k, ((eiExit p s).emit (.lcu p u)).lnk k = s.lnk k := fun k => eiExit_lnk p k s
  rw [sendLcu, dealGroup_lnk]
  simp only [State.onLnk_lnk, he, if_true]
  split <;> rfl

@[simp] theorem sendLcu_mem (p : Nat) (u : Lcu) (s : State) : (sendLcu p u s).mem = s.mem :=
  (dealGroup_mem p _ _).trans (eiExit_mem p s)

@[simp] theorem sendLcu_llState (p : Nat) (u : Lcu) (s : State) : llState (sendLcu p u s) p = llState s p :=
  (dealGroup_fld p _ _ _).trans (eiExit_llState p s)

/-! ### Entry into INIT -/

@[simp] theorem showLink_lnk (p j : Nat) (s : State) : (showLink p s).lnk j = s.lnk j := rfl
@[simp] theorem showLink_mem (p : Nat) (s : State) : (showLink p s).mem = s.mem := rfl
@[simp] theorem setLl_mem (p n : Nat) (s : State) : (setLl p n s).mem = s.mem := rfl
@[simp] theorem setLl_lnk (p n j : Nat) (s : State) : (setLl p n s).lnk j = s.lnk j := rfl

/-- The fields of PRT_LL_STATUS lie apart: the state shows through the others. -/
@[simp] theorem showLink_llState (p : Nat) (s : State) : llState (showLink p s) p = llState s p :=
  (State.fld_setFlag_ne _ _ _ _ (.inr (.inl (show 12 + 1 ≤ 16 by decide)))).trans
    (State.fld_setFld_ne _ _ _ _ (.inr (.inl (show 0 + 12 ≤ 16 by decide))))

theorem setLl_llState (p : Nat) {n : Nat} (h : n < 4) (s : State) : llState (setLl p n s) p = n := by
  unfold llState setLl
  rw [State.fld_setFld_same s _ n (show 16 + 2 ≤ 32 by decide)]
  exact Nat.mod_eq_of_lt h

/-- The link record at the entry into INIT (Table 03-11). -/
def initLink (s : State) (p : Nat) (pseen : Bool) : LinkSt :=
  { initAt := s.now, pseen := pseen, myLim := allotments s p, withhold := (s.lnk p).withhold }

/-- After the entry into INIT the port's link is a fresh one that has sent its link-control unit. -/
theorem enterInit_lnk (p j : Nat) (b : Bool) (s : State) :
    (enterInit p b s).lnk j = if j = p then { initLink s p b with advLim := allotments s p, slot := 1 } else s.lnk j := by
  unfold enterInit
  simp only [sendLcu_lnk, showLink_lnk, setLl_lnk, State.onLnk_lnk, if_true]
  split <;> rfl

theorem enterInit_llState (p : Nat) (b : Bool) (s : State) : llState (enterInit p b s) p = 1 := by
  unfold enterInit
  rw [sendLcu_llState, showLink_llState, setLl_llState p (by decide)]

theorem enterInit_mem (p : Nat) (b : Bool) (s : State) : (enterInit p b s).mem = s.mem := by
  unfold enterInit
  rw [sendLcu_mem, showLink_mem, setLl_mem]
  rfl

/-- Settles O23: the link record of INIT is a fresh one but for its limits. -/
theorem linkInitStartsFresh : Obligations.LinkInitStartsFresh := by
  unfold Obligations.LinkInitStartsFresh
  intro s p b _
  have hp : (enterInit p b s).lnk p = { initLink s p b with advLim := allotments s p, slot := 1 } := by
    rw [enterInit_lnk, if_pos rfl]
  refine ⟨enterInit_llState p b s, ?_, ?_, ?_, ?_, ?_, ?_, fun j hj => by rw [enterInit_lnk, if_neg hj], enterInit_mem p b s⟩
  all_goals rw [hp]; rfl

/-! ### The rows of Table 03-11 -/

section
variable {s : State} {p : Nat}

theorem lock_eq (p : Nat) (s : State) :
    lock p s = if portOn s p = true ∧ llState s p = 0 ∧ allLocked s p = true then enterInit p false s else s := by
  unfold lock
  simp only [Bool.and_eq_true, beq_iff_eq, and_assoc]

/-- The first bad group for the expected number sends a NAK and discards until a replay (R119). -/
theorem badGroup_of_new (hs : llState s p = 2)
    (h : ((s.bump (F.PRT_BAD_CW_CNT_count p)).lnk p).nak ≠ some ((s.bump (F.PRT_BAD_CW_CNT_count p)).lnk p).rxExp) :
    let k := (s.bump (F.PRT_BAD_CW_CNT_count p)).onLnk p fun l => { l with nak := some l.rxExp, mode := .waitReplay }
    badGroup p s = sendLcu p (lcuNow k p) k := by
  intro k
  rw [badGroup, if_pos hs]
  exact if_neg h

/-- A bad group with its NAK outstanding is counted alone. -/
theorem badGroup_of_outstanding (hs : llState s p = 2)
    (h : ((s.bump (F.PRT_BAD_CW_CNT_count p)).lnk p).nak = some ((s.bump (F.PRT_BAD_CW_CNT_count p)).lnk p).rxExp) :
    badGroup p s = s.bump (F.PRT_BAD_CW_CNT_count p) := by
  rw [badGroup, if_pos hs]
  exact if_pos h

theorem badGroup_of_not_up (hs : llState s p ≠ 2) : badGroup p s = s := by rw [badGroup, if_neg hs]

theorem rtmo_of_held {old : Nat} {g : List LinkUnit} {rest : List (Nat × List LinkUnit)}
    (h : (s.lnk p).replay = (old, g) :: rest) :
    rtmo p s
      = if llState s p = 2 ∧ (s.lnk p).ackAt + max 1 (s.fld (F.PRT_LL_CFG_rtmo p)) * 64 ≤ s.now then replayFrom p old s
        else s := by
  simp only [rtmo, h]

theorem rtmo_of_none (h : (s.lnk p).replay = []) : rtmo p s = s := by simp only [rtmo, h]

/-- Limits adopted are the link's and the schedulers' business: the link state stays. -/
@[simp] theorem adoptLimits_llState (p : Nat) (u : Lcu) (s : State) : llState (adoptLimits p u s) p = llState s p := by
  unfold adoptLimits
  rw [forEach_keeps (llState · p)]
  · rfl
  · intro q t
    unfold endStarve
    split
    · split <;> rfl
    · rfl

/-- A unit that tells of a replay, with nothing acknowledged and no NAK, brings its limits and the replay (R122). -/
theorem applyLcu_of_replay (hs : llState s p = 2) {u : Lcu} (hr : u.rpl = true) (ha : u.ackVld = false) (hn : u.nakVld = false) :
    applyLcu p u s = takeReplay p u.txSeq.toNat (adoptLimits p u s) := by
  simp [applyLcu, hr, ha, hn, hs]

/-! ### Replays received -/

theorem seqGe_self (n : Nat) : seqGe n n = true := by
  unfold seqGe
  rw [Nat.add_sub_cancel_left]
  rfl

/-- A replay from the expected number resumes reception. -/
theorem takeReplay_of_expected {tx : Nat} (h : tx = (s.lnk p).rxExp) :
    takeReplay p tx s = s.onLnk p fun l => { l with mode := .take, nak := none } := if_pos h

/-- A replay from ahead of it fails the link. -/
theorem takeReplay_of_ahead {tx : Nat} (h : tx ≠ (s.lnk p).rxExp) (hg : seqGe tx (s.lnk p).rxExp = true) :
    takeReplay p tx s = linkFail p s := by
  rw [takeReplay, if_neg h, if_pos hg]

/-- A replay from before it skips to it. -/
theorem takeReplay_of_behind {tx : Nat} (hg : seqGe tx (s.lnk p).rxExp = false) :
    takeReplay p tx s = s.onLnk p fun l => { l with mode := .skipTo tx, nak := none } := by
  have h : tx ≠ (s.lnk p).rxExp := by
    rintro rfl
    rw [seqGe_self] at hg
    exact absurd hg (by decide)
  rw [takeReplay, if_neg h, if_neg (by rw [hg]; decide)]

end

/-! ### The commands -/

section
variable (port : Fin 512) (s : State)

theorem exec_lock : exec (.lock port) s = .next (kept s (settle (lock port.val s))) := rfl
theorem exec_loss : exec (.loss port) s = .next (kept s (settle (linkLoss port.val s))) := rfl
theorem exec_lcuI (l : Lcu) : exec (.lcuI port l) s = .next (kept s (settle (lcuOne port.val { l with init := true } s))) := rfl
theorem exec_lcuU (l : Lcu) : exec (.lcuU port l) s = .next (kept s (settle (lcuZero port.val { l with init := false } s))) := rfl
theorem exec_rplGroup (l : Lcu) :
    exec (.rplGroup port l) s = .next (kept s (settle (lcuZero port.val { l with init := false, rpl := true } s))) := rfl
theorem exec_badcw : exec (.badcw port) s = .next (kept s (settle (badGroup port.val s))) := rfl
theorem exec_rtmo : exec (.rtmo port) s = .next (kept s (settle (rtmo port.val s))) := rfl
theorem exec_rlim : exec (.rlim port) s = .next (kept s (settle (rlim port.val s))) := rfl
theorem exec_itmo : exec (.itmo port) s = .next (kept s (settle (itmo port.val s))) := rfl
theorem exec_lcuSend : exec (.lcuSend port) s = .next (kept s (settle (lcuSend port.val s))) := rfl
theorem exec_packetReceive (units : List LinkUnit) :
    exec (.packetReceive port units) s = .next (kept s (packetArrive port.val units s)) := rfl

end

/-- Settles O22, one command after the other: each is its row of Table 03-11. -/
theorem linkStatesAndRetry : Obligations.LinkStatesAndRetry := by
  unfold Obligations.LinkStatesAndRetry
  refine ⟨fun s port => ?rows, fun s port => ?timers, fun s p tx => ?replays⟩
  case rows =>
    dsimp only
    refine ⟨by rw [exec_lock, lock_eq], exec_loss port s, fun l => exec_lcuI port s l, fun l => exec_lcuU port s l,
      fun l => exec_rplGroup port s l, fun l hs hn ha => ?_⟩
    rw [exec_rplGroup, lcuZero, if_neg (by rw [hs]; decide), if_pos hs,
      applyLcu_of_replay (u := { l with init := false, rpl := true }) hs rfl ha hn]
  case timers =>
    dsimp only
    rw [exec_badcw, exec_rtmo]
    refine ⟨fun hs h => by rw [badGroup_of_new hs h], fun hs h => by rw [badGroup_of_outstanding hs h],
      fun hs => by rw [badGroup_of_not_up hs], fun old g rest h => by rw [rtmo_of_held h], fun h => by rw [rtmo_of_none h],
      exec_rlim port s, exec_itmo port s, exec_lcuSend port s⟩
  case replays =>
    exact ⟨takeReplay_of_expected, takeReplay_of_ahead, takeReplay_of_behind, rfl⟩

/-! ### Groups received -/

section
variable {s : State} {n : Nat} {g : List LinkUnit}

theorem packetArrive_eq (n : Nat) (units : List LinkUnit) (s : State) :
    packetArrive n units s
      = if portOn s n = true ∧ llState s n ≠ 0 then
          settle (
            if isUncounted (tenUnits units) = true then takeUncounted n (tenUnits units) s
            else if linkUp s n = true then takeCounted n (tenUnits units) s
            else takeInInit n (tenUnits units) s)
        else s := by
  simp only [packetArrive, apply_ite settle]
  by_cases hon : portOn s n = true ∧ llState s n ≠ 0
  · obtain ⟨hp, hl⟩ := hon
    simp [hp, hl]
  · rw [if_neg hon, if_pos]
    simpa [or_iff_not_imp_left] using hon

theorem takeCounted_of_inSequence (hm : ((countedGroup n s).lnk n).mode = .take)
    (hw : wrongSeq ((countedGroup n s).lnk n).rxExp g = false) :
    takeCounted n g s = forEach g (takeUnit n)
      ((countedGroup n s).onLnk n fun l => { l with rxExp := (l.rxExp + 1) % 65536, ackSeen := true }) := by
  simp only [takeCounted, hm, hw, Bool.false_eq_true, if_false]

theorem takeCounted_of_outOfSequence (hm : ((countedGroup n s).lnk n).mode = .take)
    (hw : wrongSeq ((countedGroup n s).lnk n).rxExp g = true) : takeCounted n g s = badGroup n (countedGroup n s) := by
  simp only [takeCounted, hm, hw, if_true]

theorem takeCounted_of_waitReplay (hm : ((countedGroup n s).lnk n).mode = .waitReplay) :
    takeCounted n g s = countedGroup n s := by
  simp only [takeCounted, hm]

/-- While a replay catches up, a group out of its order is bad. -/
theorem takeCounted_of_skipTo_bad {k : Nat} (hm : ((countedGroup n s).lnk n).mode = .skipTo k) (hw : wrongSeq k g = true) :
    takeCounted n g s = badGroup n (countedGroup n s) := by
  simp only [takeCounted, hm, hw, if_true]

/-- While a replay catches up, only the link-control units are taken. -/
theorem takeCounted_of_skipTo {k : Nat} (hm : ((countedGroup n s).lnk n).mode = .skipTo k) (hw : wrongSeq k g = false) :
    takeCounted n g s = takeControls n g ((countedGroup n s).onLnk n fun l =>
      { l with mode := if (k + 1) % 65536 = l.rxExp then .take else .skipTo ((k + 1) % 65536) }) := by
  simp only [takeCounted, hm, hw, Bool.false_eq_true, if_false]

end

/-- Settles O24: the mode of reception says what becomes of a counted group. -/
theorem countedGroupIsTaken : Obligations.CountedGroupIsTaken := by
  unfold Obligations.CountedGroupIsTaken
  refine ⟨fun s port units => ?_, fun s n g => ?_⟩
  · dsimp only
    rw [exec_packetReceive, packetArrive_eq]
  · exact ⟨takeCounted_of_inSequence, takeCounted_of_outOfSequence, takeCounted_of_waitReplay,
      fun k hm => ⟨takeCounted_of_skipTo_bad hm, takeCounted_of_skipTo hm⟩⟩

end Sys2Proof.Machine
end

section
/-! SUPPORT. The switch core's commands: which way the head of a waiting list goes, and what a link-unit boundary sends (R126,
R127, R188, R197, R199, R207). -/

namespace Sys2Proof.Machine

/-! ### Admission -/

section
variable {s : State} {d key : Nat} {w : Waiting} {rest : List Waiting} {c : Copy} {cs : List Copy}

theorem admitHead_of_empty (h : s.waitQ key = []) : admitHead d key s = s := by simp only [admitHead, h]

theorem admitHead_of_admitted (h : s.waitQ key = w :: rest) (hw : w.copies = c :: cs) (hc : ctxAllows s c = true) {a : Nat}
    (ha : admitTo s d w.copies = some a) : admitHead d key s = letIn a w (s.setWait key rest) := by
  rw [hw] at ha
  simp only [admitHead, h, hw, hc, ha, if_true]

/-- No account covers a head of Q6 or Q7: it is discarded. -/
theorem admitHead_of_low (h : s.waitQ key = w :: rest) (hw : w.copies = c :: cs) (hc : ctxAllows s c = true)
    (ha : admitTo s d w.copies = none) (hq : 6 ≤ lowQueue w) :
    admitHead d key s = discardUnadmitted w (s.setWait key rest) := by
  rw [hw] at ha
  simp only [admitHead, h, hw, hc, ha, hq, if_true]

/-- No account covers a head of Q0 to Q5: what the push-out leaves decides. -/
theorem admitHead_of_pushOut (h : s.waitQ key = w :: rest) (hw : w.copies = c :: cs) (hc : ctxAllows s c = true)
    (ha : admitTo s d w.copies = none) (hq : lowQueue w < 6) :
    (∀ a, admitTo (pushOut d s) d w.copies = some a → admitHead d key s = letIn a w ((pushOut d s).setWait key rest))
      ∧ (admitTo (pushOut d s) d w.copies = none → admitHead d key s = pushOut d s) := by
  rw [hw] at ha
  have hq : ¬ 6 ≤ lowQueue w := Nat.not_le.mpr hq
  constructor
  · intro a hp
    rw [hw] at hp
    simp only [admitHead, h, hw, hc, ha, hq, hp, if_true, if_false]
  · intro hp
    rw [hw] at hp
    simp only [admitHead, h, hw, hc, ha, hq, hp, if_true, if_false]

theorem admitHead_of_held (h : s.waitQ key = w :: rest) (hw : w.copies = c :: cs) (hc : ctxAllows s c = false) :
    admitHead d key s
      = if w.counted = true then s else (countHeld c.pkt s).setWait key ({ w with counted := true } :: rest) := by
  simp only [admitHead, h, hw, hc, Bool.false_eq_true, if_false]

end

/-! ### A link-unit boundary -/

section
variable {s : State} {p : Nat} {t : TxPkt}

theorem egressBoundary_eq (p : Nat) (s : State) :
    egressBoundary p s =
      if linkUp (markStarved p s) p = true then
        (if replayRoom (markStarved p s) p = true then nextUnit p (markStarved p s) else idleBoundary p (markStarved p s))
      else markStarved p s := by
  cases hl : linkUp (markStarved p s) p <;> simp [egressBoundary, hl]

theorem nextUnit_of_not_mayPreempt (h : (s.lnk p).txCur = some t) (hm : mayPreempt s p t = false) :
    nextUnit p s = sendUnit p s := by
  simp only [nextUnit, h, hm, Bool.false_eq_true, if_false]

theorem nextUnit_of_noExpress (h : (s.lnk p).txCur = some t) (ha : arbitrate s p (express s p) = none) :
    nextUnit p s = sendUnit p s := by
  simp only [nextUnit, h, ha, ite_self]

theorem nextUnit_of_preempted (h : (s.lnk p).txCur = some t) (hm : mayPreempt s p t = true) {q : Nat} {ptr : List Nat}
    (ha : arbitrate s p (express s p) = some (q, ptr)) :
    nextUnit p s = sendUnit p (grant p q ptr ((s.bump (F.PRT_PREEMPT_CNT_count p)).onLnk p fun l =>
      { l with txSusp := some { t with resumed := true, since := 0 }, txCur := none, xpCount := 1 })) := by
  simp only [nextUnit, h, hm, ha, if_true]
  rfl

theorem nextUnit_of_resumed (hc : (s.lnk p).txCur = none) (hs : (s.lnk p).txSusp = some t)
    (h : ¬ (s.lnk p).xpCount < max 1 (s.fld (F.PRT_LL_CFG_xp_max p)) ∨ arbitrate s p (express s p) = none) :
    nextUnit p s = sendUnit p (s.onLnk p fun l => { l with txCur := some t, txSusp := none, xpCount := 0 }) := by
  rcases h with h | h
  · simp only [nextUnit, hc, hs, if_neg h]
  · simp only [nextUnit, hc, hs, h, ite_self]

theorem nextUnit_of_expressFirst (hc : (s.lnk p).txCur = none) (hs : (s.lnk p).txSusp = some t)
    (h : (s.lnk p).xpCount < max 1 (s.fld (F.PRT_LL_CFG_xp_max p))) {q : Nat} {ptr : List Nat}
    (ha : arbitrate s p (express s p) = some (q, ptr)) :
    nextUnit p s = sendUnit p (grant p q ptr (s.onLnk p fun l => { l with xpCount := l.xpCount + 1 })) := by
  simp only [nextUnit, hc, hs, if_pos h, ha]

theorem nextUnit_of_winner (hc : (s.lnk p).txCur = none) (hs : (s.lnk p).txSusp = none) {q : Nat} {ptr : List Nat}
    (ha : arbitrate s p (fun _ => true) = some (q, ptr)) : nextUnit p s = sendUnit p (grant p q ptr s) := by
  simp only [nextUnit, hc, hs, ha]

theorem nextUnit_of_noWinner (hc : (s.lnk p).txCur = none) (hs : (s.lnk p).txSusp = none)
    (ha : arbitrate s p (fun _ => true) = none) : nextUnit p s = idleBoundary p s := by
  simp only [nextUnit, hc, hs, ha]

end

/-! ### The flush of a starved queue -/

section
variable {s : State} {p q : Nat}

theorem holFlush_of_starved (h2 : 2 ≤ q) (h6 : q ≤ 6) (he : s.fld (F.CBF_HOL_hol_exp (portDie p)) ≤ 20) {c : Copy}
    {rest : List Copy} {t : Nat} (hq : s.eqQ (p * 8 + q) = c :: rest) (ht : (s.qsch (p * 8 + q)).starved = some t) :
    holFlush p q s
      = if creditsOf s p q < c.nLu ∧ t + 2 ^ s.fld (F.CBF_HOL_hol_exp (portDie p)) * 1000 ≤ s.now then
          flushQueue (p * 8 + q) (fun _ => false) s
        else s := by
  simp only [holFlush, h2, h6, he, hq, ht, and_self, if_true]

theorem holFlush_of_not_starved (h : q < 2 ∨ 6 < q ∨ 20 < s.fld (F.CBF_HOL_hol_exp (portDie p)) ∨ s.eqQ (p * 8 + q) = []
    ∨ (s.qsch (p * 8 + q)).starved = none) : holFlush p q s = s := by
  unfold holFlush
  dsimp only
  split
  case isTrue hin =>
    cases hq : s.eqQ (p * 8 + q) with
    | nil => rfl
    | cons c rest =>
      have hs : (s.qsch (p * 8 + q)).starved = none := by
        rcases h with h | h | h | h | h
        · omega
        · omega
        · omega
        · rw [h] at hq; exact absurd hq (by simp)
        · exact h
      rw [hs]
  case isFalse => rfl

end

/-! ### The commands -/

theorem exec_admission (port : Fin 512) (q : Fin 8) (s : State) :
    exec (.admission port q) s = .next (kept s (settle (admitQueue port.val q.val s))) := rfl
theorem exec_crossbarSlot (s : State) : exec .crossbarSlot s = .next (kept s (settle (resendSome (crossbarSlot s)))) := rfl
theorem exec_egressArbitration (port : Fin 512) (s : State) :
    exec (.egressArbitration port) s = .next (kept s (settle (egressBoundary port.val s))) := rfl
theorem exec_holFlush (port : Fin 512) (q : Fin 8) (s : State) :
    exec (.holFlush port q) s = .next (kept s (settle (holFlush port.val q.val s))) := rfl

/-- Settles O28: each command is its meaning, and each way of it has its lemma above. -/
theorem switchCoreActs : Obligations.SwitchCoreActs := by
  unfold Obligations.SwitchCoreActs
  refine ⟨fun s port q => exec_admission port q s, ?heads, exec_crossbarSlot, fun s port => ?boundary,
    fun s p t h => ?sending, fun s p t hc hs => ?suspended, fun s p hc hs => ?idle, fun s port q => ?flush⟩
  case heads =>
    refine fun s d key => ⟨admitHead_of_empty, fun w rest c cs h hw => ⟨fun hc => ?_, admitHead_of_held h hw⟩⟩
    exact ⟨fun a => admitHead_of_admitted h hw hc, admitHead_of_low h hw hc, admitHead_of_pushOut h hw hc⟩
  case boundary => rw [exec_egressArbitration, egressBoundary_eq]
  case sending =>
    exact ⟨nextUnit_of_not_mayPreempt h, fun _ => nextUnit_of_noExpress h, fun q ptr hm => nextUnit_of_preempted h hm⟩
  case suspended => exact ⟨nextUnit_of_resumed hc hs, fun q ptr hx => nextUnit_of_expressFirst hc hs hx⟩
  case idle => exact ⟨fun q ptr => nextUnit_of_winner hc hs, nextUnit_of_noWinner hc hs⟩
  case flush =>
    dsimp only
    rw [exec_holFlush]
    refine ⟨fun c rest t h2 h6 he hq ht => by rw [holFlush_of_starved h2 h6 he hq ht], fun h => ?_⟩
    rw [holFlush_of_not_starved h]

end Sys2Proof.Machine
end

section
/-! SUPPORT. Discovery: control packets of kind DISC, and which way each event of Tables 04-2 and 04-4 goes (R136 to R148). -/

namespace Sys2Proof.Machine

/-! ### Control packets of one kind -/

/-- When `f` is all that a good control packet does after its credits, its arrival is that of `f`. -/
theorem arrive_ctl {port : Nat} {c : Ctl} {f : State → State}
    (hf : ∀ u, controlGood port c u
      = mirrorOnly port (mirSelect u false port (.ctl c)) (.ctl c) (f (giveCredits port c.queue.toNat 1 u)))
    (s : State) : arrive port (.ctl c) s = controlArrives port c f s := by
  unfold controlArrives
  by_cases ht : TakesPackets s port
  · rw [if_pos ht, arrive_of_takesPackets ht, receivePkt]
    by_cases hfit : FitsControl c
    · rw [if_pos hfit, receiveCtl_of_fits hfit, hf]; rfl
    · rw [if_neg hfit, receiveCtl_of_not_fits hfit]
  · rw [if_neg ht, arrive_of_not_takesPackets ht]

/-- The type bits of a control packet are those that its row fixes. -/
theorem type_ctlOf (k : BitVec 5) (t : BitVec 4) (c : Ctl) : bits (ctlOf k t c).ks.toNat 12 4 = t.toNat := by
  have hlow : (c.ks.setWidth 12).toNat < 2 ^ 12 := (c.ks.setWidth 12).isLt
  have ht : t.toNat < 2 ^ 4 := t.isLt
  simp only [ctlOf, bits, BitVec.toNat_append, ← Nat.shiftLeft_add_eq_or_of_lt hlow]
  omega

/-- A good DISC packet is taken on any port, restricted or not (R150). -/
theorem controlGood_disc {port : Nat} {c : Ctl} (hc : c.ckind = 0x10#5) (s : State) :
    controlGood port c s
      = mirrorOnly port (mirSelect s false port (.ctl c)) (.ctl c) (discPacket port c (giveCredits port c.queue.toNat 1 s)) := by
  rw [controlGood, if_pos hc]
  rfl

/-- What each type of a DISC packet does (Table 04-1). -/
theorem discPacket_rows (port : Nat) (c : Ctl) :
    discPacket port (ctlOf 0x10 1 c) = hello port (ctlOf 0x10 1 c)
      ∧ discPacket port (ctlOf 0x10 2 c) = takeNbr port (ctlOf 0x10 2 c)
      ∧ discPacket port (ctlOf 0x10 3 c) = takeAssign port (ctlOf 0x10 3 c)
      ∧ discPacket port (ctlOf 0x10 5 c) = epHello port (ctlOf 0x10 5 c)
      ∧ discPacket port (ctlOf 0x10 7 c) = epAck port (ctlOf 0x10 7 c) := by
  refine ⟨?_, ?_, ?_, ?_, ?_⟩ <;> (funext s; rw [discPacket, type_ctlOf]; rfl)

/-- The commands that bring a DISC packet, with the type that each fixes (Table 04-1). -/
def discRows : List ((Fin 512 → Ctl → Instr) × BitVec 4) :=
  [(.hello, 1), (.nbr, 2), (.assign, 3), (.epHello, 5), (.epAck, 7)]

theorem exec_discRow {x : (Fin 512 → Ctl → Instr) × BitVec 4} (hx : x ∈ discRows) (s : State) (port : Fin 512) (c : Ctl)
    {f : State → State} (hf : discPacket port.val (ctlOf 0x10 x.2 c) = f) :
    exec (x.1 port c) s = .next (kept s (controlArrives port.val (ctlOf 0x10 x.2 c) f s)) := by
  have hrow : exec (x.1 port c) s = .next (kept s (arrive port.val (.ctl (ctlOf 0x10 x.2 c)) s)) := by
    simp only [discRows, List.mem_cons, List.not_mem_nil, or_false] at hx
    rcases hx with rfl | rfl | rfl | rfl | rfl <;> rfl
  rw [hrow, arrive_ctl (controlGood_disc rfl), hf]

/-! ### Placement at the start -/

section
variable {s : State}

theorem discEnable_of_automatic (h : s.flag F.RTE_COORD_coord_mode = false) :
    discEnable s = sendHellos (setDisc 1 (setRoot (ownSerial s)
      { s with disc := { s.disc with
          reports := [], helloAt := s.now, pinned := false, quietAt := some (s.now + tQuiet s) } })) :=
  if_neg (ne_true_of_eq_false h)

/-- What pinned placement starts from: no reports, HELLO due at once, no root (R138). -/
def pinnedStart (s : State) : State :=
  setRoot (BitVec.allOnes 64) { s with disc := { s.disc with reports := [], helloAt := s.now, pinned := true } }

theorem discEnable_of_pinned (h : s.flag F.RTE_COORD_coord_mode = true) :
    discEnable s =
      let u := pinnedStart s
      if u.fld F.RTE_COORD_pin_row ≤ u.fld F.RTE_COORD_pin_rows_m1 ∧ u.fld F.RTE_COORD_pin_col ≤ u.fld F.RTE_COORD_pin_cols_m1
      then takePlace (u.fld F.RTE_COORD_pin_row) (u.fld F.RTE_COORD_pin_col) (u.fld F.RTE_COORD_pin_rows_m1)
        (u.fld F.RTE_COORD_pin_cols_m1) u
      else raise Cause.discUnplaced locNone (setDisc 5 u) :=
  if_pos h

end

/-! ### DISC packets -/

section
variable {s : State} {p : Nat}

/-- A fabric port that is not quarantined takes neighbour reports and assignments, no other port does (R145, R150). -/
theorem not_discClosed_iff : ¬ (!isFab s p || quarantined s p) = true ↔ isFab s p = true ∧ quarantined s p = false := by simp

theorem takeNbr_of_closed (h : isFab s p = false ∨ quarantined s p = true) (c : Ctl) : takeNbr p c s = s := by
  rw [takeNbr, if_pos (by simpa using h)]

theorem takeAssign_of_closed (h : isFab s p = false ∨ quarantined s p = true) (c : Ctl) : takeAssign p c s = s := by
  rw [takeAssign, if_pos (by simpa using h)]

section
variable {c : Ctl} (hf : isFab s p = true) (hq : quarantined s p = false)
include hf hq

/-- An ASSIGN to relay goes once to the neighbour that it names (R141). -/
theorem takeAssign_of_relay (hr : bitOf (wordAt c.body 8).toNat 11 = true) {q : Nat}
    (hp : portToward s (wordAt c.body 4 ++ wordAt c.body 0) = some q) :
    takeAssign p c s =
      let a := (wordAt c.body 8).toNat
      sendAssign q (wordAt c.body 4 ++ wordAt c.body 0) (bits a 27 5) (bits a 22 5) (bits a 17 5) (bits a 12 5) false
        (wordAt c.body 16 ++ wordAt c.body 12) s := by
  rw [takeAssign, if_neg (not_discClosed_iff.mpr ⟨hf, hq⟩)]
  simp only [hr, hp, if_true]

theorem takeAssign_of_noPort (hr : bitOf (wordAt c.body 8).toNat 11 = true)
    (hp : portToward s (wordAt c.body 4 ++ wordAt c.body 0) = none) : takeAssign p c s = s := by
  rw [takeAssign, if_neg (not_discClosed_iff.mpr ⟨hf, hq⟩)]
  simp only [hr, hp, if_true]

/-- An ASSIGN that is not to relay places the switch that it names, in ELECT and AWAIT, when it comes from its root (R141). -/
theorem takeAssign_of_own (hr : ¬ bitOf (wordAt c.body 8).toNat 11 = true) :
    takeAssign p c s =
      let a := (wordAt c.body 8).toNat
      if wordAt c.body 4 ++ wordAt c.body 0 = ownSerial s ∧ wordAt c.body 16 ++ wordAt c.body 12 = rootSerial s
          ∧ (dstate s = 1 ∨ dstate s = 3) then
        takePlace (bits a 27 5) (bits a 22 5) (bits a 17 5) (bits a 12 5) s
      else s := by
  rw [takeAssign, if_neg (not_discClosed_iff.mpr ⟨hf, hq⟩)]
  exact if_neg hr

end

theorem epHello_of_fabric (h : isFab s p = true) (c : Ctl) :
    epHello p c s = quarantine p (F.PRT_DISC_STATUS_role p) Cause.portRole s := if_pos h

/-- On a waiting endpoint port the learn starts when the switch runs and the port is a local one; else the answer is status 2. -/
theorem epHello_of_waiting (hf : isFab s p = false) (he : isEp s p = true) (hs : pstate s p = pWait) (c : Ctl) :
    epHello p c s =
      let u := s.onPdisc p fun d => { d with epTags := bits (wordAt c.body 0).toNat 0 12 + 1 }
      if dstate s = 4 ∧ (localOf s p).isSome = true then submitLearn p (c.w1 ++ c.w2) u else sendEpAssign p 2 u := by
  simp only [epHello, hf, he, hs, Bool.and_eq_true, decide_eq_true_eq, if_true, if_false, Bool.not_true, Bool.false_eq_true]
  rfl

theorem epHello_of_offered (hf : isFab s p = false) (he : isEp s p = true) (hs : pstate s p = pOffer) (c : Ctl) :
    epHello p c s = sendEpAssign p 0 s := by
  have hw : pOffer ≠ pWait := by decide
  simp only [epHello, hf, he, hs, hw, if_true, if_false, Bool.not_true, Bool.false_eq_true]

theorem epAck_eq (p : Nat) (c : Ctl) (s : State) :
    epAck p c s = if isEp s p = true ∧ pstate s p = pOffer ∧ bits (wordAt c.body 0).toNat 0 15 = portEp s p then
      setPstate p pAssigned s else s := by
  simp only [epAck, Bool.and_eq_true, beq_iff_eq, and_assoc]

end

/-! ### The commands -/

section
variable (s : State)

theorem exec_discStart : exec .discStart s = .next (kept s (settle (discStart s))) := rfl
theorem exec_discRestart : exec .discRestart s = .next (kept s (settle (discRestart s))) := rfl
theorem exec_helloSend : exec .helloSend s = .next (kept s (settle (helloSend s))) := rfl
theorem exec_quiet : exec .quiet s = .next (kept s (settle (quiet s))) := rfl
theorem exec_atmo : exec .atmo s = .next (kept s (settle (atmo s))) := rfl

end

/-- Settles O25: a timer or a write is its transition of Table 04-2, a DISC packet the effect of its type, and each way of it has its
lemma above. -/
theorem discoveryActs : Obligations.DiscoveryActs := by
  unfold Obligations.DiscoveryActs
  refine ⟨fun s => ⟨exec_discStart s, exec_discRestart s, discEnable_of_automatic, discEnable_of_pinned, exec_helloSend s,
    ?quietTimer, ?assignTimer⟩, fun s port c => ?packets, fun s p c => ?ways⟩
  case quietTimer =>
    rw [exec_quiet]
    unfold quiet
    cases s.disc.quietAt with
    | none => rfl
    | some t => rfl
  case assignTimer =>
    rw [exec_atmo]
    unfold atmo
    cases s.disc.assignAt with
    | none => rfl
    | some t =>
      cases joinRule s with
      | none => rfl
      | some place => rfl
  case packets =>
    obtain ⟨hhello, hnbr, hassign, hepHello, hepAck⟩ := discPacket_rows port.val c
    refine ⟨exec_discRow (x := (.hello, 1)) (by simp [discRows]) s port c hhello,
      exec_discRow (x := (.nbr, 2)) (by simp [discRows]) s port c hnbr,
      exec_discRow (x := (.assign, 3)) (by simp [discRows]) s port c hassign,
      exec_discRow (x := (.epHello, 5)) (by simp [discRows]) s port c hepHello,
      exec_discRow (x := (.epAck, 7)) (by simp [discRows]) s port c (hepAck.trans (funext fun u => ?_))⟩
    exact epAck_eq port.val (ctlOf 0x10 7 c) u
  case ways =>
    refine ⟨fun hf hq => ?_, fun h => ⟨takeNbr_of_closed h c, takeAssign_of_closed h c⟩, fun hf => epHello_of_fabric hf c,
      fun hf he hs => epHello_of_waiting hf he hs c, fun hf he hs => epHello_of_offered hf he hs c⟩
    refine ⟨if_neg (not_discClosed_iff.mpr ⟨hf, hq⟩), ?_⟩
    by_cases hr : bitOf (wordAt c.body 8).toNat 11 = true
    · rw [if_pos hr]
      cases hp : portToward s (wordAt c.body 4 ++ wordAt c.body 0) with
      | none => exact takeAssign_of_noPort hf hq hr hp
      | some q => exact takeAssign_of_relay hf hq hr hp
    · rw [if_neg hr]
      exact takeAssign_of_own hf hq hr

end Sys2Proof.Machine
end

section
/-! SUPPORT. Learning and quarantine: the learning arbiter, the learn that wins, and the causes that software clears (R148, R149,
R151). -/

namespace Sys2Proof.Machine

section
variable {s : State} {p : Nat}

/-! ### A learn that has its commit -/

theorem win_of_committed {l : Learn} {t : Nat} (hl : (s.pdisc p).learn = some l) (ht : l.stamp = some t) :
    win p s = if pstate s p = pLearn ∧ t + 256 ≤ s.tbase then
        sendEpAssign p 0 ((setPstate p pOffer s).wr (R.PRT_DISC_ID p) (BitVec.ofNat 32 (portEp (setPstate p pOffer s) p)))
      else s := by
  simp only [win, hl, ht]

theorem win_of_not_committed (h : ∀ l, (s.pdisc p).learn = some l → l.stamp = none) : win p s = s := by
  unfold win
  cases hl : (s.pdisc p).learn with
  | none => rfl
  | some l => simp only [h l hl]

/-! ### Causes that software clears -/

/-- The causes of a port after a write of `v`: those written 1 that are set go (R151). -/
def causesCleared (p : Nat) (v : Word) (s : State) : State :=
  forEach (quarCauses p) (fun c s =>
    if bitOf v.toNat c.1.lo && s.flag c.1 then endLive c.2 (locPort p) (s.setFlag c.1 false) else s) s

variable {v : Word}

/-- A port that was not quarantined, or that still is, changes no more than its causes. -/
theorem clearCauses_of_kept (h : quarantined s p = false ∨ quarantined (causesCleared p v s) p = true) :
    clearCauses p v s = causesCleared p v s := by
  rw [clearCauses, if_neg (fun hc => ?_)]
  · rfl
  · rw [Bool.and_eq_true, Bool.not_eq_true'] at hc
    obtain ⟨hwas, hnow⟩ := hc
    exact h.elim (fun h => by simp [h] at hwas) (fun h => by rw [causesCleared, hnow] at h; cases h)

/-- The last cause of a port that is no fabric port goes (CLR of Table 04-4). -/
theorem clearCauses_of_last (hs : quarantined s p = true) (hu : quarantined (causesCleared p v s) p = false)
    (hf : isFab (causesCleared p v s) p = false) :
    clearCauses p v s
      = setPstate p (if linkUp (causesCleared p v s) p = true then pWait else pDown) (causesCleared p v s) := by
  unfold causesCleared at *
  simp only [clearCauses, hs, hu, hf, Bool.not_false, Bool.and_self, if_true, if_false, Bool.false_eq_true]

/-! ### The commands -/

theorem whenUp_of_up {d : Nat} (h : inReset s d = false) (f : State → State) : whenUp d f s = f s :=
  if_neg (ne_true_of_eq_false h)

theorem whenUp_of_inReset {d : Nat} (h : inReset s d = true) (f : State → State) : whenUp d f s = s := if_pos h

theorem exec_learnCommit (die : Fin 4) (s : State) :
    exec (.learnCommit die) s = .next (kept s (settle (learnCommit die.val s))) := rfl
theorem exec_win (port : Fin 512) (s : State) : exec (.win port) s = .next (kept s (settle (win port.val s))) := rfl

theorem exec_clr (port : Fin 512) (s : State) :
    exec (.clr port v) s = .next (kept s (settle (whenUp (portDie port.val) (clearCauses port.val v) s))) := rfl

end

/-- Settles O26: the arbiter is its own definition, and each way of WIN and CLR has its lemma above. -/
theorem learningAndQuarantine : Obligations.LearningAndQuarantine := by
  unfold Obligations.LearningAndQuarantine
  refine fun s => ⟨fun die => exec_learnCommit die s, fun port l t hl ht => ?wins, fun port h => ?waits,
    fun port v hup => ⟨fun h => ?kept, fun hs hu hf => ?last⟩, fun port v h => ?inReset⟩
  case wins => rw [exec_win, win_of_committed hl ht]
  case waits => rw [exec_win, win_of_not_committed h]
  case kept => rw [exec_clr, whenUp_of_up hup, clearCauses_of_kept h]; rfl
  case last => rw [exec_clr, whenUp_of_up hup, clearCauses_of_last hs hu hf]; rfl
  case inReset => rw [exec_clr, whenUp_of_inReset h]

end Sys2Proof.Machine
end

section
/-! SUPPORT. Routing versions: which way a software write of an entry goes, what a new version makes of the one before it, and what
a change that ends lets go on (R165 to R168). -/

namespace Sys2Proof.Machine

/-! ### Writes -/

section
variable {s : State} {o k : Nat}

theorem routeWrite_double (ho : o % 8 = 0) (hk : routeKey o = some k) (hw : isWide k = true) (v : BitVec 64) :
    routeWrite o 8 v s = writtenVersion k ((s.storeReg k (lo32 v)).storeReg (k + 4) (hi32 v)) := by
  simp only [routeWrite, ho, hk, hw, and_self, if_true]
  rfl

theorem routeWrite_double_narrow (ho : o % 8 = 0) (hk : routeKey o = some k) (hw : isWide k = false) (v : BitVec 64) :
    routeWrite o 8 v s = routeWrite32 (o + 4) (hi32 v) (routeWrite32 o (lo32 v) s) := by
  simp only [routeWrite, ho, hk, hw, and_self, if_true, if_false, Bool.false_eq_true]
  rfl

theorem routeWrite_word (ho : o % 4 = 0) (v : BitVec 64) : routeWrite o 4 v s = routeWrite32 o (lo32 v) s := by
  rw [routeWrite, if_neg (by omega), if_pos ⟨rfl, ho⟩]
  rfl

theorem routeWrite_unsupported {size : Nat} (h8 : ¬ (size = 8 ∧ o % 8 = 0)) (h4 : ¬ (size = 4 ∧ o % 4 = 0)) (v : BitVec 64) :
    routeWrite o size v s = s.emit (.unsupported o) := by
  rw [routeWrite, if_neg h8, if_neg h4]

/-- A 32-bit write of a wide entry stages its lower half or completes a version; one of a narrow entry is the whole of it. -/
theorem routeWrite32_of_key (hk : routeKey o = some k) (v : Word) :
    routeWrite32 o v s =
      if isWide k = true then
        if o = k then (s.storeReg k v).onRver k fun r => { r with staged := some v }
        else writtenVersion k ((s.storeReg k ((s.rver k).staged.getD (lo32 (latest s k)))).storeReg (k + 4) v)
      else writtenVersion k (s.storeReg k v) := by
  simp only [routeWrite32, hk]
  rfl

/-! ### Versions -/

theorem newVersion_of_free (h : (s.rver k).retiring = none) (v : BitVec 64) (hold : Bool) :
    newVersion k v hold s = showSettled k (showEpoch k (s.onRver k fun r => { r with
      active := v, epoch := (r.epoch + 1) % 256, inflight := 0, pending := none,
      retiring := if r.inflight = 0 then none else some (r.epoch, r.inflight),
      retiredAt := if r.inflight ≠ 0 then none else if hold || r.old.isNone then some s.now else r.retiredAt,
      old := if hold then some (r.active, v) else r.old })) := by
  simp only [newVersion, h, Option.isSome_none, Bool.false_eq_true, if_false]

theorem newVersion_of_retiring {x : Nat × Nat} (h : (s.rver k).retiring = some x) (v : BitVec 64) (hold : Bool) :
    newVersion k v hold s = showSettled k (showEpoch k (s.onRver k fun r => { r with pending := some (v, hold) })) := by
  simp only [newVersion, h, Option.isSome_some, if_true]

/-- The key of the entry at an offset: its own for a narrow entry, its lower register's for a wide one. -/
def entryKey (o : Nat) : Nat := if isWide o = true then o / 8 * 8 else o / 4 * 4

/-- Entry `k` with the retiring version ended and no write pending. -/
def retired (k : Nat) (s : State) : State :=
  s.onRver k fun r => { r with retiring := none, retiredAt := some s.now, pending := none }

theorem versionRetire_of_pending {e : Nat} (h : (s.rver (entryKey o)).retiring = some (e, 0)) {v : BitVec 64} {hold : Bool}
    (hp : (s.rver (entryKey o)).pending = some (v, hold)) :
    versionRetire o s = newVersion (entryKey o) v hold (retired (entryKey o) s) := by
  unfold entryKey at *
  simp only [versionRetire, h, hp, retired]

theorem versionRetire_of_noPending {e : Nat} (h : (s.rver (entryKey o)).retiring = some (e, 0))
    (hp : (s.rver (entryKey o)).pending = none) :
    versionRetire o s = showSettled (entryKey o) (retired (entryKey o) s) := by
  unfold entryKey at *
  simp only [versionRetire, h, hp, retired]

/-- A version with packets in flight, or an entry with none retiring, is left alone. -/
theorem versionRetire_of_busy (h : ∀ e, (s.rver (entryKey o)).retiring ≠ some (e, 0)) : versionRetire o s = s := by
  unfold entryKey at h
  rcases hr : (s.rver (if isWide o = true then o / 8 * 8 else o / 4 * 4)).retiring with _ | ⟨e, _ | n⟩
  · simp only [versionRetire, hr]
  · exact absurd hr (h e)
  · simp only [versionRetire, hr]

/-! ### Held packets -/

theorem releaseHeld_of_holding (h : holding s k = true) : releaseHeld k s = s := if_pos h

theorem releaseHeld_of_settled (h : holding s k = false) :
    releaseHeld k s =
      let u := { s with rte := { s.rte with held := s.rte.held.filter fun h => h.entry != k } }
      showSettled k (forEach (s.rte.held.filter fun h => h.entry == k) goOn
        (u.onRver k fun r => { r with old := none, retiredAt := none })) :=
  if_neg (ne_true_of_eq_false h)

end

/-! ### The commands -/

section
variable (s : State) (off : BitVec 26)

theorem exec_routeWrite (size : Nat) (v : BitVec 64) :
    exec (.routeWrite off size v) s = .next (kept s (settle (routeWrite off.toNat size v s))) := rfl
theorem exec_versionRetire :
    exec (.versionRetire off) s = .next (kept s (settle (versionRetire off.toNat s))) := rfl
theorem exec_ordHoldRelease :
    exec (.ordHoldRelease off) s = .next (kept s (settle (releaseHeld off.toNat s))) := rfl

end

/-- Settles O27, one command after the other: each way of it has its lemma above. -/
theorem routingVersions : Obligations.RoutingVersions := by
  unfold Obligations.RoutingVersions
  refine fun s off => ⟨fun v k ho hk hw => ?double, fun v k ho hk hw => ?narrow, fun v k ho hk => ?word,
    fun size v h8 h4 => ?unsupported, fun k => rfl, fun k v hold h => newVersion_of_free h v hold,
    fun k v hold x h => newVersion_of_retiring h v hold, ⟨fun e h => ?retires, fun h => ?busy⟩, fun h => ?holds, fun h => ?goesOn⟩
  case double => rw [exec_routeWrite, routeWrite_double ho hk hw]
  case narrow => rw [exec_routeWrite, routeWrite_double_narrow ho hk hw]
  case word => rw [exec_routeWrite, routeWrite_word ho, routeWrite32_of_key hk]
  case unsupported => rw [exec_routeWrite, routeWrite_unsupported h8 h4]
  case retires =>
    rw [exec_versionRetire]
    split
    next v hold hp => rw [versionRetire_of_pending h hp]; rfl
    next hp => rw [versionRetire_of_noPending h hp]; rfl
  case busy => rw [exec_versionRetire, versionRetire_of_busy h]
  case holds => rw [exec_ordHoldRelease, releaseHeld_of_holding h]
  case goesOn => rw [exec_ordHoldRelease, releaseHeld_of_settled h]

end Sys2Proof.Machine
end

section
/-! SUPPORT. Scheduling: when each timer, shed, calender slot and sample is due, and what it then does (R210, R211, R222, R223, R225,
R230, R239). -/

namespace Sys2Proof.Machine

/-! ### Ages, promotion, samples -/

/-- One queue at the tick: its age advances when it is eligible and was not granted (R210). -/
def ageQueue (k : Nat) (s : State) : State :=
  if eligible s (k / 8) (k % 8) = true ∧ (s.qsch k).granted = false then s.onQsch k fun r => { r with age := r.age + 1 } else s

theorem ageTick_eq (s : State) :
    ageTick s =
      let u := forEach ((s.core.eq.map (·.1)).filter fun k => 2 ≤ k % 8) ageQueue s
      if s.tbase < s.sched.ageAt then s
      else { u with sched := { u.sched with
        q := Sparse.mapVals (fun _ => {}) (fun _ r => { r with granted := false }) u.sched.q
        ageAt := s.tbase / 1000 * 1000 + 1000 } } := by
  have hstep : (fun k (u : State) => if eligible u (k / 8) (k % 8) && !(u.qsch k).granted then
      u.onQsch k fun r => { r with age := r.age + 1 } else u) = ageQueue := by
    funext k u
    simp only [ageQueue, Bool.and_eq_true, Bool.not_eq_true']
  unfold ageTick
  rw [hstep]

theorem promote_eq (p q : Nat) (s : State) :
    promote p q s =
      if 2 ≤ q ∧ s.fld (F.PRT_Q_CFG_starve_lim p q) ≠ 0 ∧ s.fld (F.PRT_Q_CFG_starve_lim p q) < (s.qsch (p * 8 + q)).age
          ∧ (s.qsch (p * 8 + q)).promoted = false ∧ s.eqQ (p * 8 + q) ≠ [] then
        (s.onQsch (p * 8 + q) fun r => { r with promoted := true }).bump (F.PRT_PROMO_CNT_count p q)
      else s := by
  simp only [promote, Bool.not_eq_true', List.isEmpty_eq_false_iff]

theorem sample_of_not_due {s : State} (h : s.flag F.SCH_SAMP_CFG_samp_en = false ∨ s.now < s.sched.sampleAt) : sample s = s :=
  if_pos (by simpa using h)

theorem sample_of_due {s : State} (h : ¬ (s.flag F.SCH_SAMP_CFG_samp_en = false ∨ s.now < s.sched.sampleAt)) :
    sample s =
      let v := { s with sched := { s.sched with sampleAt := s.now + min 1000 (max 1 (s.fld F.SCH_SAMP_CFG_interval)) * 1000 } }
      forEach (enabledPorts v) (fun p u => forEach (upTo 8) (fun q u =>
        (u.bump (F.SCH_HIST_DEPTH_count (p * 8 + q) (sampleBin (queueCells (u.eqQ (p * 8 + q)))))).bump
          (F.SCH_HIST_DELAY_count (p * 8 + q) (sampleBin (
            match u.eqQ (p * 8 + q) with | c :: _ => (u.tbase + 2 ^ 32 - c.stamp) % 2 ^ 32 / 32 | [] => 0)))) u) v :=
  if_neg (by simpa using h)

/-! ### Sheds and treadlings -/

theorem shedOpen_eq (p i : Nat) (s : State) :
    shedOpen p i s =
      if s.flag (F.PRT_TRD_CFG_trd_en p) = true ∧ i < s.fld (F.PRT_TRD_SHEDS_count p) ∧ (s.psch p).openShed = none
          ∧ shedStart (shedOf s p i) ≤ trdPhase s p ∧ trdPhase s p < shedEnd (shedOf s p i) then
        s.onPsch p fun r => { r with openShed := some i }
      else s := by
  simp only [shedOpen, Bool.and_eq_true, decide_eq_true_eq, Option.isNone_iff_eq_none, and_assoc]

section
variable {s : State} {p j : Nat}

theorem shedClose_of_inside (h : (s.psch p).openShed = some j)
    (hin : shedStart (shedOf s p j) ≤ trdPhase s p ∧ trdPhase s p < shedEnd (shedOf s p j)) : shedClose p s = s := by
  simp only [shedClose, h]
  exact if_pos hin

theorem shedClose_of_outside (h : (s.psch p).openShed = some j)
    (hout : ¬ (shedStart (shedOf s p j) ≤ trdPhase s p ∧ trdPhase s p < shedEnd (shedOf s p j))) :
    shedClose p s = endShed p s := by
  simp only [shedClose, h]
  exact if_neg hout

theorem shedClose_of_none (h : (s.psch p).openShed = none) : shedClose p s = s := by
  simp only [shedClose, h]

theorem treadlingHandover_of_loaded {l : List (BitVec 64)} (h : (s.psch p).newTrd = some l) :
    treadlingHandover p s =
      if periodNow s p = (s.psch p).newAfter ∧ trdPeriod s p ≠ 0 then s
      else (writeSheds p l (endShed p s)).onPsch p fun r => { r with newTrd := none } := by
  simp only [treadlingHandover, h, Bool.and_eq_true, decide_eq_true_eq, bne_iff_ne]

theorem treadlingHandover_of_not_loaded (h : (s.psch p).newTrd = none) : treadlingHandover p s = s := by
  simp only [treadlingHandover, h]

end

theorem schLate_eq (p : Nat) (s : State) :
    schLate p s =
      if s.flag (F.PRT_TRD_CFG_trd_en p) = true ∧ s.eqQ (p * 8 + 1) ≠ [] ∧ (s.qsch (p * 8 + 1)).lateDone = false
          ∧ (s.qsch (p * 8 + 1)).headAt + trdPeriod s p < s.now then
        (s.onQsch (p * 8 + 1) fun r => { r with lateDone := true }).bump (F.PRT_SCH_LATE_CNT_count p)
      else s := by
  simp only [schLate, Bool.and_eq_true, Bool.not_eq_true', List.isEmpty_eq_false_iff, decide_eq_true_eq, and_assoc]

/-! ### Calender slots -/

/-- A timer of a die acts when the die runs and the timer is due (R404, R438). -/
theorem whenRuns_of_timer {d at_ : Nat} {f : State → State} {s t : State} (hearly : s.now < at_ → f s = s)
    (hdue : at_ ≤ s.now → f s = t) :
    whenRuns d f s = if (inReset s d = false ∧ inStandby s d = false) ∧ at_ ≤ s.now then t else s := by
  by_cases hruns : inReset s d = false ∧ inStandby s d = false
  · have hf : whenRuns d f s = f s := if_neg (by simpa using hruns)
    by_cases hd : at_ ≤ s.now
    · rw [hf, hdue hd, if_pos ⟨hruns, hd⟩]
    · rw [hf, hearly (Nat.lt_of_not_le hd), if_neg fun h => hd h.2]
  · rw [if_neg fun h => hruns h.1]
    exact if_pos (by simpa only [not_and_or, Bool.not_eq_false, Bool.or_eq_true] using hruns)

theorem fineSlot_of_early {d : Nat} {s : State} (h : s.now < nth s.sched.fineAt d) : fineSlot d s = s := if_pos h
theorem coarseSlot_of_early {d : Nat} {s : State} (h : s.now < nth s.sched.coarseAt d) : coarseSlot d s = s := if_pos h

theorem fineSlot_of_due {d : Nat} {s : State} (h : nth s.sched.fineAt d ≤ s.now) :
    fineSlot d s =
      let slot := (nth s.sched.fptr d + 1) % 4096
      let u := { s with sched := { s.sched with
        fptr := setAt s.sched.fptr d slot, fineAt := setAt s.sched.fineAt d (nth s.sched.fineAt d + 8) } }
      forEach (onSlot u d false slot) recheckShaper u :=
  if_neg (Nat.not_lt.mpr h)

theorem coarseSlot_of_due {d : Nat} {s : State} (h : nth s.sched.coarseAt d ≤ s.now) :
    coarseSlot d s =
      let slot := (nth s.sched.cptr d + 1) % 4096
      let u := { s with sched := { s.sched with
        cptr := setAt s.sched.cptr d slot, coarseAt := setAt s.sched.coarseAt d (nth s.sched.coarseAt d + 32000) } }
      forEach (onSlot u d true slot) (fun k u =>
        match (u.qsch k).cal with
        | some c => if c.at_ - u.now ≤ 4095 * 8 then placeCal k (c.at_ - u.now) u else recheckShaper k u
        | none => u) u :=
  if_neg (Nat.not_lt.mpr h)

/-! ### The commands -/

section
variable (s : State) (port : Fin 512) (die : Fin 4)

theorem exec_ageTick : exec .ageTick s = .next (kept s (ageTick s)) := rfl
theorem exec_sample : exec .sample s = .next (kept s (sample s)) := rfl
theorem exec_promotion (q : Fin 8) : exec (.promotion port q) s = .next (kept s (promote port.val q.val s)) := rfl
theorem exec_shedOpen (i : Nat) : exec (.shedOpen port i) s = .next (kept s (shedOpen port.val i s)) := rfl
theorem exec_shedClose : exec (.shedClose port) s = .next (kept s (shedClose port.val s)) := rfl
theorem exec_treadlingHandover :
    exec (.treadlingHandover port) s = .next (kept s (finishLoad (treadlingHandover port.val s))) := rfl
theorem exec_schLate : exec (.schLate port) s = .next (kept s (schLate port.val s)) := rfl

theorem exec_fineSlot {t : State} (hdue : nth s.sched.fineAt die.val ≤ s.now → fineSlot die.val s = t) :
    exec (.fineSlot die) s
      = .next (kept s (if (inReset s die.val = false ∧ inStandby s die.val = false) ∧ nth s.sched.fineAt die.val ≤ s.now then t
          else s)) :=
  congrArg (fun u => Host.Outcome.next (kept s u)) (whenRuns_of_timer fineSlot_of_early hdue)

theorem exec_coarseSlot {t : State} (hdue : nth s.sched.coarseAt die.val ≤ s.now → coarseSlot die.val s = t) :
    exec (.coarseSlot die) s
      = .next (kept s (if (inReset s die.val = false ∧ inStandby s die.val = false) ∧ nth s.sched.coarseAt die.val ≤ s.now then t
          else s)) :=
  congrArg (fun u => Host.Outcome.next (kept s u)) (whenRuns_of_timer coarseSlot_of_early hdue)

end

/-- Settles O29: each command is its meaning, and each meaning has its lemma above; a calender slot goes through the timer of its
die. -/
theorem schedulingActs : Obligations.SchedulingActs := by
  unfold Obligations.SchedulingActs
  refine ⟨fun s => ⟨?tick, ?samples⟩, fun s port q => ?promotion, fun s port i => ?sheds, fun s die => ⟨?fine, ?coarse⟩⟩
  case tick => rw [exec_ageTick, ageTick_eq]; rfl
  case samples =>
    rw [exec_sample]
    split
    next h => rw [sample_of_not_due h]
    next h => exact congrArg (fun t => Host.Outcome.next (kept s t)) (sample_of_due h)
  case promotion => rw [exec_promotion, promote_eq]
  case sheds =>
    refine ⟨by rw [exec_shedOpen, shedOpen_eq], fun j h => ⟨fun hin => ?inside, fun hout => ?outside⟩, fun h => ?closed,
      fun l h => ?loaded, fun h => ?notLoaded, by rw [exec_schLate, schLate_eq]⟩
    case inside => rw [exec_shedClose, shedClose_of_inside h hin]
    case outside => rw [exec_shedClose, shedClose_of_outside h hout]
    case closed => rw [exec_shedClose, shedClose_of_none h]
    case loaded => rw [exec_treadlingHandover, treadlingHandover_of_loaded h]
    case notLoaded => rw [exec_treadlingHandover, treadlingHandover_of_not_loaded h]
  case fine => exact exec_fineSlot s die fineSlot_of_due
  case coarse => exact exec_coarseSlot s die coarseSlot_of_due

end Sys2Proof.Machine
end

section
/-! SUPPORT. Fabric time: the requests of a child, the answers of a switch, and the step, the slew and the lock of a child (R215,
R216, R218, R219). -/

namespace Sys2Proof.Machine

/-! ### The lock -/

section
variable (b : Bool) (s : State)

theorem setTimeLocked_time : (setTimeLocked b s).time = s.time := by
  unfold setTimeLocked
  split
  · rfl
  · cases b <;> rfl

theorem setTimeLocked_fld_err :
    (setTimeLocked b s).fld F.SCH_TIME_STATUS_err = s.fld F.SCH_TIME_STATUS_err := by
  have hset : (s.setFlag F.SCH_TIME_STATUS_locked b).fld F.SCH_TIME_STATUS_err = s.fld F.SCH_TIME_STATUS_err :=
    State.fld_setFlag_ne s _ _ b (by decide)
  unfold setTimeLocked
  split
  · rfl
  · cases b
    · exact (State.fld_bumpBy_ne _ F.SCH_TIME_UNLOCK_CNT_count _ 1 (by decide)).trans hset
    · exact hset

theorem timeLocked_setTimeLocked : timeLocked (setTimeLocked b s) = b := by
  have hset : (s.setFlag F.SCH_TIME_STATUS_locked b).flag F.SCH_TIME_STATUS_locked = b :=
    State.flag_setFlag_same s _ b (by decide) (by decide)
  unfold setTimeLocked
  split
  next h => exact beq_iff_eq.mp h
  next =>
    cases b
    · exact (State.flag_setFld_ne _ F.SCH_TIME_UNLOCK_CNT_count _ _ (by decide)).trans hset
    · exact hset

end

/-! ### The exchange of a child -/

theorem showParent_now (s : State) : (showParent s).now = s.now := by
  unfold showParent
  split <;> rfl

/-- When the exchange is due: a placed switch that is not the master, with time_en, at its interval (R215). -/
def ExchangeDue (s : State) : Prop :=
  s.flag F.SCH_TIME_CFG_time_en = true ∧ placed s = true ∧ s.flag F.SCH_TIME_STATUS_master = false ∧ s.time.nextAt ≤ s.now

/-- What a due exchange starts from: the parent shown, the next exchange one interval away. -/
def exchangeStart (s : State) : State :=
  { showParent s with time := { (showParent s).time with nextAt := s.now + syncNs (showParent s) } }

theorem exchangeStart_eq (s : State) :
    exchangeStart s
      = { showParent s with time := { (showParent s).time with nextAt := (showParent s).now + syncNs (showParent s) } } := by
  rw [exchangeStart, ← showParent_now s]

/-- `s` after the missed answers are counted; the fourth unlocks (R216). -/
def countMissed (s : State) : State :=
  let missed := if s.time.t1.isSome = true then s.time.missed + 1 else s.time.missed
  let v := { s with time := { s.time with missed := missed } }
  if 4 ≤ missed then setTimeLocked false { v with time := { v.time with good := 0 } } else v

/-- The REQ with the next sequence number leaves on the port toward the parent (R215). -/
def sendTimeReq (port : Nat) (s : State) : State :=
  let seq := (s.time.seq + 1) % 256
  let x := { s with time := { s.time with seq := seq, t1 := some (ftime s) } }
  originate port (.ctl (mkCtl 0x11 0 (0x1000 + seq) 0 0 7 (leBytes 8 (ftime x)))) x

theorem timeExchangeAt_of_not_due {s : State} (h : ¬ ExchangeDue s) : timeExchangeAt s = s := by
  refine if_pos ?_
  simp only [ExchangeDue, not_and_or, Bool.not_eq_true, Bool.not_eq_false, Nat.not_le] at h
  simpa [or_assoc] using h

theorem timeExchangeAt_of_due {s : State} (h : ExchangeDue s) :
    timeExchangeAt s =
      match timeParent (exchangeStart s) with
      | none => setTimeLocked false { exchangeStart s with time := { (exchangeStart s).time with t1 := none } }
      | some (_, port) => sendTimeReq port (countMissed (exchangeStart s)) := by
  obtain ⟨hen, hplaced, hmaster, hnext⟩ := h
  rw [exchangeStart_eq]
  exact if_neg (by simp [hen, hplaced, hmaster, hnext])

theorem timeExchangeAt_of_noParent {s : State} (h : ExchangeDue s) (hp : timeParent (exchangeStart s) = none) :
    timeExchangeAt s
      = setTimeLocked false { exchangeStart s with time := { (exchangeStart s).time with t1 := none } } := by
  rw [timeExchangeAt_of_due h, hp]

theorem timeExchangeAt_of_parent {s : State} (h : ExchangeDue s) {k port : Nat}
    (hp : timeParent (exchangeStart s) = some (k, port)) :
    timeExchangeAt s = sendTimeReq port (countMissed (exchangeStart s)) := by
  rw [timeExchangeAt_of_due h, hp]

/-! ### The answer -/

theorem timeReq_of_port {s : State} {p : Nat} (h : isFab s p = true ∨ isEp s p = true) (c : Ctl) :
    timeReq p c s
      = originate p (.ctl (mkCtl 0x11 0 (0x2000 + (ofBool (timeLocked s) * 2048 + ofBool (s.flag F.SCH_TIME_STATUS_master) * 1024)
          + bits c.ks.toNat 0 8) 0 0 23 (c.body.take 8 ++ leBytes 8 (ftime s) ++ leBytes 8 (ftime s)))) s := by
  rw [timeReq, if_pos (by simpa using h), ← Nat.add_assoc 0x2000]

theorem timeReq_of_other {s : State} {p : Nat} (hf : isFab s p = false) (he : isEp s p = false) (c : Ctl) :
    timeReq p c s = s :=
  if_neg (by simp [hf, he])

/-! ### The answer at the child -/

theorem timeRsp_of_unexpected {s : State} {c : Ctl} (h : s.time.t1 = none ∨ bits c.ks.toNat 0 8 ≠ s.time.seq) (p : Nat) :
    timeRsp p c s = s.bump F.SCH_TIME_ERR_CNT_count := by
  unfold timeRsp
  cases ht : s.time.t1 with
  | none => rfl
  | some t => exact if_pos (by simpa [ht] using h)

/-- The offset that an RSP shows: half of (t2 - t1) - (t4 - t3), rounded down (R215). -/
def rspOffset (s : State) (c : Ctl) : Int := ((timeAt c 8 - timeAt c 0) - (Int.ofNat (ftime s) - timeAt c 16)) / 2

/-- The good offsets in a row after an offset `o` from a parent that is locked or not. -/
def goodAfter (s : State) (up : Bool) (o : Int) : Nat := if up = true ∧ o.natAbs ≤ 512 then s.time.good + 1 else 0

/-- The offsets beyond 4 ns in a row after `o`. -/
def badAfter (s : State) (o : Int) : Nat := if 1024 < o.natAbs then s.time.bad + 1 else 0

/-- The reports in a row that the parent is not locked; one through the fallback parent counts nothing (R214). -/
def reportsAfter (s : State) (up : Bool) : Nat :=
  let viaParent := match timeParent s with | some (k, _) => k == 1 | none => false
  if viaParent then (if up then 0 else s.time.unlockedReports + 1) else s.time.unlockedReports

/-- The most that one interval slews (R215). -/
def slewLimit (s : State) : Int := Int.ofNat (syncNs s * 256 / 5000)

/-- The exchange and fabric time after the offset `o`: a step beyond 1 µs, else a slew over one interval (R215). -/
def steered (s : State) (up : Bool) (o : Int) : TimeSt :=
  let far := 256000 < o.natAbs
  { (rebaseTime s).time with
    t1 := none, missed := 0, good := if far then 0 else goodAfter s up o, bad := badAfter s o
    unlockedReports := reportsAfter s up
    val := if far then ((Int.ofNat (ftime s) + o) % 2 ^ 64).toNat else ftime s
    corr := if far then 0 else max (-slewLimit s) (min (slewLimit s) o), span := if far then 0 else syncNs s }

/-- `s` with the offset `o` shown and fabric time steered by it. -/
def offsetTaken (s : State) (up : Bool) (o : Int) : State :=
  { (rebaseTime s).setFld F.SCH_TIME_STATUS_err (errBits o) with time := steered s up o }

/-- The lock after the offset `o` (R216). -/
def lockAfter (s : State) (up : Bool) (o : Int) (u : State) : State :=
  if 256000 < o.natAbs ∨ up = false ∨ 2 ≤ badAfter s o then setTimeLocked false u
  else if 8 ≤ goodAfter s up o then setTimeLocked true u else u

theorem syncNs_setErr (s : State) (n : Nat) : syncNs ((rebaseTime s).setFld F.SCH_TIME_STATUS_err n) = syncNs s := by
  unfold syncNs
  rw [State.fld_setFld_ne _ _ _ _ (by decide)]
  rfl

/-- An awaited RSP: its offset is taken, and the lock follows. -/
theorem timeRsp_of_awaited {s : State} {c : Ctl} {t : Nat} (ht : s.time.t1 = some t) (hseq : bits c.ks.toNat 0 8 = s.time.seq)
    (p : Nat) :
    timeRsp p c s = lockAfter s (bitOf c.ks.toNat 11) (rspOffset s c) (offsetTaken s (bitOf c.ks.toNat 11) (rspOffset s c)) := by
  unfold timeRsp
  rw [ht]
  dsimp only
  rw [if_neg (by simp [hseq])]
  simp only [syncNs_setErr, decide_eq_true_eq, Bool.or_eq_true, Bool.and_eq_true, Bool.not_eq_true', or_assoc]
  rfl

section
variable (s : State) (up : Bool) (o : Int)

theorem lockAfter_time (u : State) : (lockAfter s up o u).time = u.time := by
  unfold lockAfter
  split
  · exact setTimeLocked_time false u
  · split
    · exact setTimeLocked_time true u
    · rfl

theorem lockAfter_fld_err (u : State) :
    (lockAfter s up o u).fld F.SCH_TIME_STATUS_err = u.fld F.SCH_TIME_STATUS_err := by
  unfold lockAfter
  split
  · exact setTimeLocked_fld_err false u
  · split
    · exact setTimeLocked_fld_err true u
    · rfl

theorem timeLocked_lockAfter (u : State) :
    timeLocked (lockAfter s up o u)
      = if 256000 < o.natAbs ∨ up = false ∨ 2 ≤ badAfter s o then false
        else if 8 ≤ goodAfter s up o then true else timeLocked u := by
  unfold lockAfter
  split
  · exact timeLocked_setTimeLocked false u
  · split
    · exact timeLocked_setTimeLocked true u
    · rfl

theorem errBits_lt : errBits o < 2 ^ 16 := by
  unfold errBits
  omega

theorem offsetTaken_fld_err : (offsetTaken s up o).fld F.SCH_TIME_STATUS_err = errBits o :=
  (State.fld_setFld_same _ F.SCH_TIME_STATUS_err _ (by decide)).trans (Nat.mod_eq_of_lt (errBits_lt o))

theorem timeLocked_offsetTaken : timeLocked (offsetTaken s up o) = timeLocked s :=
  State.flag_setFld_ne (rebaseTime s) F.SCH_TIME_STATUS_err F.SCH_TIME_STATUS_locked _ (by decide)

variable {s o}

/-- An offset beyond 1 µs steps fabric time, modulo 2^64 (R215). -/
theorem steered_of_far (h : 256000 < o.natAbs) :
    (steered s up o).corr = 0 ∧ Int.ofNat (steered s up o).val = (Int.ofNat (ftime s) + o) % 2 ^ 64 := by
  simp only [steered, if_pos h]
  exact ⟨trivial, Int.toNat_of_nonneg (Int.emod_nonneg _ (by decide))⟩

/-- Any other slews it within the limit (R215). -/
theorem steered_of_near (h : ¬ 256000 < o.natAbs) :
    (steered s up o).corr = max (-slewLimit s) (min (slewLimit s) o) ∧ (steered s up o).val = ftime s
      ∧ (steered s up o).span = syncNs s := by
  simp only [steered, if_neg h, and_self]

end

/-! ### TIME packets -/

/-- A good TIME packet is taken on any port, restricted or not. -/
theorem controlGood_time {port : Nat} {c : Ctl} (hc : c.ckind = 0x11#5) (s : State) :
    controlGood port c s
      = mirrorOnly port (mirSelect s false port (.ctl c)) (.ctl c) (timePacket port c (giveCredits port c.queue.toNat 1 s)) := by
  have hdisc : c.ckind ≠ 0x10#5 := by rw [hc]; decide
  rw [controlGood, if_neg hdisc, if_pos hc]
  rfl

/-- What each type of a TIME packet does (Table 06-2). -/
theorem timePacket_rows (port : Nat) (c : Ctl) :
    timePacket port (ctlOf 0x11 1 c) = timeReq port (ctlOf 0x11 1 c)
      ∧ timePacket port (ctlOf 0x11 2 c) = timeRsp port (ctlOf 0x11 2 c) := by
  constructor <;> (funext s; rw [timePacket, type_ctlOf]; rfl)

/-! ### The commands -/

section
variable (s : State) (port : Fin 512) (c : Ctl)

theorem exec_timeExchange {t : State} (h : timeExchangeAt s = t) : exec .timeExchange s = .next (kept s (settle t)) :=
  congrArg (fun u => Host.Outcome.next (kept s (settle u))) h

theorem exec_req :
    exec (.req port c) s
      = .next (kept s (controlArrives port.val (ctlOf 0x11 1 c) (timeReq port.val (ctlOf 0x11 1 c)) s)) := by
  rw [← (timePacket_rows port.val c).1, ← arrive_ctl (controlGood_time rfl)]
  rfl

theorem exec_rsp :
    exec (.rsp port c) s
      = .next (kept s (controlArrives port.val (ctlOf 0x11 2 c) (timeRsp port.val (ctlOf 0x11 2 c)) s)) := by
  rw [← (timePacket_rows port.val c).2, ← arrive_ctl (controlGood_time rfl)]
  rfl

end

/-- Settles O30: the exchange by whether it is due and by its parent, a TIME packet by the effect of its type, and an awaited RSP by
the offset that it shows. -/
theorem fabricTimeExchange : Obligations.FabricTimeExchange := by
  unfold Obligations.FabricTimeExchange
  refine ⟨fun s => ?exchange, fun s port c => ⟨exec_req s port c, exec_rsp s port c⟩, fun s p c => ?answers⟩
  case exchange =>
    refine ⟨fun h => exec_timeExchange s (timeExchangeAt_of_not_due h),
      fun h hp => exec_timeExchange s (timeExchangeAt_of_noParent h hp), fun k port h hp => ?_⟩
    exact exec_timeExchange s (timeExchangeAt_of_parent h hp)
  case answers =>
    refine ⟨fun h => timeReq_of_port h c, fun hf he => timeReq_of_other hf he c, fun h => timeRsp_of_unexpected h p,
      fun t ht hseq => ?_⟩
    have hlock := timeLocked_lockAfter s (bitOf c.ks.toNat 11) (rspOffset s c) (offsetTaken s (bitOf c.ks.toNat 11) (rspOffset s c))
    rw [timeLocked_offsetTaken] at hlock
    dsimp only
    rw [timeRsp_of_awaited ht hseq, lockAfter_fld_err, lockAfter_time, offsetTaken_fld_err]
    exact ⟨hlock, rfl, rfl, rfl, rfl, steered_of_far _, steered_of_near _⟩

end Sys2Proof.Machine
end

section
/-! SUPPORT. Entries of the group table: what a write of GRP_ENTRY_CTL does by its commit bit and its check, when a retiring version
ends, what a new version leaves in its entry (R243, R244, R271). -/

namespace Sys2Proof.Machine

/-! ### Commits -/

section
variable {e : Nat} {val : Word} {s : State}

theorem groupCommit_of_staged (h : bitOf val.toNat 16 = false) : groupCommit e val s = s.storeReg (R.GRP_ENTRY_CTL e) val := by
  simp only [groupCommit, h, Bool.not_false, if_true]

theorem groupCommit_of_refused (h : bitOf val.toNat 16 = true) {u : State} (hu : s.storeReg (R.GRP_ENTRY_CTL e) val = u)
    (ha : commitAccepted u e (stagedWords u e) = false) :
    groupCommit e val s = u.setFlag (F.GRP_STATUS_cfg_err e) true := by
  simp only [groupCommit, h, hu, ha, Bool.not_true, Bool.false_eq_true, if_false]

/-- An accepted commit pends while a version retires, and else makes its version. -/
theorem groupCommit_of_accepted (h : bitOf val.toNat 16 = true) {u : State} (hu : s.storeReg (R.GRP_ENTRY_CTL e) val = u)
    (ha : commitAccepted u e (stagedWords u e) = true) :
    groupCommit e val s
      = if (s.grpE e).retiring.isSome = true then
          showEntry e ((u.setFlag (F.GRP_STATUS_cfg_err e) false).setGrpE e
            { s.grpE e with pending := some (stagedWords u e) })
        else newVer e (stagedWords u e) (u.setFlag (F.GRP_STATUS_cfg_err e) false) := by
  have hg : (u.setFlag (F.GRP_STATUS_cfg_err e) false).grpE e = s.grpE e := by rw [← hu]; rfl
  simp only [groupCommit, h, hu, ha, hg, Bool.not_true, Bool.false_eq_true, if_false, if_true]

/-! ### Retiring versions -/

/-- The entry when its retiring version has ended: its pending commit is taken off. -/
def retirementEnded (e : Nat) (s : State) : State := s.setGrpE e { s.grpE e with retiring := none, pending := none }

theorem groupRetire_of_none (h : (s.grpE e).retiring = none) : groupRetire e s = s := by
  simp only [groupRetire, h]

theorem groupRetire_of_busy {vn ep : Nat} (h : (s.grpE e).retiring = some (vn, ep)) (hb : verBusy s e vn = true) :
    groupRetire e s = s := by
  simp only [groupRetire, h, hb, if_true]

theorem groupRetire_of_pending {vn ep : Nat} (h : (s.grpE e).retiring = some (vn, ep)) (hb : verBusy s e vn = false)
    {w : List Word} (hp : (s.grpE e).pending = some w) : groupRetire e s = newVer e w (retirementEnded e s) := by
  simp only [groupRetire, h, hb, hp, Bool.false_eq_true, if_false, retirementEnded]

theorem groupRetire_of_noPending {vn ep : Nat} (h : (s.grpE e).retiring = some (vn, ep)) (hb : verBusy s e vn = false)
    (hp : (s.grpE e).pending = none) : groupRetire e s = showEntry e (retirementEnded e s) := by
  simp only [groupRetire, h, hb, hp, Bool.false_eq_true, if_false, retirementEnded]

end

/-! ### New versions -/

theorem showEntry_grp (e : Nat) (s : State) : (showEntry e s).grp = s.grp := by
  simp only [showEntry, State.setFlag_frame, State.setFld_frame]

theorem showEntry_grpE (e k : Nat) (s : State) : (showEntry e s).grpE k = s.grpE k := by
  rw [State.grpE, showEntry_grp, State.grpE]

/-- The entry as a new version leaves it. -/
theorem newVer_grpE (e : Nat) (words : List Word) (s : State) :
    (newVer e words s).grpE e
      = { active := ⟨words, s.grp.nextVn⟩, pending := none,
          retiring := if verBusy s e (s.grpE e).active.vn = true then some ((s.grpE e).active.vn, vEpoch (s.grpE e).active)
            else none } := by
  rw [newVer, showEntry_grpE]
  exact (State.setGrpE_grpE s e _ e).trans (if_pos rfl)

theorem newVer_nextVn (e : Nat) (words : List Word) (s : State) : (newVer e words s).grp.nextVn = s.grp.nextVn + 1 := by
  rw [newVer, showEntry_grp]

/-! ### The statement -/

theorem exec_groupCommit (g : Fin 16384) (val : Word) (s : State) :
    exec (.groupCommit g val) s = .next (kept s (settle (groupCommit g.val val s))) := rfl
theorem exec_groupVersionRetire (g : Fin 16384) (s : State) :
    exec (.groupVersionRetire g) s = .next (kept s (settle (groupRetire g.val s))) := rfl

/-- Settles O31: a commit by its bit and its check, a retirement by what is in flight and what pends, a new version by the entry that
it leaves. -/
theorem groupVersions : Obligations.GroupVersions := by
  unfold Obligations.GroupVersions
  refine ⟨fun s g val => ?commit, fun s g => ?retire, fun s e words => ?made⟩
  case commit =>
    intro e u ok
    rw [exec_groupCommit]
    cases hc : bitOf val.toNat 16 with
    | false => rw [if_pos rfl, groupCommit_of_staged hc]
    | true =>
      rw [if_neg Bool.true_eq_false_eq_False]
      cases ha : commitAccepted u e (stagedWords u e) with
      | false => rw [if_pos rfl, groupCommit_of_refused hc rfl ha]
      | true => rw [if_neg Bool.true_eq_false_eq_False, groupCommit_of_accepted hc rfl ha]
  case retire =>
    rw [exec_groupVersionRetire]
    refine ⟨fun h => by rw [groupRetire_of_none h], fun vn ep h hb => by rw [groupRetire_of_busy h hb],
      fun vn ep h hb => ⟨fun w hp => ?_, fun hp => ?_⟩⟩
    · rw [groupRetire_of_pending h hb hp]; rfl
    · rw [groupRetire_of_noPending h hb hp]; rfl
  case made =>
    dsimp only
    rw [newVer_grpE]
    exact ⟨rfl, rfl, newVer_nextVn e words s, rfl⟩

end Sys2Proof.Machine
end

section
/-! SUPPORT. Stream trackers: where an input in transit goes, what a packet of RES becomes, and when SENT and TMO act (Table 07-6,
R262 to R266, R293). -/

namespace Sys2Proof.Machine

/-! ### Inputs -/

section
variable {i : Nat} {s : State}

/-- Input `i` has left the transit. -/
def leftTransit (i : Nat) (s : State) : State := { s with grp := { s.grp with transit := s.grp.transit.eraseIdx i } }

theorem inArrive_of_none (h : s.grp.transit[i]? = none) : inArrive i s = s := by
  simp only [inArrive, h]

section
variable {x : Input}

theorem inArrive_of_shaped (h : s.grp.transit[i]? = some x) (hx : x.shaped ≠ 0) : inArrive i s = s := by
  simp only [inArrive, h, bne_iff_ne.mpr hx, if_true]

theorem inArrive_of_free (h : s.grp.transit[i]? = some x) (hx : x.shaped = 0) {g : GrpPkt} (hg : grpPkt x.pkt = g)
    (hf : findTrk (leftTransit i s) g.ctx (groupId g.addr) (inputPick (leftTransit i s) x g) = none) :
    inArrive i s = inFree x g (inputPick (leftTransit i s) x g) (leftTransit i s) := by
  subst hg
  unfold leftTransit at hf
  simp only [inArrive, h, hx, hf, leftTransit, bne_self_eq_false, Bool.false_eq_true, if_false]

theorem inArrive_of_open (h : s.grp.transit[i]? = some x) (hx : x.shaped = 0) {g : GrpPkt} (hg : grpPkt x.pkt = g) {t : Nat}
    {r : Tracker} (hf : findTrk (leftTransit i s) g.ctx (groupId g.addr) (inputPick (leftTransit i s) x g) = some (t, r)) :
    inArrive i s = inOpen t r x g (leftTransit i s) := by
  subst hg
  unfold leftTransit at hf
  simp only [inArrive, h, hx, hf, leftTransit, bne_self_eq_false, Bool.false_eq_true, if_false]

end

section
variable {t : Tracker} {x : Input} {g : GrpPkt}

/-- The tracker with the contributor of an accepted input marked; a partial has none. -/
def contributedBy (who : Option Nat) (t : Tracker) : Tracker :=
  match who with
  | some b => if bitOf t.contrib b = true then t else { t with contrib := t.contrib + 2 ^ b }
  | none => t

theorem inOpen_of_not_accepted (h : acceptedAs s t.ver x g t.pick = none) : inOpen i t x g s = notAccepted x g t.pick s := by
  simp only [inOpen, h]

theorem inOpen_of_malformed {who : Option Nat} (h : acceptedAs s t.ver x g t.pick = some who)
    (hp : inputPlace s t.ver t.exact x g t.pick = none) : inOpen i t x g s = malformed x s := by
  simp only [inOpen, h, hp]

/-- In ACC an accepted input is added unless more elements would have arrived than the tracker expects. -/
theorem inOpen_of_acc (ht : t.st = .acc) {who : Option Nat} (h : acceptedAs s t.ver x g t.pick = some who)
    {first count elems : Nat} (hp : inputPlace s t.ver t.exact x g t.pick = some (first, count, elems)) :
    inOpen i t x g s
      = if t.arrived + elems ≤ t.expected then addInput i (contributedBy who t) x g first count elems s
        else overcount i (contributedBy who t) (dropInput x s) := by
  simp only [← Nat.not_lt, ite_not]
  cases who with
  | none => simp only [inOpen, h, hp, ht, contributedBy]
  | some b =>
    cases hb : bitOf t.contrib b with
    | true => simp only [inOpen, h, hp, ht, contributedBy, hb, if_true]
    | false => simp only [inOpen, h, hp, ht, contributedBy, hb, Bool.false_eq_true, if_false]

end

end

/-! ### Results -/

section
variable {port : Nat} {s : State}

theorem arrive_control (port : Nat) (c : Ctl) (s : State) :
    arrive port (.ctl c) s
      = if TakesPackets s port then
          settle (if FitsControl c then controlGood port c (disarmed port s) else protoError port (disarmed port s))
        else s := by
  by_cases h : TakesPackets s port
  · rw [if_pos h, arrive_of_takesPackets h, receivePkt]
    by_cases hfit : FitsControl c
    · rw [if_pos hfit, receiveCtl_of_fits hfit]
    · rw [if_neg hfit, receiveCtl_of_not_fits hfit]
  · rw [if_neg h, arrive_of_not_takesPackets h]

theorem fabricGroup_of_result {pk : Pkt} (hst : (grpPkt pk).stage = 3) (hg : gateClosed s (grpPkt pk).ctx = false) :
    fabricGroup port pk s = resultFate port pk s := by
  simp only [fabricGroup, hst, hg, Bool.false_eq_true, if_false, if_true]

theorem lookup_of_group {p : Packet} (he : isEp s port = false) (hg : isGroupPkt p = true) :
    lookup port p s = fabricGroup port (.data p) s := by
  simp only [lookup, he, transitData, hg, Bool.false_eq_true, if_false, if_true]

/-- A SACC on a fabric port that is neither restricted nor a service port goes on there. -/
theorem controlGood_fabricSacc {c : Ctl} (he : isEp s port = false) (hc : c.ckind = 1#5) (hr : restricted s port = false)
    (hs : isSvc s port = false) :
    controlGood port c s = fabricSacc port c (mirSelect s false port (.ctl c)) s := by
  simp [controlGood, hc, hr, hs, he]

end

/-! ### SENT -/

section
variable {i : Nat} {t : Tracker} {s : State}

/-- A packet of a tracker's emission has not been enqueued yet. -/
abbrev StillEmitting (s : State) (t : Tracker) : Prop :=
  waitingCopy s (outCopy s t) = true ∨ s.rte.held.any (heldOut s t) = true

/-- A tracker has returned its sheets, and the root has folded its watermark. -/
def emissionEnded (i : Nat) (t : Tracker) (s : State) : State :=
  if t.root = true then watermarkFold t (freeSheets i t s) else freeSheets i t s

/-- SENT has something to do: the tracker is in EMIT, and its emission is done and enqueued. -/
theorem sentTrk_eq (h : s.trkE i = some t) :
    sentTrk i s
      = if t.st ≠ .emit ∨ t.emitted = false ∨ StillEmitting s t then s
        else if trkMembers (emissionEnded i t s) { t with sheets := [] } = [] then
          freeTrk i { t with sheets := [] } (emissionEnded i t s)
        else (emissionEnded i t s).setTrk i (some (withTimer (emissionEnded i t s)
          { t with sheets := [], st := if t.root = true then .write else .wait })) := by
  have hwait : (t.st != .emit || !t.emitted || waitingCopy s (outCopy s t) || s.rte.held.any (heldOut s t)) = true
      ↔ t.st ≠ .emit ∨ t.emitted = false ∨ StillEmitting s t := by
    simp only [StillEmitting, Bool.or_eq_true, bne_iff_ne, Bool.not_eq_true', or_assoc]
  simp only [sentTrk, h, hwait, List.isEmpty_iff]
  rfl

theorem sentTrk_of_none (h : s.trkE i = none) : sentTrk i s = s := by
  simp only [sentTrk, h]

/-! ### TMO -/

theorem trkTimeout_of_none (h : s.trkE i = none) : trkTimeout i s = s := by
  simp only [trkTimeout, h]

theorem trkTimeout_of_stopped (h : s.trkE i = some t) (hd : t.deadline = none) : trkTimeout i s = s := by
  simp only [trkTimeout, h, hd]

theorem trkTimeout_of_early (h : s.trkE i = some t) {due : Nat} (hd : t.deadline = some due) (hle : s.now ≤ due) :
    trkTimeout i s = s := by
  simp only [trkTimeout, h, hd, hle, if_true]

/-- A pick timer that is past, by the state of its tracker. -/
theorem trkTimeout_of_past (h : s.trkE i = some t) {due : Nat} (hd : t.deadline = some due) (hlt : ¬ s.now ≤ due) :
    (t.st = .failed → trkTimeout i s = freeTrk i t s)
      ∧ (t.st = .emit → trkTimeout i s = s)
      ∧ (t.st = .acc ∨ t.st = .wait ∨ t.st = .write →
          trkTimeout i s = (endTrk i t 3 s).bump (F.CTX_PICK_TMO_CNT_count t.ctx)) := by
  have hpast : trkTimeout i s
      = if t.st = .failed then freeTrk i t s
        else if t.st = .emit then s
        else (endTrk i t 3 s).bump (F.CTX_PICK_TMO_CNT_count t.ctx) := by
    simp only [trkTimeout, h, hd, hlt, if_false, beq_iff_eq]
  rw [hpast]
  refine ⟨fun hf => if_pos hf, fun he => by simp [he], fun hrun => ?_⟩
  rcases hrun with hr | hr | hr <;> simp [hr]

end

/-! ### The statement -/

section
variable (s : State)

theorem exec_inEvent (i : Nat) : exec (.inEvent i) s = .next (kept s (settle (inArrive i s))) := rfl
theorem exec_res (port : Fin 512) (pk : Pkt) : exec (.res port pk) s = .next (kept s (arrive port.val pk s)) := rfl
theorem exec_sent (i : Fin 16384) : exec (.sent i) s = .next (kept s (settle (sentTrk i.val s))) := rfl
theorem exec_tmo (i : Fin 16384) : exec (.tmo i) s = .next (kept s (settle (trkTimeout i.val s))) := rfl

end

/-- Settles O32: each event by the case of its row of Table 07-6, and RES by the way that its packet goes. -/
theorem trackersFollowTheirTable : Obligations.TrackersFollowTheirTable := by
  unfold Obligations.TrackersFollowTheirTable
  refine ⟨fun s i => ?input, fun s i t x g ht => ?accumulate, fun s port p => ?dataResult, fun s port c => ?controlResult,
    fun s n p c he => ?results, fun s i => ?timers⟩
  case input =>
    rw [exec_inEvent]
    refine ⟨fun h => by rw [inArrive_of_none h], fun x h => ⟨fun hx => by rw [inArrive_of_shaped h hx],
      fun hx hf => ?_, fun t r hx hf => ?_⟩⟩
    · rw [inArrive_of_free h hx rfl hf]; rfl
    · rw [inArrive_of_open h hx rfl hf]; rfl
  case accumulate =>
    refine ⟨inOpen_of_not_accepted, fun who h => ⟨inOpen_of_malformed h, fun first count elems hp => ?_⟩⟩
    exact inOpen_of_acc ht h hp
  case dataResult =>
    dsimp only
    rw [exec_res, arrive_data]
  case controlResult =>
    dsimp only
    rw [exec_res, arrive_control]
  case results =>
    refine ⟨fun hg hst hc => ?_, controlGood_fabricSacc he, fabricGroup_of_result⟩
    rw [lookup_of_group he hg, fabricGroup_of_result hst hc]
  case timers =>
    rw [exec_sent, exec_tmo]
    refine ⟨fun h => ⟨by rw [sentTrk_of_none h], by rw [trkTimeout_of_none h]⟩, fun t h => ?_⟩
    rw [sentTrk_eq h]
    refine ⟨fun hw => by rw [if_pos hw], fun hst hem hb => ?sent, fun hd => by rw [trkTimeout_of_stopped h hd],
      fun due hd => ?tmo⟩
    case sent =>
      have hdone : ¬ (t.st ≠ .emit ∨ t.emitted = false ∨ StillEmitting s t) := by
        rintro (hne | hne | hne)
        · exact hne hst
        · rw [hem] at hne; exact Bool.noConfusion hne
        · exact hb hne
      rw [if_neg hdone]
      rfl
    case tmo =>
      by_cases hle : s.now ≤ due
      · rw [if_pos hle, trkTimeout_of_early h hd hle]
      · obtain ⟨hfailed, hemit, hrun⟩ := trkTimeout_of_past h hd hle
        rw [if_neg hle]
        cases hst : t.st with
        | failed => rw [hfailed hst]
        | emit => rw [hemit hst]
        | acc => rw [hrun (.inl hst)]
        | wait => rw [hrun (.inr (.inl hst))]
        | write => rw [hrun (.inr (.inr hst))]

end Sys2Proof.Machine
end

section
/-! SUPPORT. Control of groups: the abort of a pick or a group, its end, the lag of a member, the home table and the trace ring (R259,
R265, R273, R274, R365). -/

namespace Sys2Proof.Machine

/-! ### Aborts -/

/-- An abort whose end shows result `r` and `n` picks. -/
def abortEnding (r n : Nat) (s : State) : State := { s with grp := { s.grp with abortAt := some (r, n, s.now) } }

/-- What goes before an abort in its cycle: emissions that are done, and picks that commit (R265). -/
def cycleCommitted (s : State) : State := commits (forEach s.grp.trk (fun x => sentTrk x.1) s)

/-- The open trackers that an abort names: those of a group, or the one of its pick. -/
def abortNames (val : Word) (ctx g : Nat) (s : State) : List (Nat × Tracker) :=
  s.grp.trk.filterMap fun x => match x.2 with
    | some t => if t.ctx == ctx && t.group == g && (bitOf val.toNat 30 || t.pick == bits val.toNat 0 23) then some (x.1, t) else none
    | none => none

/-- The trackers end with outcome ABORTED, and the abort answers how many they were. -/
def abortTrackers (hit : List (Nat × Tracker)) (s : State) : State :=
  abortEnding (if hit = [] then 2 else 1) hit.length (forEach hit (fun x => endTrk x.1 x.2 2) s)

section
variable {val : Word} {s w : State}

theorem abortGroup_of_idle (hw : s.storeReg R.GLB_GRP_ABORT val = w)
    (h : bitOf val.toNat 31 = false ∨ w.flag F.GLB_GRP_ABORT_STATUS_busy = true) : abortGroup val s = w := by
  have hidle : (!bitOf val.toNat 31 || w.flag F.GLB_GRP_ABORT_STATUS_busy) = true := by
    rwa [Bool.or_eq_true, Bool.not_eq_true']
  simp only [abortGroup, hw, hidle, if_true]

/-- A go with no abort in progress answers BAD_GROUP, or ends what it names. -/
theorem abortGroup_of_go (hw : s.storeReg R.GLB_GRP_ABORT val = w)
    (h : ¬ (bitOf val.toNat 31 = false ∨ w.flag F.GLB_GRP_ABORT_STATUS_busy = true))
    {ctx g : Nat} (hc : w.fld F.GLB_GRP_ABORT_SEL_ctx = ctx) (hg : w.fld F.GLB_GRP_ABORT_SEL_group = g)
    {u : State} (hu : w.setFlag F.GLB_GRP_ABORT_STATUS_busy true = u) :
    abortGroup val s
      = if u.fld (F.CTX_GRP_grp_cnt ctx) ≤ g then abortEnding 3 0 u
        else abortTrackers (abortNames val ctx g (cycleCommitted u)) (cycleCommitted u) := by
  have hgo : ¬ (!bitOf val.toNat 31 || w.flag F.GLB_GRP_ABORT_STATUS_busy) = true := by
    rwa [Bool.or_eq_true, Bool.not_eq_true']
  simp only [abortGroup, hw, hgo, hc, hg, hu, List.isEmpty_iff]
  rfl

theorem abortFinish_of_none (h : s.grp.abortAt = none) : abortFinish s = s := by
  simp only [abortFinish, h]

theorem abortFinish_of_some {r n t : Nat} (h : s.grp.abortAt = some (r, n, t)) {u : State}
    (hu : ((s.setFlag F.GLB_GRP_ABORT_STATUS_busy false).setFld F.GLB_GRP_ABORT_STATUS_result r).setFld
      F.GLB_GRP_ABORT_STATUS_count n = u) :
    abortFinish s = raiseInt 5 { u with grp := { u.grp with abortAt := none } } := by
  simp only [abortFinish, h, hu]

end

/-! ### Stragglers -/

/-- The lag of a member, with record `r`, counts as raised. -/
def lagRaised (e slot : Nat) (r : Lag) (s : State) : State :=
  { s with grp := { s.grp with lag := Sparse.put (fun _ => none) s.grp.lag (lagKey e slot) (some { r with raised := true }) } }

/-- The straggler log names member `m` of the group when it is free. -/
def stragglerLogged (ctx g slot : Nat) (m : Member) (s : State) : State :=
  if s.flag F.GLB_GRP_STRAG_LOG0_valid = true then s
  else
    let v := s.wr R.GLB_GRP_STRAG_LOG0 (BitVec.ofNat 32 (2 ^ 31 + ctx * 2 ^ 14 + g))
    v.wr R.GLB_GRP_STRAG_LOG1 (BitVec.ofNat 32 (epId v m.local_ * 2 ^ 17 + slot))

section
variable {s : State} {e slot : Nat}

theorem stragglerAt_of_member {r : Lag} (hr : lagRec s (lagKey e slot) = some r) {ctx g : Nat} (hg : groupOf s e = some (ctx, g))
    {m : Member} (hm : (members s (s.grpE e).active).find? (·.slot == slot) = some m) {time : Nat}
    (ht : bits (vw (s.grpE e).active 13) 16 16 = time) :
    stragglerAt e slot s
      = if time = 0 ∨ r.raised = true ∨ s.now < r.since + time * 1000 then s
        else raiseFor Cause.grpStraggler (locGroup ctx g) ctx (stragglerLogged ctx g slot m (lagRaised e slot r s)) := by
  simp only [stragglerAt, hr, hg, hm, ht]
  rfl

/-- Without a lag record, a group of the entry or a member of the slot there is no straggler. -/
theorem stragglerAt_of_absent (h : lagRec s (lagKey e slot) = none ∨ groupOf s e = none
    ∨ (members s (s.grpE e).active).find? (·.slot == slot) = none) : stragglerAt e slot s = s := by
  unfold stragglerAt
  dsimp only
  split
  case h_1 r ctx g m hr hg hm => rw [hr, hg, hm] at h; simp at h
  case h_2 => rfl

end

/-! ### The trace ring -/

/-- The ring holds no record: its count is 0, and the records that it had are not valid (R365, log 35). -/
def ringEmptied (s : State) : State :=
  forEach (upTo (s.fld F.WMK_TRC_STATUS_count)) (fun i v => v.setFlag (F.WMK_TRC_REC0_valid i) false)
    ((s.setFld F.WMK_TRC_STATUS_count 0).setFlag F.WMK_TRC_STATUS_full false)

theorem traceRingWrite_eq (val : Word) (s : State) :
    traceRingWrite val s
      = if s.flag F.WMK_TRC_CFG_en = false ∧ (s.storeReg R.WMK_TRC_CFG val).flag F.WMK_TRC_CFG_en = true then
          ringEmptied (s.storeReg R.WMK_TRC_CFG val)
        else s.storeReg R.WMK_TRC_CFG val := by
  simp only [traceRingWrite, Bool.and_eq_true, Bool.not_eq_true']
  rfl

/-! ### The statement -/

section
variable (s : State)

theorem exec_abort (val : Word) : exec (.abort val) s = .next (kept s (settle (abortGroup val s))) := rfl
theorem exec_abortDone : exec .abortDone s = .next (kept s (settle (abortFinish s))) := rfl
theorem exec_homeTabRebuild : exec .homeTabRebuild s = .next (kept s (homeRebuild s)) := rfl
theorem exec_straggler (g : Fin 16384) (slot : Fin 131072) :
    exec (.straggler g slot) s = .next (kept s (stragglerAt g.val slot.val s)) := rfl
theorem exec_traceRingEnable (val : Word) : exec (.traceRingEnable val) s = .next (kept s (traceRingWrite val s)) := rfl

end

/-- Settles O33: an abort by what its write asks for, a lag by what is known of its member, and each other command by its equation. -/
theorem groupControlActs : Obligations.GroupControlActs := by
  unfold Obligations.GroupControlActs
  refine ⟨fun s val => ?abort, fun s => ?finish, fun s g slot => ?straggler, fun s val => ?ring⟩
  case abort =>
    intro w busy ctx g u done v hit ended
    rw [exec_abort]
    by_cases hidle : bitOf val.toNat 31 = false ∨ busy = true
    · rw [if_pos hidle, abortGroup_of_idle rfl hidle]
    · rw [if_neg hidle, abortGroup_of_go rfl hidle rfl rfl rfl]
      rfl
  case finish =>
    rw [exec_abortDone, exec_homeTabRebuild]
    exact ⟨fun h => by rw [abortFinish_of_none h], fun r n t h => by rw [abortFinish_of_some h rfl], rfl⟩
  case straggler =>
    intro e n time
    rw [exec_straggler]
    refine ⟨fun r ctx grp m hr hg hm => ?_, fun h => by rw [stragglerAt_of_absent h]⟩
    rw [stragglerAt_of_member hr hg hm rfl]
    rfl
  case ring =>
    rw [exec_traceRingEnable, traceRingWrite_eq]
    rfl

end Sys2Proof.Machine
end

section
/-! SUPPORT. Descriptors of shuttles: what each command does with the descriptor in progress, and with its tracker while its run is
open (R285, R292, R297, R317, R336, R345; Tables 09-3 and 09-4). -/

namespace Sys2Proof.Machine

/-! ### A descriptor that serves a tracker -/

/-- The descriptor picked leaves its queue, and then acts on its tracker unless that one's run is over. -/
def onTracker (p : Nat) (pick : Option (Nat × Desc)) (act : Desc → Tracker → State → State) (s : State) : State :=
  match pick with
  | none => s
  | some (i, d) =>
    match trkOf (dropDesc p i s) d with
    | none => dropDesc p i s
    | some t => act d t (dropDesc p i s)

/-- After a read: a word that could not be corrected ends the pick; else the descriptor acts (R446). -/
def orEndPick (d : Desc) (t : Tracker) (x : Bool × State) (act : State → State) : State :=
  if x.1 = true then endTrk d.trk t 2 x.2 else act x.2

/-! ### ADD -/

/-- The values of an input are added to the slots of tracker `t` from slot `first` on. -/
def slotsAdded (p first : Nat) (t : Tracker) (dd : Nat) (vals : List Nat) (s : State) : State :=
  forEach vals.zipIdx (fun y => slotAdd t dd (first + y.2) y.1)
    (s.onSht p fun r => { r with addends := r.addends + vals.length })

/-- ADD of values whose slots lie in the sheets of the tracker, or else its isolation refusal (R313). -/
def inputAdded (p : Nat) (d : Desc) (t : Tracker) (dd : Nat) (vals : List Nat) (s : State) : State :=
  if t.sheets.length ≤ (d.first + vals.length - 1) / slotsPerSheet t.ver then
    overcount d.trk t (raiseFor Cause.shtIso (locSht p) t.ctx (s.bump (F.SHT_ISO_CNT_count p)))
  else orEndPick d t (readSlots t d.first vals.length s) (slotsAdded p d.first t dd vals)

section
variable {p i : Nat} {d : Desc} {s : State}

theorem addAt_of_none (h : inProgress s p [1] (fun d => dSrc d != 1) = none) : addAt p s = s := by
  simp only [addAt, h]

theorem addAt_of_closed (h : inProgress s p [1] (fun d => dSrc d != 1) = some (i, d)) (hc : trkOf s d = none ∨ d.pkt = none) :
    addAt p s = dropDesc p i s := by
  unfold addAt
  rw [h]
  dsimp only
  split
  case h_1 t pk ht hpk => rw [ht, hpk] at hc; simp at hc
  case h_2 => rfl

theorem addAt_of_open (h : inProgress s p [1] (fun d => dSrc d != 1) = some (i, d)) {t : Tracker} (ht : trkOf s d = some t)
    {pk : Pkt} (hpk : d.pkt = some pk) :
    addAt p s
      = inputAdded p d t (smgD s t.ctx) (inputValues t.ver t.exact (smgD s t.ctx) (grpPkt pk)) (dropDesc p i s) := by
  simp only [addAt, h, ht, hpk]
  rfl

end

/-! ### PART -/

/-- The packets of the partial go to the switch that the descriptor names. -/
def partSent (dd : Nat) (d : Desc) (t : Tracker) (s : State) : State :=
  forEach (partPackets s t).1
    (fun y v => sendToward true
      (groupPacket v t (bits d.w1.toNat 10 2) y.2.1 y.1 (vIn t.ver) (partAddr t.ver dd t.ctx t.group t.pick y.1) y.2.2)
      (groupHash s t.ver t.ctx t.group) (bits d.w2.toNat 27 5) (bits d.w2.toNat 22 5) v)
    (s.bumpBy F.GLB_NUM_OVF_CNT_count (partPackets s t).2)

/-- PART of an open tracker: its slots are read, its partial is sent, its emission ends. -/
def partRun (d : Desc) (t : Tracker) (s : State) : State :=
  orEndPick d t (readSlots t 0 (pickSlots t.ver (smgD s t.ctx) t.pick) s) fun v =>
    (partSent (smgD s t.ctx) d t v).setTrk d.trk (some { t with emitted := true })

theorem partAt_eq (p : Nat) (s : State) :
    partAt p s = onTracker p (inProgress s p [2] fun d => dSrc d != 1) partRun s := rfl

/-! ### RESULT -/

/-- The result of a pick from the slots of its tracker, under the context that shuttle `p` has loaded. -/
def resultOf (p dd : Nat) (t : Tracker) (s : State) : Formed :=
  formResult t dd (s.sht p).egr (s.sht p).mtx ((upTo (pickSlots t.ver dd t.pick)).map (slotGet s t))

/-- The overflows, NaN elements and mismatched rows of a result are counted. -/
def resultCounted (f : Formed) (s : State) : State :=
  ((s.bumpBy F.GLB_NUM_OVF_CNT_count f.ovf).bumpBy F.GLB_NUM_NAN_CNT_count f.nan).bumpBy F.GLB_SMG_REF_CNT_count f.ref

/-- The peers of the first line of a tracker's tree. -/
def firstLine (t : Tracker) : Nat := if t.treeB = true then vw t.ver 7 else vw t.ver 6

/-- The peers of the second line, under the active version of its entry. -/
def secondLine (s : State) (t : Tracker) : Nat :=
  if vValid (s.grpE t.entry).active = false then 0
  else if t.treeB = true then vw (s.grpE t.entry).active 9 else vw (s.grpE t.entry).active 8

/-- A packet of the result goes along the two lines and to the members (R162, R256). -/
def resultPacketSent (t : Tracker) (line1 line2 h : Nat) (y : Nat × List Byte) (s : State) : State :=
  let pk := groupPacket s t 3 0 0 (vOut t.ver) (mkGroupAddr t.ctx t.group y.1) y.2
  let a := castTargets s 0x3FF t.treeB line1 h pk
  let b := castTargets s 0x3FF (!t.treeB) line2 h pk
  castDrops (a.2 + b.2) locNone t.ctx (sendOwn (a.1 ++ b.1 ++ storeTargets s 0x3FF t y.1 y.2.length y.2) s)

/-- The packets of the result are sent, and the emission ends with them. -/
def resultSent (d : Desc) (t : Tracker) (packs : List (Nat × List Byte)) (s : State) : State :=
  (forEach packs (resultPacketSent t (firstLine t) (secondLine s t) (groupHash s t.ver t.ctx t.group)) s).setTrk d.trk
    (some { t with emitted := true, results := packs, rootEpoch := if vShort t.ver = true then 0 else vEpoch t.ver })

/-- A result is counted, cut into packets and sent. -/
def resultEmitted (dd : Nat) (d : Desc) (t : Tracker) (f : Formed) (s : State) : State :=
  resultSent d t (cutResult ((outLayout t.ver dd).size (t.pick * pickE t.ver)) f.units none) (resultCounted f s)

/-- RESULT of an open tracker, in the state that holds its context: its slots are read, its result is formed and sent. -/
def resultLoaded (p : Nat) (d : Desc) (t : Tracker) (s : State) : State :=
  orEndPick d t (readSlots t 0 (pickSlots t.ver (smgD s t.ctx) t.pick) s) fun v =>
    resultEmitted (smgD s t.ctx) d t (resultOf p (smgD s t.ctx) t v) v

/-- RESULT of an open tracker loads its context first (R334). -/
def resultRun (p : Nat) (d : Desc) (t : Tracker) (s : State) : State := resultLoaded p d t (loadContext p t.ctx s)

theorem resultAt_eq (p : Nat) (s : State) : resultAt p s = onTracker p (firstResult s p) (resultRun p) s := by
  simp only [resultAt, Bool.not_eq_true']
  rfl

/-! ### FORWARD and DRAIN -/

/-- A shuttle reads all the sheets of a tracker (R315); the answer is true when one of them cannot be read. -/
def sheetsRead (p : Nat) (t : Tracker) (s : State) : Bool × State :=
  t.sheets.foldl (fun x k => let y := readSheets (sheetKey p k 0) 4096 x.2; (x.1 || y.1, y.2)) (false, s)

/-- The target of a migration holds the sheets of a tracker, and DRAIN is queued there (R345). -/
def forwarded (p q : Nat) (d : Desc) (t : Tracker) (s : State) : State :=
  let v := forEach t.sheets (fun k => copySheets p k q k 1) s
  pushDesc q (trkDesc v d.trk t 5 2 0 0 0) v

/-- FORWARD of an open tracker toward the shuttle of the die that the descriptor names. -/
def forwardRun (p : Nat) (d : Desc) (t : Tracker) (s : State) : State :=
  orEndPick d t (sheetsRead p t s) (forwarded p (p / 136 * 136 + bits d.w2.toNat 0 8) d t)

theorem forwardAt_eq (p : Nat) (s : State) :
    forwardAt p s = onTracker p (inProgress s p [4] fun d => dSrc d == 2) (forwardRun p) s := rfl

/-- DRAIN of an open tracker: it is on shuttle `p` from now on, and what waited for that may start (R345). -/
def drainRun (p : Nat) (d : Desc) (t : Tracker) (s : State) : State :=
  startDescs p ((s.setTrk d.trk (some { t with phys := p, draining := false })).onSht p fun r => { r with
    dq := r.dq.map fun x => if x.trk == d.trk && x.run == d.run then { x with hold := false } else x })

theorem drainAt_eq (p : Nat) (s : State) :
    drainAt p s = onTracker p (inProgress s p [5] fun d => dSrc d == 2) (drainRun p) s := rfl

/-! ### FILL and COPY -/

/-- The sheets that a FILL names hold its pattern in every word; sheets past the last one are left out. -/
def filled (p : Nat) (d : Desc) (s : State) : State :=
  let sheet := bits d.w2.toNat 16 8
  let n := min (bits d.w2.toNat 0 8 + 1) (256 - sheet)
  let a := sheetKey p sheet 0
  if d.w3 = 0 then zeroRange a (a + n * 4096) s
  else writeBytes State.setSheetByte a ((upTo (n * 1024)).flatMap fun _ => wordBytes d.w3) (clearWords a (n * 4096) s)

/-- A COPY reads its sheets: a word that could not be corrected ends it with status 2 (R446), else they are copied when the
destination is a shuttle of the die. -/
def copied (p : Nat) (d : Desc) (s : State) : State :=
  let sheet := bits d.w2.toNat 16 8
  let dst := bits d.w2.toNat 8 8
  let to_ := bits d.w3.toNat 0 8
  let n := min (bits d.w2.toNat 0 8 + 1) (min (256 - sheet) (256 - to_))
  let x := readSheets (sheetKey p sheet 0) (n * 4096) s
  if x.1 = true then softDone p 2 x.2
  else softDone p 0 (if dst < 136 then copySheets p sheet (p / 136 * 136 + dst) to_ n x.2 else x.2)

section
variable {p i : Nat} {d : Desc} {s : State}

theorem fillSht_of_none (h : inProgress s p [0x10] (fun _ => true) = none) : fillSht p s = s := by
  simp only [fillSht, h]

theorem fillSht_of_some (h : inProgress s p [0x10] (fun _ => true) = some (i, d)) :
    fillSht p s = dropDesc p i (softDone p 0 (filled p d s)) := by
  simp only [fillSht, h, filled]

theorem copySht_of_none (h : inProgress s p [0x11] (fun _ => true) = none) : copySht p s = s := by
  simp only [copySht, h]

theorem copySht_of_some (h : inProgress s p [0x11] (fun _ => true) = some (i, d)) :
    copySht p s = dropDesc p i (copied p d s) := by
  simp only [copySht, h, copied, apply_ite (dropDesc p i)]

end

/-! ### The statement -/

section
variable (sh : Fin 544) (s : State)

theorem exec_add : exec (.add sh) s = .next (kept s (settle (whenUp (sh.val / 136) (addAt sh.val) s))) := rfl
theorem exec_part : exec (.part sh) s = .next (kept s (settle (whenUp (sh.val / 136) (partAt sh.val) s))) := rfl
theorem exec_result : exec (.result sh) s = .next (kept s (settle (whenUp (sh.val / 136) (resultAt sh.val) s))) := rfl
theorem exec_forward : exec (.forward sh) s = .next (kept s (settle (whenUp (sh.val / 136) (forwardAt sh.val) s))) := rfl
theorem exec_drain : exec (.drain sh) s = .next (kept s (settle (whenUp (sh.val / 136) (drainAt sh.val) s))) := rfl
theorem exec_fill : exec (.fill sh) s = .next (kept s (settle (whenUp (sh.val / 136) (fillSht sh.val) s))) := rfl
theorem exec_copy : exec (.copy sh) s = .next (kept s (settle (whenUp (sh.val / 136) (copySht sh.val) s))) := rfl
theorem exec_unload : exec (.unload sh) s = .next (kept s (whenUp (sh.val / 136) (unloadSht sh.val) s)) := rfl

end

section
variable {c : Instr} {d : Nat} {f : State → State} {s : State}

/-- In a die held in reset a command has no effect of its own (R27). -/
theorem exec_of_inReset (he : exec c s = .next (kept s (settle (whenUp d f s)))) (h : inReset s d = true) :
    exec c s = .next (kept s (settle s)) := by
  rw [he, whenUp_of_inReset h]

/-- In a die that is up a command has its effect. -/
theorem exec_of_up (he : exec c s = .next (kept s (settle (whenUp d f s)))) (h : inReset s d = false) {t : State} (hf : f s = t) :
    exec c s = .next (kept s (settle t)) := by
  rw [he, whenUp_of_up h, hf]

/-- A command whose descriptor serves a tracker, by what it picks and by whether the tracker's run is open. -/
theorem exec_of_onTracker {p : Nat} {pick : Option (Nat × Desc)} {act : Desc → Tracker → State → State}
    (he : exec c s = .next (kept s (settle (onTracker p pick act s)))) :
    (pick = none → exec c s = .next (kept s (settle s)))
      ∧ (∀ i d, pick = some (i, d) →
          (trkOf (dropDesc p i s) d = none → exec c s = .next (kept s (settle (dropDesc p i s))))
          ∧ (∀ t, trkOf (dropDesc p i s) d = some t → exec c s = .next (kept s (settle (act d t (dropDesc p i s)))))) := by
  rw [he]
  refine ⟨fun h => by rw [h]; rfl, fun i d h => ⟨fun hc => ?_, fun t ht => ?_⟩⟩
  · simp only [onTracker, h, hc]
  · simp only [onTracker, h, ht]

end

/-- Settles O35: in a die that is up PART, RESULT, FORWARD and DRAIN by their act on the tracker, and each other command by its
descriptor. -/
theorem descriptorsRun : Obligations.DescriptorsRun := by
  unfold Obligations.DescriptorsRun
  refine fun s sh => ⟨fun hdown => ⟨?down, ?unloadDown⟩, fun hup => ?up⟩
  case down =>
    simp only [List.forall_mem_cons, List.not_mem_nil, false_implies, implies_true, and_true]
    exact ⟨exec_of_inReset (exec_add sh s) hdown, exec_of_inReset (exec_part sh s) hdown,
      exec_of_inReset (exec_result sh s) hdown, exec_of_inReset (exec_forward sh s) hdown,
      exec_of_inReset (exec_drain sh s) hdown, exec_of_inReset (exec_fill sh s) hdown, exec_of_inReset (exec_copy sh s) hdown⟩
  case unloadDown => rw [exec_unload, whenUp_of_inReset hdown]
  case up =>
    obtain ⟨hpart₀, hpart⟩ := exec_of_onTracker (exec_of_up (exec_part sh s) hup (partAt_eq sh.val s))
    obtain ⟨hresult₀, hresult⟩ := exec_of_onTracker (exec_of_up (exec_result sh s) hup (resultAt_eq sh.val s))
    obtain ⟨hforward₀, hforward⟩ := exec_of_onTracker (exec_of_up (exec_forward sh s) hup (forwardAt_eq sh.val s))
    obtain ⟨hdrain₀, hdrain⟩ := exec_of_onTracker (exec_of_up (exec_drain sh s) hup (drainAt_eq sh.val s))
    refine ⟨fun h => exec_of_up (exec_add sh s) hup (addAt_of_none h),
      fun i d h => ⟨fun hc => exec_of_up (exec_add sh s) hup (addAt_of_closed h hc),
        fun t pk ht hpk => exec_of_up (exec_add sh s) hup (addAt_of_open h ht hpk)⟩,
      hpart₀, hpart, hresult₀, hresult, hforward₀, hforward, hdrain₀, hdrain,
      fun h => exec_of_up (exec_fill sh s) hup (fillSht_of_none h),
      fun i d h => exec_of_up (exec_fill sh s) hup (fillSht_of_some h),
      fun h => exec_of_up (exec_copy sh s) hup (copySht_of_none h),
      fun i d h => exec_of_up (exec_copy sh s) hup (copySht_of_some h), ?unloadUp⟩
    case unloadUp => rw [exec_unload, whenUp_of_up hup]; rfl

end Sys2Proof.Machine
end

section
/-! SUPPORT. Writes of the scratchpads: where zeroed and copied bytes lie, and what stays outside the range (R317, R345). -/

namespace Sys2Proof.Machine

/-! ### Sparse tables cut to a range of keys -/

section
variable {α : Type} (d : Nat → α)

theorem Sparse.get_of_forall_ne {m : List (Nat × α)} {k : Nat} (h : ∀ c ∈ m, c.1 ≠ k) : Sparse.get d m k = d k := by
  induction m with
  | nil => rfl
  | cons c m ih =>
    obtain ⟨hc, hm⟩ := List.forall_mem_cons.mp h
    rw [Sparse.get, if_neg hc, ih hm]

/-- A table cut to the keys that meet a condition reads as before at these keys, and as an empty one elsewhere. -/
theorem Sparse.get_filter_key (q : Nat → Bool) (m : List (Nat × α)) (k : Nat) :
    Sparse.get d (m.filter fun c => q c.1) k = if q k = true then Sparse.get d m k else d k := by
  by_cases hk : q k = true
  · rw [if_pos hk]
    induction m with
    | nil => rfl
    | cons c m ih =>
      by_cases hc : q c.1 = true
      · rw [List.filter_cons, if_pos hc, Sparse.get, Sparse.get, ih]
      · have hne : c.1 ≠ k := fun h => hc (h ▸ hk)
        rw [List.filter_cons, if_neg hc, Sparse.get, if_neg hne, ih]
  · rw [if_neg hk]
    exact Sparse.get_of_forall_ne d fun c hc h => hk (h ▸ (List.mem_filter.mp hc).2)

variable [DecidableEq α] {d}

/-- The keys of a canonical table stand above the key before it. -/
theorem Sparse.lt_key_of_wfFrom {m : List (Nat × α)} {a : Nat} (h : Sparse.wfFrom d (some a) m = true) : ∀ c ∈ m, a < c.1 := by
  induction m generalizing a with
  | nil => exact fun c hc => absurd hc List.not_mem_nil
  | cons c m ih =>
    simp only [Sparse.wfFrom, Option.all_some, Bool.and_eq_true, decide_eq_true_eq] at h
    obtain ⟨⟨hlt, -⟩, hrest⟩ := h
    exact List.forall_mem_cons.mpr ⟨hlt, fun x hx => hlt.trans (ih hrest x hx)⟩

/-- A canonical table names a key once. -/
theorem Sparse.pairwise_key_ne_of_wf {m : List (Nat × α)} (h : Sparse.wf d m = true) : m.Pairwise fun x y => x.1 ≠ y.1 := by
  induction m with
  | nil => exact List.Pairwise.nil
  | cons c m ih =>
    simp only [Sparse.wf, Sparse.wfFrom, Bool.and_eq_true] at h
    obtain ⟨-, hrest⟩ := h
    exact List.pairwise_cons.mpr
      ⟨fun x hx => (Sparse.lt_key_of_wfFrom hrest x hx).ne, ih (Sparse.wfFrom_none d m c.1 hrest)⟩

end

/-! ### Zeroing -/

theorem sheetByte_zeroRange (a b x : Nat) (s : State) :
    (zeroRange a b s).sheetByte x = if a ≤ x ∧ x < b then 0 else s.sheetByte x := by
  refine (Sparse.get_filter_key (fun _ => (0 : Byte)) (fun k => !(decide (a ≤ k) && decide (k < b))) s.mem.sheets x).trans ?_
  by_cases h : a ≤ x ∧ x < b
  · simp only [h, decide_true, Bool.and_self, Bool.not_true, Bool.false_eq_true, and_self, if_true, if_false]
  · rw [if_neg h, if_pos (by simpa [imp_iff_not_or] using h)]
    rfl

/-! ### Copying -/

/-- The listed bytes, each written as far from `b` as it stood from `a`. -/
def bytesMoved (a b : Nat) (l : List Host.Cell) (s : State) : State :=
  forEach l (fun c s => s.setSheetByte (b + (c.1 - a)) c.2) s

/-- Moving bytes changes the scratchpads alone among the memories. -/
theorem bytesMoved_keeps {β : Type} (g : State → β) (h : ∀ a b s, g (s.setSheetByte a b) = g s) (a b : Nat) (l : List Host.Cell)
    (s : State) : g (bytesMoved a b l s) = g s := forEach_keeps g l _ (fun _ _ => h _ _ _) s

/-- Bytes at distinct addresses from `a` on, moved to `b`: each is read as far from `b`, and where none went the old byte is. -/
theorem sheetByte_bytesMoved {a b : Nat} {l : List Host.Cell} (hd : l.Pairwise fun x y => x.1 ≠ y.1) (ha : ∀ c ∈ l, a ≤ c.1)
    (x : Nat) (s : State) :
    (bytesMoved a b l s).sheetByte x
      = if b ≤ x then Sparse.get (fun _ => s.sheetByte x) l (a + (x - b)) else s.sheetByte x := by
  induction l generalizing s with
  | nil => exact (ite_self _).symm
  | cons c l ih =>
    obtain ⟨hne, hd⟩ := List.pairwise_cons.mp hd
    obtain ⟨hc, ha⟩ := List.forall_mem_cons.mp ha
    have hstep : bytesMoved a b (c :: l) s = bytesMoved a b l (s.setSheetByte (b + (c.1 - a)) c.2) := rfl
    rw [hstep, ih hd ha, sheetByte_setSheetByte]
    by_cases hb : b ≤ x
    · rw [if_pos hb, if_pos hb, Sparse.get]
      by_cases hx : c.1 = a + (x - b)
      · have hat : x = b + (c.1 - a) := by omega
        rw [if_pos hx, if_pos hat]
        exact Sparse.get_of_forall_ne _ fun y hy h => hne y hy (hx.trans h.symm)
      · have hat : x ≠ b + (c.1 - a) := by omega
        rw [if_neg hx, if_neg hat]
    · have hat : x ≠ b + (c.1 - a) := by omega
      rw [if_neg hb, if_neg hb, if_neg hat]

/-- The bytes of the sheets from `a` on, `n` of them. -/
def bytesOfRange (a n : Nat) (s : State) : List Host.Cell :=
  s.mem.sheets.filter fun c => decide (a ≤ c.1) && decide (c.1 < a + n)

/-- Of the memories COPY changes what zeroing and moving bytes change; the errors of words stand apart. -/
theorem copySheets_mem (p i q j n : Nat) (s : State) :
    (copySheets p i q j n s).mem
      = (bytesMoved (sheetKey p i 0) (sheetKey q j 0) (bytesOfRange (sheetKey p i 0) (n * 4096) s)
          (zeroRange (sheetKey q j 0) (sheetKey q j 0 + n * 4096) s)).mem := forEach_setWordErr_mem _ _ _ _

/-- A byte of the range moved over a zeroed range of the same size, or any other byte (R317). -/
theorem sheetByte_bytesMoved_zeroRange (a b n x : Nat) {s : State} (hw : s.mem.wf = true) :
    (bytesMoved a b (bytesOfRange a n s) (zeroRange b (b + n) s)).sheetByte x
      = if b ≤ x ∧ x < b + n then s.sheetByte (a + (x - b)) else s.sheetByte x := by
  have hd : (bytesOfRange a n s).Pairwise fun x y => x.1 ≠ y.1 :=
    (Sparse.pairwise_key_ne_of_wf ((Mem.wf_iff s.mem).mp hw).1).filter _
  have ha : ∀ c ∈ bytesOfRange a n s, a ≤ c.1 := fun c hc => by
    have := (List.mem_filter.mp hc).2
    simp only [Bool.and_eq_true, decide_eq_true_eq] at this
    exact this.1
  rw [sheetByte_bytesMoved hd ha, sheetByte_zeroRange, bytesOfRange,
    Sparse.get_filter_key _ (fun k => decide (a ≤ k) && decide (k < a + n))]
  by_cases hb : b ≤ x
  · by_cases hx : x < b + n
    · have hin : a + (x - b) < a + n := by omega
      simp only [hb, hx, hin, Nat.le_add_right, decide_true, Bool.and_self, and_self, if_true]
      rfl
    · have hin : ¬ a + (x - b) < a + n := by omega
      simp only [hb, hx, hin, decide_false, Bool.and_false, Bool.false_eq_true, and_false, if_true, if_false]
  · simp only [hb, false_and, if_false]

/-! ### The statement -/

/-- Settles O36: a zeroed range is a cut of the table, and a copy moves the cells of its source, at distinct addresses, into one. -/
theorem scratchpadWritesStayInRange : Obligations.ScratchpadWritesStayInRange := by
  unfold Obligations.ScratchpadWritesStayInRange
  refine ⟨fun s a b x _ => ⟨sheetByte_zeroRange a b x s, rfl, rfl, rfl⟩, fun s p i q j n x hw => ?copy⟩
  case copy =>
    intro a b
    have hbyte : (copySheets p i q j n s).sheetByte x
        = (bytesMoved a b (bytesOfRange a (n * 4096) s) (zeroRange b (b + n * 4096) s)).sheetByte x :=
      congrArg (fun m : Mem => Sparse.get (fun _ => (0 : Byte)) m.sheets x) (copySheets_mem p i q j n s)
    have hother {β : Type} (g : Mem → β) (hg : ∀ k v (u : State), g (u.setSheetByte k v).mem = g u.mem)
        (hz : g (zeroRange b (b + n * 4096) s).mem = g s.mem) : g (copySheets p i q j n s).mem = g s.mem := by
      rw [copySheets_mem, bytesMoved_keeps (fun u => g u.mem) hg, hz]
    exact ⟨hbyte.trans (sheetByte_bytesMoved_zeroRange a b (n * 4096) x hw), hother Mem.flash (fun _ _ _ => rfl) rfl,
      hother Mem.cap (fun _ _ _ => rfl) rfl, hother Mem.sel (fun _ _ _ => rfl) rfl⟩

end Sys2Proof.Machine
end

section
/-! SUPPORT. Power states of shuttles: when each transition is taken, and what it then does (R336 to R339, R459). -/

namespace Sys2Proof.Machine

/-! ### The transitions -/

/-- A shuttle on its way from PARK, with its place, or from OFF, without (R338, R339). -/
def wakeBegun (p : Nat) (fromOff : Bool) (s : State) : State :=
  setShtP p 3 (s.onSht p fun r => { r with fromOff := fromOff, placed := !fromOff, wakeAt := s.now })

theorem wakeSht_eq (p : Nat) (s : State) :
    wakeSht p s =
      if shtRole s p = 3 ∨ dieRuns s (p / 136) = false then s
      else if shtP s p = 1 then (wakeBegun p false s).bump (F.SHT_WAKE_PARK_CNT_count p)
      else if shtP s p = 2 then (wakeBegun p true s).bump (F.SHT_WAKE_OFF_CNT_count p)
      else s.onSht p fun r => { r with idleAt := s.now } := by
  simp only [wakeSht, Bool.or_eq_true, decide_eq_true_eq, Bool.not_eq_true']
  rfl

theorem wakeDone_eq (p : Nat) (s : State) :
    wakeDone p s =
      if shtP s p = 3 ∧ (s.sht p).placed = true then
        takeStub (s.sht p).stub (startDescs p (setShtP p 0 ((if (s.sht p).fromOff = true then unloadSht p s else s).onSht p
          fun x => { x with stub := [], placed := false, fromOff := false, idleAt := s.now })))
      else s := by
  have hnow : (if (s.sht p).fromOff = true then unloadSht p s else s).now = s.now := by split <;> rfl
  simp only [wakeDone, Bool.and_eq_true, decide_eq_true_eq, hnow]

theorem parkSht_eq (p : Nat) (s : State) :
    parkSht p s =
      if shtP s p = 0 ∧ s.flag (F.SHT_CTL_park_en p) = true ∧ (s.sht p).dq = [] ∧ (s.sht p).stub = []
          ∧ (s.sht p).idleAt + max 1 (s.fld (F.SHT_CTL_park_idle p)) * 32 ≤ s.now then
        setShtP p 1 (s.onSht p fun r => { r with idleAt := s.now })
      else s := by
  simp only [parkSht, Bool.and_eq_true, decide_eq_true_eq, List.isEmpty_iff, and_assoc]

theorem offSht_eq (p : Nat) (s : State) :
    offSht p s =
      if shtP s p = 1 ∧ s.flag (F.SHT_CTL_off_en p) = true
          ∧ (s.sht p).idleAt + s.fld (F.SHT_CTL_off_idle p) * 1000 ≤ s.now then setShtP p 2 s
      else s := by
  simp only [offSht, Bool.and_eq_true, decide_eq_true_eq, and_assoc]

/-- The lowest wake from OFF of a die that has no place gets one (R339). -/
def placeGiven (d : Nat) (s : State) : State :=
  match (upTo 136).find? fun i =>
    shtP s (d * 136 + i) == 3 && (s.sht (d * 136 + i)).fromOff && !(s.sht (d * 136 + i)).placed with
  | some i => s.onSht (d * 136 + i) fun r => { r with placed := true, wakeAt := s.now }
  | none => s

theorem powerUpPlace_eq (d : Nat) (s : State) : powerUpPlace d s = if placesUsed s d < 8 then placeGiven d s else s := rfl

/-- A place is given in a die that is up, while one of its eight is free. -/
theorem whenUp_powerUpPlace (d : Nat) (s : State) :
    whenUp d (powerUpPlace d) s = if inReset s d = false ∧ placesUsed s d < 8 then placeGiven d s else s := by
  cases hd : inReset s d with
  | true => rw [whenUp_of_inReset hd, if_neg (by simp)]
  | false => simp only [whenUp_of_up hd, powerUpPlace_eq, true_and]

/-! ### The commands -/

section
variable (sh : Fin 544) (s : State)

theorem exec_wake : exec (.wake sh) s = .next (kept s (whenUp (sh.val / 136) (wakeSht sh.val) s)) := rfl
theorem exec_wakeDone : exec (.wakeDone sh) s = .next (kept s (settle (whenUp (sh.val / 136) (wakeDone sh.val) s))) := rfl
theorem exec_park : exec (.park sh) s = .next (kept s (whenUp (sh.val / 136) (parkSht sh.val) s)) := rfl
theorem exec_off : exec (.off sh) s = .next (kept s (whenUp (sh.val / 136) (offSht sh.val) s)) := rfl
theorem exec_powerUpPlace (die : Fin 4) {t : State} (h : whenUp die.val (powerUpPlace die.val) s = t) :
    exec (.powerUpPlace die) s = .next (kept s t) := congrArg (fun u => Host.Outcome.next (kept s u)) h

end

/-- Settles O37: in a die that is up each command is its transition, and each transition has its equation above. -/
theorem shuttlePowerStates : Obligations.ShuttlePowerStates := by
  unfold Obligations.ShuttlePowerStates
  refine ⟨fun s sh => ⟨fun hdown => ⟨?down, exec_of_inReset (exec_wakeDone sh s) hdown⟩, fun hup => ?up⟩, fun s die => ?place⟩
  case down =>
    simp only [List.forall_mem_cons, List.not_mem_nil, false_implies, implies_true, and_true]
    rw [exec_wake, exec_park, exec_off, whenUp_of_inReset hdown, whenUp_of_inReset hdown, whenUp_of_inReset hdown]
    exact ⟨rfl, rfl, rfl⟩
  case up =>
    refine ⟨?_, exec_of_up (exec_wakeDone sh s) hup (wakeDone_eq sh.val s), ?_, ?_⟩
    · rw [exec_wake, whenUp_of_up hup, wakeSht_eq]
      rfl
    · rw [exec_park, whenUp_of_up hup, parkSht_eq]
    · rw [exec_off, whenUp_of_up hup, offSht_eq]
  case place => exact exec_powerUpPlace s die (whenUp_powerUpPlace die.val s)

end Sys2Proof.Machine
end

section
/-! SUPPORT. Migrations, reweighting, command timeouts and hangs: one lemma per way that each of them goes (R342 to R351, R458, R459). -/

namespace Sys2Proof.Machine

/-! ### Migrations -/

theorem migrate_eq (val : Word) (s : State) :
    migrate val s =
      let u := s.storeReg R.GLB_SHT_MIG val
      let L := bits val.toNat 0 9
      let q := L / 128 * 136 + bits val.toNat 9 8
      if bitOf val.toNat 31 = false ∨ u.flag F.GLB_SHT_MIG_STATUS_busy = true then u
      else if 136 ≤ bits val.toNat 9 8 ∨ shtRole u q ≠ 0 ∨ dieRuns u (L / 128) = false then
        u.setFld F.GLB_SHT_MIG_STATUS_result 2
      else if u.flag (F.GLB_SHT_MAP_valid L) = true ∧ 8 ≤ (u.shts.redirect.filter fun x => x.1 / 136 == L / 128).length then
        u.setFld F.GLB_SHT_MIG_STATUS_result 3
      else startMigration L q (bitOf val.toNat 30) u := by
  simp only [migrate, Bool.or_eq_true, Bool.and_eq_true, Bool.not_eq_true', decide_eq_true_eq]

/-- The targets of a SHUTTLES panel that are awake are cleared. -/
def panelCleared (s : State) : State :=
  forEach (s.shts.panel.filter (clearDue s)) clearTarget
    { s with shts := { s.shts with panel := s.shts.panel.map fun m => if clearDue s m then { m with cleared := true } else m } }

/-- The target of the migration is cleared, and a forced one switches then (R343, R348). -/
def targetCleared (m : Mig) (s : State) : State :=
  let n : Mig := { m with cleared := true }
  let v := clearTarget m s
  let w := { v with shts := { v.shts with mig := some n } }
  if m.force = true then forceSwitch n w else w

/-- The migration in progress goes on once its target is awake. -/
def migrationCleared (mig : Option Mig) (s : State) : State :=
  match mig with
  | none => s
  | some m => if clearDue s m = true then targetCleared m s else s

theorem clearSheets_eq (s : State) : clearSheets s = migrationCleared (panelCleared s).shts.mig (panelCleared s) := rfl

theorem releaseRedirect_eq (p : Nat) (s : State) :
    releaseRedirect p s =
      if shtRole s p = 2 ∧ recordedOn s p = false then setRole p 0 (dropRedirect p s) else s := by
  simp only [releaseRedirect, Bool.and_eq_true, decide_eq_true_eq, Bool.not_eq_true']

section
variable {s : State} {m : Mig}

theorem clearSheets_of_none (h : (panelCleared s).shts.mig = none) : clearSheets s = panelCleared s := by
  rw [clearSheets_eq, h, migrationCleared]

theorem clearSheets_of_some (h : (panelCleared s).shts.mig = some m) :
    clearSheets s = if clearDue (panelCleared s) m = true then targetCleared m (panelCleared s) else panelCleared s := by
  rw [clearSheets_eq, h, migrationCleared]

theorem switchNow_of_none (h : s.shts.mig = none) : switchNow s = s := by
  simp only [switchNow, h]

theorem switchNow_of_some (h : s.shts.mig = some m) :
    switchNow s = if switchReady s m = true then windowBack m.frozen (endMigration (switchOne m s)) else s := by
  simp only [switchNow, h]

end

/-! ### Reweighting -/

/-- Logical shuttle `i` of a die takes the weight of its measured rate, when it was busy for 1% of the interval (R350). -/
def shuttleWeighed (d iv : Nat) (busy : List Nat) (i : Nat) (s : State) : State :=
  match physOf s (d * 128 + i) with
  | none => s
  | some p =>
    let b := nth busy (p % 136)
    if s.flag (F.GLB_SHT_MAP_auto (d * 128 + i)) = true ∧ iv ≤ b * 100 ∧ b ≠ 0 then
      setWeight (d * 128 + i) (newWeight (s.fld (F.GLB_SHT_MAP_wmax (d * 128 + i))) (s.sht p).addends b) s
    else s

/-- Physical shuttle `i` of a die shows its rate of the interval, and counts anew (R351). -/
def rateRestarted (d : Nat) (busy : List Nat) (i : Nat) (s : State) : State :=
  (s.setFld (F.SHT_RATE_rate (d * 136 + i)) (rate64 (s.sht (d * 136 + i)).addends (nth busy i))).onSht (d * 136 + i)
    fun r => { r with addends := 0 }

/-- The interval of a die ends: its logical shuttles are weighed and its rates restart. -/
def dieReweighted (d iv : Nat) (busy : List Nat) (s : State) : State :=
  forEach (upTo 136) (rateRestarted d busy) (forEach (upTo 128) (shuttleWeighed d iv busy)
    { s with shts := { s.shts with rwAt := setAt s.shts.rwAt d s.now, rwDone := setAt s.shts.rwDone d true } })

theorem reweight_eq (d : Nat) (busy : List Nat) (s : State) :
    reweight d busy s =
      let iv := s.fld F.GLB_SHT_RW_CFG_rw_int * 1000
      if iv = 0 ∨ s.now < nth s.shts.rwAt d + iv then s else dieReweighted d iv busy s := by
  refine if_congr Iff.rfl rfl (congrArg (forEach (upTo 136) (rateRestarted d busy))
    (congrArg (fun weigh => forEach (upTo 128) weigh _) ?_))
  funext i u
  unfold shuttleWeighed
  dsimp only
  cases physOf u (d * 128 + i) with
  | none => rfl
  | some p => simp only [Bool.and_eq_true, decide_eq_true_eq, and_assoc]

theorem whenRuns_reweight (d : Nat) (busy : List Nat) (s : State) :
    whenRuns d (reweight d busy) s =
      let iv := s.fld F.GLB_SHT_RW_CFG_rw_int * 1000
      if inReset s d = true ∨ inStandby s d = true ∨ iv = 0 ∨ s.now < nth s.shts.rwAt d + iv then s
      else dieReweighted d iv busy s := by
  simp only [whenRuns, reweight_eq, Bool.or_eq_true, ite_or]

/-! ### Command timeouts -/

/-- A descriptor in progress is past its time (R458). -/
def timerPast (s : State) (x : Desc × Nat) : Bool :=
  match x.1.startAt with
  | some t => decide (t + cmdTmoNs s (dCtx x.1) < s.now)
  | none => false

/-- A descriptor past its time leaves its queue; that is counted and raised. -/
def commandStopped (p : Nat) (d : Desc) (i : Nat) (s : State) : State :=
  raiseFor Cause.cmdTmo (locSht p) (dCtx d) ((dropDesc p i s).bump (F.CTX_CMD_TMO_CNT_count (dCtx d)))

/-- The pick of a stopped descriptor ends TIMED_OUT while its run is open. -/
def pickTimedOut (d : Desc) (run : Option Tracker) (s : State) : State :=
  match run with
  | some t => timeOutTrk d.trk t s
  | none => s

/-- What becomes of the descriptor picked: a software one ends with status 2, another takes its pick with it. -/
def timedOut (p : Nat) (pick : Option (Desc × Nat)) (s : State) : State :=
  match pick with
  | none => s
  | some (d, i) =>
    if dSrc d = 1 then softDone p 2 (commandStopped p d i s) else pickTimedOut d (trkOf s d) (commandStopped p d i s)

theorem commandTimeout_eq (p : Nat) (s : State) :
    commandTimeout p s = timedOut p ((s.sht p).dq.zipIdx.find? (timerPast s)) s := rfl

section
variable {p i : Nat} {d : Desc} {s : State}

theorem commandTimeout_of_none (h : (s.sht p).dq.zipIdx.find? (timerPast s) = none) : commandTimeout p s = s := by
  rw [commandTimeout_eq, h, timedOut]

theorem commandTimeout_of_some (h : (s.sht p).dq.zipIdx.find? (timerPast s) = some (d, i)) :
    commandTimeout p s =
      if dSrc d = 1 then softDone p 2 (commandStopped p d i s)
      else pickTimedOut d (trkOf s d) (commandStopped p d i s) := by
  rw [commandTimeout_eq, h, timedOut]

end

/-! ### Hangs -/

/-- The lowest spare shuttle of the die of shuttle `p`. -/
def spareOfDie (s : State) (p : Nat) : Option Nat := (upTo 136).find? fun i => shtRole s (p / 136 * 136 + i) == 0

/-- Hung shuttles migrate, and no migration is in progress. -/
def HangMigrates (s : State) : Prop := s.flag F.FLT_HANG_CFG_auto_mig = true ∧ s.shts.mig = none

/-- Logical shuttle `L` of a hung shuttle moves by force to shuttle `q`; what waited at the hung one waits there for the switch. -/
def hangMigrated (p L q : Nat) (s : State) : State :=
  (killSht p (abortOn p (startMigration L q true s))).onSht p fun r => { r with stub := (s.sht p).stub }

/-- Logical shuttle `L` of a hung shuttle becomes unmapped, its lines are lost, and what waited reaches its home again. -/
def hangUnmapped (p L : Nat) (s : State) : State :=
  restub (s.sht p).stub (loseLines L (killSht p (abortOn p (unmapSht L s))))

section
variable {p L : Nat} {s u : State}

theorem shuttleHang_of_not_hung (h : isHung s p = false) : shuttleHang p s = s := by
  simp only [shuttleHang, h, Bool.not_false, if_true]

variable (h : isHung s p = true) (hu : raise Cause.shtHang (locSht p) s = u)
include h hu

theorem shuttleHang_of_not_carried (hc : carried u p = none) :
    shuttleHang p s = killSht p (dropRedirect p (abortOn p u)) := by
  simp only [shuttleHang, h, hu, hc, Bool.not_true, Bool.false_eq_true, if_false]

variable (hc : carried u p = some L)
include hc

theorem shuttleHang_of_spare {i : Nat} (hs : spareOfDie u p = some i) (hm : HangMigrates u) :
    shuttleHang p s = hangMigrated p L (p / 136 * 136 + i) u := by
  obtain ⟨hauto, hfree⟩ := hm
  unfold spareOfDie at hs
  simp only [shuttleHang, h, hu, hc, hs, hauto, hfree, Bool.not_true, Bool.false_eq_true, if_false, Option.isNone_none,
    Bool.and_self, if_true, hangMigrated]

theorem shuttleHang_of_no_spare (hs : spareOfDie u p = none ∨ ¬ HangMigrates u) : shuttleHang p s = hangUnmapped p L u := by
  unfold spareOfDie HangMigrates at hs
  simp only [shuttleHang, h, hu, hc, Bool.not_true, Bool.false_eq_true, if_false, Bool.and_eq_true, Option.isNone_iff_eq_none]
  split
  next i hi => exact if_neg (hs.resolve_left (by simp [hi]))
  next => rfl

end

/-! ### The commands -/

section
variable (sh : Fin 544) (s : State)

theorem exec_migration (val : Word) : exec (.migration val) s = .next (kept s (migrate val s)) := rfl
theorem exec_sheetsCleared {t : State} (h : clearSheets s = t) : exec .sheetsCleared s = .next (kept s (settle t)) :=
  congrArg (fun u => Host.Outcome.next (kept s (settle u))) h
theorem exec_switchCycle : exec .switchCycle s = .next (kept s (settle (beginDrain (switchNow s)))) := rfl
theorem exec_redirectRelease : exec (.redirectRelease sh) s = .next (kept s (releaseRedirect sh.val s)) := rfl
theorem exec_reweight (die : Fin 4) (busy : List Nat) :
    exec (.reweight die busy) s = .next (kept s (whenRuns die.val (reweight die.val busy) s)) := rfl
theorem exec_cmdTmo : exec (.cmdTmo sh) s = .next (kept s (settle (whenUp (sh.val / 136) (commandTimeout sh.val) s))) := rfl
theorem exec_shtHang : exec (.shtHang sh) s = .next (kept s (settle (whenUp (sh.val / 136) (shuttleHang sh.val) s))) := rfl

end

/-- A command of a die has no effect of its own in a die held in reset, or when it finds nothing to do. -/
theorem exec_of_idle {c : Instr} {d : Nat} {f : State → State} {s : State}
    (he : exec c s = .next (kept s (settle (whenUp d f s)))) (h : inReset s d = true ∨ f s = s) :
    exec c s = .next (kept s (settle s)) := by
  cases hd : inReset s d with
  | true => exact exec_of_inReset he hd
  | false => exact exec_of_up he hd (h.resolve_left (by simp [hd]))

/-- Settles O38: each command is its meaning, and each way of it has its lemma above. -/
theorem migrationAndShuttleTimers : Obligations.MigrationAndShuttleTimers := by
  unfold Obligations.MigrationAndShuttleTimers
  refine ⟨fun s val => ?go, fun s => ⟨fun h => ?noneCleared, fun m h => ?cleared, fun h => ?noneSwitched, fun m h => ?switched⟩,
    fun s sh => ?release, fun s die busy => ?weights, fun s sh => ⟨fun h => ?intime, fun d i hup h => ?stopped,
      fun h => ?sound, fun hup h => ⟨fun hc => ?uncarried, fun L hc => ⟨fun i hs hm => ?moved, fun hs => ?unmapped⟩⟩⟩⟩
  case go => rw [exec_migration, migrate_eq]
  case noneCleared => exact exec_sheetsCleared s (clearSheets_of_none h)
  case cleared => exact exec_sheetsCleared s (clearSheets_of_some h)
  case noneSwitched => rw [exec_switchCycle, switchNow_of_none h]
  case switched => rw [exec_switchCycle, switchNow_of_some h]
  case release => rw [exec_redirectRelease, releaseRedirect_eq]
  case weights =>
    rw [exec_reweight, whenRuns_reweight]
    rfl
  case intime => exact exec_of_idle (exec_cmdTmo sh s) (h.imp_right commandTimeout_of_none)
  case stopped => exact exec_of_up (exec_cmdTmo sh s) hup (commandTimeout_of_some h)
  case sound => exact exec_of_idle (exec_shtHang sh s) (h.imp_right shuttleHang_of_not_hung)
  case uncarried => exact exec_of_up (exec_shtHang sh s) hup (shuttleHang_of_not_carried h rfl hc)
  case moved => exact exec_of_up (exec_shtHang sh s) hup (shuttleHang_of_spare h rfl hc hs hm)
  case unmapped => exact exec_of_up (exec_shtHang sh s) hup (shuttleHang_of_no_spare h rfl hc hs)

end Sys2Proof.Machine
end

section
/-! SUPPORT. The watermark snapshot: its three stages, and what each register of the entry reads after them (R362). -/

namespace Sys2Proof.Machine

/-! ### The registers of a watermark entry -/

/-- The registers of an entry in their order in its block, so that no two of them are one. -/
theorem watermarkRegs_lt (e : Nat) :
    R.WMK_SUM_LO e < R.WMK_SUM_HI e ∧ R.WMK_SUM_HI e < R.WMK_CNT e ∧ R.WMK_CNT e < R.WMK_SNAP_LO e
    ∧ R.WMK_SNAP_LO e < R.WMK_SNAP_HI e ∧ R.WMK_SNAP_HI e < R.WMK_SNAP_CNT e ∧ R.WMK_SNAP_CNT e < R.WMK_SNAP_SEQ e := by
  simp [R.WMK_SUM_LO, R.WMK_SUM_HI, R.WMK_CNT, R.WMK_SNAP_LO, R.WMK_SNAP_HI, R.WMK_SNAP_CNT, R.WMK_SNAP_SEQ]

/-! ### The stages of a snapshot -/

/-- The snapshot registers of entry `e` hold its live watermark and its count. -/
def liveCopied (e : Nat) (s : State) : State :=
  ((s.wr (R.WMK_SNAP_LO e) (s.rd (R.WMK_SUM_LO e))).wr (R.WMK_SNAP_HI e) (s.rd (R.WMK_SUM_HI e))).wr (R.WMK_SNAP_CNT e)
    (s.rd (R.WMK_CNT e))

/-- The live watermark of entry `e` and its count are 0. -/
def liveCleared (e : Nat) (s : State) : State := ((s.wr (R.WMK_SUM_LO e) 0).wr (R.WMK_SUM_HI e) 0).wr (R.WMK_CNT e) 0

/-- The snapshot sequence of entry `e` is one further, modulo 65,536. -/
def sequenceAdvanced (e : Nat) (s : State) : State :=
  s.setFld (F.WMK_SNAP_SEQ_seq e) ((s.fld (F.WMK_SNAP_SEQ_seq e) + 1) % 65536)

section
variable (e : Nat) (s : State)

theorem rd_liveCopied (o : Nat) :
    (liveCopied e s).rd o =
      if o = R.WMK_SNAP_CNT e then s.rd (R.WMK_CNT e)
      else if o = R.WMK_SNAP_HI e then s.rd (R.WMK_SUM_HI e)
      else if o = R.WMK_SNAP_LO e then s.rd (R.WMK_SUM_LO e)
      else s.rd o := by
  simp only [liveCopied, State.rd_wr]

theorem rd_liveCleared (o : Nat) :
    (liveCleared e s).rd o = if o = R.WMK_CNT e ∨ o = R.WMK_SUM_HI e ∨ o = R.WMK_SUM_LO e then 0 else s.rd o := by
  simp only [liveCleared, State.rd_wr, ite_or]

theorem rd_sequenceAdvanced_ne {o : Nat} (h : o ≠ R.WMK_SNAP_SEQ e) : (sequenceAdvanced e s).rd o = s.rd o :=
  State.rd_setFld_ne s _ _ h

theorem fld_sequenceAdvanced :
    (sequenceAdvanced e s).fld (F.WMK_SNAP_SEQ_seq e) = (s.fld (F.WMK_SNAP_SEQ_seq e) + 1) % 65536 :=
  (State.fld_setFld_same s (F.WMK_SNAP_SEQ_seq e) _ (show 0 + 16 ≤ 32 by decide)).trans (Nat.mod_mod _ _)

/-- The copy reads the live registers as they stood: none of them is a register of the snapshot. -/
theorem snapWatermark_eq : snapWatermark e s = sequenceAdvanced e (liveCleared e (liveCopied e s)) := by
  have hlt := watermarkRegs_lt e
  simp (disch := omega) only [snapWatermark, State.rd_wr_ne, sequenceAdvanced, liveCleared, liveCopied]

/-! ### What a snapshot leaves -/

/-- A live register is 0, a snapshot register holds the live one, and the registers of neither stay. -/
theorem rd_snapWatermark_ne {o : Nat} (h : o ≠ R.WMK_SNAP_SEQ e) :
    (snapWatermark e s).rd o =
      if o = R.WMK_CNT e ∨ o = R.WMK_SUM_HI e ∨ o = R.WMK_SUM_LO e then 0
      else if o = R.WMK_SNAP_CNT e then s.rd (R.WMK_CNT e)
      else if o = R.WMK_SNAP_HI e then s.rd (R.WMK_SUM_HI e)
      else if o = R.WMK_SNAP_LO e then s.rd (R.WMK_SUM_LO e)
      else s.rd o := by
  rw [snapWatermark_eq, rd_sequenceAdvanced_ne e _ h, rd_liveCleared, rd_liveCopied]

/-- The sequence register is neither copied to nor cleared, so the sequence goes one further from where it stood. -/
theorem fld_snapWatermark_seq :
    (snapWatermark e s).fld (F.WMK_SNAP_SEQ_seq e) = (s.fld (F.WMK_SNAP_SEQ_seq e) + 1) % 65536 := by
  have hrd : (liveCleared e (liveCopied e s)).rd (R.WMK_SNAP_SEQ e) = s.rd (R.WMK_SNAP_SEQ e) := by
    have hlt := watermarkRegs_lt e
    simp (disch := omega) only [rd_liveCleared, rd_liveCopied, if_neg]
  have hfld : (liveCleared e (liveCopied e s)).fld (F.WMK_SNAP_SEQ_seq e) = s.fld (F.WMK_SNAP_SEQ_seq e) :=
    congrArg (fun w : Word => bits w.toNat 0 16) hrd
  rw [snapWatermark_eq, fld_sequenceAdvanced, hfld]

theorem snapWatermark_frame :
    (snapWatermark e s).mem = s.mem ∧ (snapWatermark e s).grp = s.grp ∧ (snapWatermark e s).fab = s.fab := by
  simp [snapWatermark_eq, sequenceAdvanced, liveCleared, liveCopied]

theorem rd_kept (t : State) (o : Nat) : (kept s t).rd o = t.rd o := rfl

theorem fld_kept (t : State) (f : FieldRef) : (kept s t).fld f = t.fld f := rfl

theorem kept_frame (t : State) : (kept s t).mem = t.mem ∧ (kept s t).grp = t.grp ∧ (kept s t).fab = t.fab := ⟨rfl, rfl, rfl⟩

theorem exec_snap (g : Fin 16384) : exec (.snap g) s = .next (kept s (snapWatermark g.val s)) := rfl

end

/-- Settles O34: `rd_snapWatermark_ne` says what each register but the sequence reads, and which case of it applies
the order of the registers tells. -/
theorem snapshotCopiesAndClears : Obligations.SnapshotCopiesAndClears := by
  unfold Obligations.SnapshotCopiesAndClears
  intro s g e
  have hlt := watermarkRegs_lt e
  have hrd (o : Nat) (ho : o ≠ R.WMK_SNAP_SEQ e) := rd_snapWatermark_ne e s ho
  refine ⟨kept s (snapWatermark e s), exec_snap s g, ?_⟩
  simp only [rd_kept, fld_kept, kept_frame]
  refine ⟨?copiedLo, ?copiedHi, ?copiedCnt, ?clearedLo, ?clearedHi, ?clearedCnt, fld_snapWatermark_seq e s,
    fun o hlo hhi hcnt hsumLo hsumHi hlive hseq => ?others, snapWatermark_frame e s⟩
  case copiedLo => rw [hrd _ (by omega), if_neg (by omega), if_neg (by omega), if_neg (by omega), if_pos rfl]
  case copiedHi => rw [hrd _ (by omega), if_neg (by omega), if_neg (by omega), if_pos rfl]
  case copiedCnt => rw [hrd _ (by omega), if_neg (by omega), if_pos rfl]
  case clearedLo => rw [hrd _ (by omega), if_pos (by omega)]
  case clearedHi => rw [hrd _ (by omega), if_pos (by omega)]
  case clearedCnt => rw [hrd _ (by omega), if_pos (by omega)]
  case others => rw [hrd _ hseq, if_neg (by omega), if_neg hcnt, if_neg hhi, if_neg hlo]

end Sys2Proof.Machine
end

section
/-! SUPPORT. Lane training: what a training frame does by the state that it finds, and which way a lost codeword, a retrain request
and a join go (Table 11-6, R379 to R384). -/

namespace Sys2Proof.Machine

/-! ### Training frames -/

/-- Lane `n` has heard a good frame: a signal, and the far end's precoding. -/
def signalHeard (n : Nat) (b : BitVec 128) (s : State) : State :=
  s.onLane n fun l => { l with signal := true, txPrecode := bitOf b.toNat 5 }

/-- In DETECT a good frame counts toward frame lock. -/
def frameCounted (n : Nat) (b : BitVec 128) (s : State) : State :=
  (signalHeard n b s).onLane n fun l => { l with marks := l.marks + 1 }

/-- Past DETECT a good frame tells whether the far end is ready. -/
def readyHeard (n : Nat) (b : BitVec 128) (s : State) : State := hearReady n (bitOf b.toNat 4) (signalHeard n b s)

section
variable {n p : Nat} {cdr : Bool} {b : BitVec 128} {s : State}

theorem goodFrame_of_detect (h : lstate s n = 1) :
    goodFrame n cdr b s
      = if cdr = true ∧ 4 ≤ ((frameCounted n b s).lane n).marks then (frameCounted n b s).setFld (F.LNE_STATUS_state n) 2
        else frameCounted n b s := by
  simp only [goodFrame, h, if_true, Bool.and_eq_true, decide_eq_true_eq]
  rfl

/-- Past DETECT a good frame of a lane without a port is heard and no more. -/
theorem goodFrame_of_noPort (h : lstate s n ≠ 1) (hp : portOfLane (readyHeard n b s) n = none) :
    goodFrame n cdr b s = readyHeard n b s := by
  unfold readyHeard signalHeard at *
  simp only [goodFrame, h, if_false, hp]

/-- Past DETECT a SYNC frame is taken in READY and SYNC, and any other good frame is heard and no more. -/
theorem goodFrame_of_port (h : lstate s n ≠ 1) (hp : portOfLane (readyHeard n b s) n = some p) :
    goodFrame n cdr b s
      = if bits b.toNat 0 4 = 1 ∧ (lstate s n = 3 ∨ lstate s n = 4) then
          syncFrame p n (bits b.toNat 8 8) (bits b.toNat 6 2) (readyHeard n b s)
        else readyHeard n b s := by
  unfold readyHeard signalHeard at *
  simp only [goodFrame, h, if_false, hp]

theorem goodFrame_of_not_sync (h : lstate s n ≠ 1)
    (hn : portOfLane (readyHeard n b s) n = none ∨ bits b.toNat 0 4 ≠ 1 ∨ (lstate s n ≠ 3 ∧ lstate s n ≠ 4)) :
    goodFrame n cdr b s = readyHeard n b s := by
  cases hp : portOfLane (readyHeard n b s) n with
  | none => exact goodFrame_of_noPort h hp
  | some p =>
    rw [goodFrame_of_port h hp, if_neg]
    rintro ⟨htype, hstate⟩
    rcases hn with hnone | hother | ⟨hready, hsync⟩
    · exact Option.some_ne_none p (hp.symm.trans hnone)
    · exact hother htype
    · exact hstate.elim hready hsync

end

/-! ### Codeword loss -/

/-- A lane that lost its codewords is back in DETECT, and may have lost CDR lock with them (R377, R384). -/
def codewordsLost (n : Nat) (s : State) : State :=
  (toDetect n s).withFree fun f v => if f % 2 = 1 then v.setFlag (F.LNE_STATUS_cdr_lock n) false else v

/-- While a lane of the port is left in ACTIVE, the 40 ms of R382 run. -/
def joinMeasured (p : Nat) (s : State) : State :=
  if (portLanes s p).any (fun m => lstate s m == 5) = true then
    s.onPln p fun l => { l with firstTrained := some (l.firstTrained.getD s.now) }
  else s

/-- Lane `n` is in the active set or in the receive set of its port. -/
abbrev InLaneSet (s : State) (p n : Nat) : Prop :=
  bitOf (s.fld (F.PRT_LANE_STATUS_active p)) (n - p) = true ∨ bitOf (s.pln p).rxMask (n - p) = true

section
variable {n p : Nat} {s : State}

theorem cwLoss_of_not_active (h : lstate s n ≠ 5) : cwLoss n s = s := if_neg h

theorem cwLoss_of_noPort (h : lstate s n = 5) (hp : portOfLane s n = none) : cwLoss n s = toDetect n s := by
  simp only [cwLoss, h, if_true, hp]

theorem cwLoss_of_port (h : lstate s n = 5) (hp : portOfLane s n = some p) :
    cwLoss n s
      = if InLaneSet s p n then linkLoss p (joinMeasured p (codewordsLost n s)) else joinMeasured p (codewordsLost n s) := by
  simp only [cwLoss, h, if_true, hp, Bool.or_eq_true]
  rfl

/-! ### Retrain requests -/

theorem retrainLane_of_running (hp : portOfLane s n = some p) (h : lstate s n = 5) (hu : linkUp s p = true) :
    retrainLane n s = needPropose p true (narrowMask s p [n]) s := by
  simp only [retrainLane, hp, h, hu, decide_true, Bool.and_self, if_true]

theorem retrainLane_of_not_running (h : ∀ p, portOfLane s n = some p → ¬ (lstate s n = 5 ∧ linkUp s p = true)) :
    retrainLane n s = laneRt n s := by
  unfold retrainLane
  cases hp : portOfLane s n with
  | none => rfl
  | some p => exact if_neg (by simpa only [Bool.and_eq_true, decide_eq_true_eq] using h p hp)

end

/-! ### Joining -/

/-- The lanes of a port that may join: the ACTIVE and the trained ones. -/
def joinable (s : State) (p : Nat) : List Nat := (portLanes s p).filter fun n => lstate s n == 5 || trained s n

/-- A port may join its lanes: it is enabled, its link is down, and no lane is in SYNC. -/
abbrev MayJoin (s : State) (p : Nat) : Prop :=
  portOn s p = true ∧ llState s p = 0 ∧ (portLanes s p).any (fun n => lstate s n == 4) = false

/-- 40 ms have passed since the first lane of the port was trained. -/
def JoinLate (s : State) (p : Nat) : Prop :=
  match (s.pln p).firstTrained with
  | some t => t + 40000000 ≤ s.now
  | none => False

/-- A port has all lanes that it will join (R382). -/
abbrev JoinDue (s : State) (p : Nat) : Prop := (joinable s p).length = (portLanes s p).length ∨ JoinLate s p

/-- The lowest lanes that join, in a power-of-two count. -/
def joiners (s : State) (p : Nat) : List Nat := (joinable s p).take (pow2Floor (joinable s p).length)

/-- A port is wide enough: its cause ends, and its lanes join unless they have. -/
def joined (p mask : Nat) (l : List Nat) (s : State) : State :=
  if mask = s.fld (F.PRT_LANE_STATUS_active p) ∧ l.all (fun n => lstate s n == 5) = true then s else joinLanes p mask s

/-- A port is too narrow, which is raised once. -/
def widthLow (p : Nat) (s : State) : State :=
  if s.flt.live.contains (Cause.portWidthLow, locPort p) = true then s else raise Cause.portWidthLow (locPort p) s

/-- `joinPort` turns back at once exactly on a port that may not join. -/
theorem not_mayJoin_iff (s : State) (p : Nat) :
    (!portOn s p || llState s p != 0 || (portLanes s p).any fun n => lstate s n == 4) = true ↔ ¬ MayJoin s p := by
  simp only [MayJoin, Bool.or_eq_true, Bool.not_eq_true', bne_iff_ne, ne_eq, Decidable.not_and_iff_not_or_not,
    Bool.not_eq_true, Bool.not_eq_false, or_assoc]

theorem joinLate_iff (s : State) (p : Nat) :
    (match (s.pln p).firstTrained with | some t => decide (t + 40000000 ≤ s.now) | none => false) = true ↔ JoinLate s p := by
  unfold JoinLate
  cases (s.pln p).firstTrained with
  | none => exact Bool.false_eq_true.to_iff
  | some t => exact decide_eq_true_iff

/-- `joinPort` turns back next exactly on a port that waits for more lanes. -/
theorem not_joinDue_iff (s : State) (p : Nat) :
    (!((joinable s p).length == (portLanes s p).length)
      && !(match (s.pln p).firstTrained with | some t => decide (t + 40000000 ≤ s.now) | none => false)) = true
        ↔ ¬ JoinDue s p := by
  rw [Bool.and_eq_true, Bool.not_eq_true', Bool.not_eq_true', ← Bool.not_eq_true, ← Bool.not_eq_true, joinLate_iff, beq_iff_eq,
    ← not_or]

section
variable {p : Nat} {s : State}

theorem joinPort_of_waiting (h : ¬ MayJoin s p ∨ ¬ JoinDue s p) : joinPort p s = s := by
  by_cases hmay : MayJoin s p
  · exact (if_neg fun hn => (not_mayJoin_iff s p).mp hn hmay).trans
      (if_pos ((not_joinDue_iff s p).mpr (h.resolve_left (not_not_intro hmay))))
  · exact if_pos ((not_mayJoin_iff s p).mpr hmay)

theorem joinPort_of_due (hmay : MayJoin s p) (hdue : JoinDue s p) :
    joinPort p s =
      if pow2Floor (joinable s p).length ≠ 0 ∧ minW s p ≤ pow2Floor (joinable s p).length then
        joined p (maskOf p (joiners s p)) (joiners s p) (endLive Cause.portWidthLow (locPort p) s)
      else widthLow p s :=
  (if_neg fun hn => (not_mayJoin_iff s p).mp hn hmay).trans (if_neg fun hn => (not_joinDue_iff s p).mp hn hdue)

end

/-! ### The commands -/

section
variable (lane port : Fin 512) (s : State)

theorem exec_trainingFrame (cdr : Bool) (block : BitVec 128) :
    exec (.trainingFrame lane cdr block) s = .next (kept s (settle (trainingFrame lane.val cdr block s))) := rfl
theorem exec_fll : exec (.fll lane) s = .next (kept s (settle (frameLoss lane.val s))) := rfl
theorem exec_ad : exec (.ad lane) s = .next (kept s (adapted lane.val s)) := rfl
theorem exec_cwloss {t : State} (h : cwLoss lane.val s = t) : exec (.cwloss lane) s = .next (kept s (settle t)) :=
  congrArg (fun u => Host.Outcome.next (kept s (settle u))) h
theorem exec_rt : exec (.rt lane) s = .next (kept s (settle (whenUp (lane.val / 128) (retrainLane lane.val) s))) := rfl
theorem exec_ttmo (signal : Bool) :
    exec (.ttmo lane signal) s = .next (kept s (settle (trainTimeout lane.val signal s))) := rfl
theorem exec_join {t : State} (h : joinPort port.val s = t) : exec (.join port) s = .next (kept s (settle t)) :=
  congrArg (fun u => Host.Outcome.next (kept s (settle u))) h

end

/-- Settles O39: frames, frame loss, adaptation and the timeout are their definitions, and each other way has its lemma above. -/
theorem laneTraining : Obligations.LaneTraining := by
  unfold Obligations.LaneTraining
  refine ⟨fun s lane cdr block => ?frame, fun s n cdr block => ⟨goodFrame_of_detect, fun h => ⟨fun p hp htype hst => ?sync,
    goodFrame_of_not_sync h⟩⟩, fun s lane => ⟨?frameLoss, ?adapts, fun h => ?inactive, fun h hp => ?unowned, fun p h hp => ?lost,
      fun h => ?inReset, fun hup => ⟨fun p hp h hu => ?running, fun h => ?trains⟩, fun signal => ?timeout⟩,
    fun s port => ⟨fun h => ?waits, fun hmay hdue => ?joins⟩⟩
  case frame => rw [exec_trainingFrame]; rfl
  case sync => rw [goodFrame_of_port h hp, if_pos ⟨htype, hst⟩]; rfl
  case frameLoss => rw [exec_fll]; rfl
  case adapts => rw [exec_ad]; rfl
  case inactive => exact exec_cwloss lane s (cwLoss_of_not_active h)
  case unowned => exact exec_cwloss lane s (cwLoss_of_noPort h hp)
  case lost => exact exec_cwloss lane s (cwLoss_of_port h hp)
  case inReset => exact exec_of_inReset (exec_rt lane s) h
  case running => exact exec_of_up (exec_rt lane s) hup (retrainLane_of_running hp h hu)
  case trains => exact exec_of_up (exec_rt lane s) hup (retrainLane_of_not_running h)
  case timeout => rw [exec_ttmo]; rfl
  case waits => exact exec_join port s (joinPort_of_waiting h)
  case joins => exact exec_join port s (joinPort_of_due hmay hdue)

end Sys2Proof.Machine
end

section
/-! SUPPORT. LANE packets and electrical idle: what each type of a LANE packet does (Table 11-9), and which way a transmitter that may
go idle goes (R385 to R388). -/

namespace Sys2Proof.Machine

/-! ### LANE packets -/

/-- A good LANE packet is taken on any port, restricted or not. -/
theorem controlGood_lane {port : Nat} {c : Ctl} (hc : c.ckind = 0x12#5) (s : State) :
    controlGood port c s
      = mirrorOnly port (mirSelect s false port (.ctl c)) (.ctl c) (lanePacket port c (giveCredits port c.queue.toNat 1 s)) := by
  have hdisc : c.ckind ≠ 0x10#5 := by rw [hc]; decide
  have htime : c.ckind ≠ 0x11#5 := by rw [hc]; decide
  rw [controlGood, if_neg hdisc, if_neg htime, if_pos hc]
  rfl

theorem lanePacket_rows (port : Nat) (c : Ctl) :
    lanePacket port (ctlOf 0x12 1 c) = takeProp port (ctlOf 0x12 1 c)
      ∧ lanePacket port (ctlOf 0x12 2 c) = takeAckProp port (ctlOf 0x12 2 c)
      ∧ lanePacket port (ctlOf 0x12 3 c) = takeGo port (ctlOf 0x12 3 c)
      ∧ lanePacket port (ctlOf 0x12 4 c) = eiArm port := by
  refine ⟨?_, ?_, ?_, ?_⟩ <;> (funext s; rw [lanePacket, type_ctlOf]; rfl)

/-- The commands that bring a LANE packet, with the type that each fixes (Table 11-9). -/
def laneRows : List ((Fin 512 → Ctl → Instr) × BitVec 4) := [(.prop, 1), (.ack, 2), (.go, 3), (.eiEnter, 4)]

theorem exec_laneRow {x : (Fin 512 → Ctl → Instr) × BitVec 4} (hx : x ∈ laneRows) (s : State) (port : Fin 512) (c : Ctl)
    {f : State → State} (hf : lanePacket port.val (ctlOf 0x12 x.2 c) = f) :
    exec (x.1 port c) s = .next (kept s (controlArrives port.val (ctlOf 0x12 x.2 c) f s)) := by
  have hrow : exec (x.1 port c) s = .next (kept s (arrive port.val (.ctl (ctlOf 0x12 x.2 c)) s)) := by
    simp only [laneRows, List.mem_cons, List.not_mem_nil, or_false] at hx
    rcases hx with rfl | rfl | rfl | rfl <;> rfl
  rw [hrow, arrive_ctl (controlGood_lane rfl), hf]

/-- What each of the four commands does. -/
theorem exec_lanePackets (s : State) (port : Fin 512) (c : Ctl) :
    exec (.prop port c) s
        = .next (kept s (controlArrives port.val (ctlOf 0x12 1 c) (takeProp port.val (ctlOf 0x12 1 c)) s))
      ∧ exec (.ack port c) s
        = .next (kept s (controlArrives port.val (ctlOf 0x12 2 c) (takeAckProp port.val (ctlOf 0x12 2 c)) s))
      ∧ exec (.go port c) s
        = .next (kept s (controlArrives port.val (ctlOf 0x12 3 c) (takeGo port.val (ctlOf 0x12 3 c)) s))
      ∧ exec (.eiEnter port c) s = .next (kept s (controlArrives port.val (ctlOf 0x12 4 c) (eiArm port.val) s)) := by
  obtain ⟨hprop, hack, hgo, henter⟩ := lanePacket_rows port.val c
  have row {x : (Fin 512 → Ctl → Instr) × BitVec 4} (hx : x ∈ laneRows) {f : State → State} := exec_laneRow hx s port c (f := f)
  exact ⟨row (x := (.prop, 1)) (by simp [laneRows]) hprop, row (x := (.ack, 2)) (by simp [laneRows]) hack,
    row (x := (.go, 3)) (by simp [laneRows]) hgo, row (x := (.eiEnter, 4)) (by simp [laneRows]) henter⟩

/-! ### Entry into electrical idle -/

/-- The transmitter of a port may enter electrical idle and has not yet. -/
abbrev MayIdle (s : State) (p : Nat) : Prop :=
  linkUp s p = true ∧ s.flag (F.PRT_EI_CFG_ei_en p) = true ∧ s.flag (F.PRT_EI_CFG_tx_ei p) = false

/-- After one link-control unit the transmitter is in electrical idle, which is counted. -/
def idleEntered (p : Nat) (s : State) : State :=
  ((sendLcu p (lcuNow s p) s).setFlag (F.PRT_EI_CFG_tx_ei p) true).bump (F.PRT_EI_ENTRY_CNT_count p)

/-- The lanes of a transmitter in electrical idle go off. -/
def lanesOff (p : Nat) (s : State) : State :=
  (forEach (activeSet s p) (fun n v => v.emit (.laneDrive n false)) s).onPln p fun l =>
    { l with eiSent := false, quietAt := none }

/-- A quiet transmitter announces electrical idle once its time has run. -/
def idleAnnounced (p t : Nat) (s : State) : State :=
  if t + max 1 (s.fld (F.PRT_EI_CFG_ei_ent p)) * 100 ≤ s.now then
    sendLaneMsg p 4 0 (s.onPln p fun l => { l with eiSent := true })
  else s

section
variable {p : Nat} {s : State}

theorem mayIdle_iff :
    (linkUp s p && s.flag (F.PRT_EI_CFG_ei_en p) && !s.flag (F.PRT_EI_CFG_tx_ei p) && txQuiet s p) = true
      ↔ MayIdle s p ∧ txQuiet s p = true := by
  simp only [MayIdle, Bool.and_eq_true, Bool.not_eq_true', and_assoc]

theorem eiEntry_of_not_idling (h : ¬ MayIdle s p ∨ ¬ txQuiet s p = true) :
    eiEntry p s = if txQuiet s p = true then s else s.onPln p fun l => { l with quietAt := none } :=
  if_neg fun hc => h.elim (absurd (mayIdle_iff.mp hc).1) (absurd (mayIdle_iff.mp hc).2)

variable (hmay : MayIdle s p) (hquiet : txQuiet s p = true)
include hmay hquiet

theorem eiEntry_of_announced (h : (s.pln p).eiSent = true) : eiEntry p s = lanesOff p (idleEntered p s) :=
  (if_pos (mayIdle_iff.mpr ⟨hmay, hquiet⟩)).trans (if_pos h)

theorem eiEntry_of_newly_quiet (h : (s.pln p).eiSent = false) (ht : (s.pln p).quietAt = none) :
    eiEntry p s = s.onPln p fun l => { l with quietAt := some s.now } := by
  rw [eiEntry, if_pos (mayIdle_iff.mpr ⟨hmay, hquiet⟩), if_neg (ne_true_of_eq_false h), ht]

theorem eiEntry_of_quiet_since {t : Nat} (h : (s.pln p).eiSent = false) (ht : (s.pln p).quietAt = some t) :
    eiEntry p s = idleAnnounced p t s := by
  rw [eiEntry, if_pos (mayIdle_iff.mpr ⟨hmay, hquiet⟩), if_neg (ne_true_of_eq_false h), ht]
  rfl

end

/-! ### The commands -/

section
variable (port : Fin 512) (s : State)

theorem exec_eiEntry {t : State} (h : eiEntry port.val s = t) : exec (.eiEntry port) s = .next (kept s (settle t)) :=
  congrArg (fun u => Host.Outcome.next (kept s (settle u))) h
theorem exec_eiExit : exec (.eiExit port) s = .next (kept s (settle (eiExit port.val s))) := rfl
theorem exec_receiveElectricalIdle :
    exec (.receiveElectricalIdle port) s = .next (kept s (settle (receiveIdle port.val s))) := rfl
theorem exec_eiExitFail : exec (.eiExitFail port) s = .next (kept s (settle (eiExitFail port.val s))) := rfl

end

/-- Settles O40: EI_ENTRY by the way that its transmitter goes, EI_ENTER as its row of Table 11-9, and the other three commands are
their definitions. -/
theorem electricalIdle : Obligations.ElectricalIdle := by
  unfold Obligations.ElectricalIdle
  refine ⟨fun s port => ⟨fun hmay hquiet => ⟨fun h => ?announced, fun h ht => ?newlyQuiet, fun t h ht => ?quietSince⟩,
    fun h => ?notIdling⟩, fun s port c => ?armed, fun s port => ⟨?exits, ?received, ?exitFails⟩⟩
  case announced => exact exec_eiEntry port s (eiEntry_of_announced hmay hquiet h)
  case newlyQuiet => exact exec_eiEntry port s (eiEntry_of_newly_quiet hmay hquiet h ht)
  case quietSince => exact exec_eiEntry port s (eiEntry_of_quiet_since hmay hquiet h ht)
  case notIdling => exact exec_eiEntry port s (eiEntry_of_not_idling h)
  case armed =>
    obtain ⟨-, -, -, henter⟩ := exec_lanePackets s port c
    exact henter
  case exits => rw [exec_eiExit]; rfl
  case received => rw [exec_receiveElectricalIdle]; rfl
  case exitFails => rw [exec_eiExitFail]; rfl

end Sys2Proof.Machine
end

section
/-! SUPPORT. Width changes: when a proposal goes, which end of two proposals goes on, what an ACK, a lapse and a retry leave, and the
error interval of a lane (R393 to R397). -/

namespace Sys2Proof.Machine

/-! ### Proposals -/

/-- A proposal goes to the peer under the next sequence number. -/
def proposalSent (p : Nat) (kind : Bool) (mask : Nat) (s : State) : State :=
  let seq := (s.fld (F.PRT_WIDTH_STATUS_seq p) + 1) % 256
  let u := sendLaneMsg p 1 (seq * 2 ^ 24 + ofBool kind * 2 ^ 23 + mask)
    ((s.setFld (F.PRT_WIDTH_STATUS_seq p) seq).setFlag (F.PRT_WIDTH_STATUS_busy p) true)
  u.onPln p fun l => { l with prop := some ⟨seq, kind, mask, u.now⟩, retry := none }

theorem propose_eq (p : Nat) (kind : Bool) (mask : Nat) (s : State) :
    propose p kind mask s
      = if (s.pln p).prop.isSome = true ∨ linkUp s p = false ∨ mask = 0 then s else proposalSent p kind mask s := by
  have hstay : ((s.pln p).prop.isSome || !linkUp s p || mask == 0) = true
      ↔ (s.pln p).prop.isSome = true ∨ linkUp s p = false ∨ mask = 0 := by
    simp only [Bool.or_eq_true, Bool.not_eq_true', beq_iff_eq, or_assoc]
  exact if_congr hstay rfl rfl

/-! ### The words of PROP and ACK -/

/-- The sequence number of a proposal or of its answer. -/
def propSeq (c : Ctl) : Nat := bits (wordAt c.body 0).toNat 24 8

/-- The lanes that a proposal names. -/
def propMask (c : Ctl) : Nat := bits (wordAt c.body 0).toNat 0 8

/-- A proposal is of kind 1. -/
def propKind (c : Ctl) : Bool := bitOf (wordAt c.body 0).toNat 23

/-- What an ACK answers: 0 agrees. -/
def ackResult (c : Ctl) : Nat := bits (wordAt c.body 0).toNat 20 4

/-- The serial of the peer's end as R395 compares it. -/
def peerTie (c : Ctl) : Nat := tieSerial (c.w1 ++ c.w2)

/-- No proposal is outstanding any more; what became of it shows. -/
def proposalEnded (p result : Nat) (s : State) : State :=
  (s.setFld (F.PRT_WIDTH_STATUS_result p) result).setFlag (F.PRT_WIDTH_STATUS_busy p) false

/-- The outstanding proposal is withdrawn (R395). -/
def withdrawn (p : Nat) (s : State) : State := proposalEnded p 3 (s.onPln p fun l => { l with prop := none })

section
variable {p : Nat} {c : Ctl} {o : Proposal} {s : State}

/-! ### A proposal received -/

theorem takeProp_of_none (h : (s.pln p).prop = none) :
    takeProp p c s = answerProp p (propSeq c) (propKind c) (propMask c) s := by
  rw [takeProp, h]
  rfl

/-- A withdrawn proposal goes again after the back-off of its port (R395). -/
def backedOff (p : Nat) (o : Proposal) (s : State) : State :=
  s.onPln p fun l => { l with retry := some { o with at_ := s.now + (p + 1) * 10000 } }

theorem takeProp_of_some (h : (s.pln p).prop = some o) :
    takeProp p c s
      = if o.mask = propMask c then agree p o.seq (propKind c || o.kind) (propMask c) 5 s
        else if tieSerial (ownSerial s) < peerTie c then s
        else if peerTie c < tieSerial (ownSerial s) then
          answerProp p (propSeq c) (propKind c) (propMask c) ((withdrawn p s).bump (F.PRT_TIE_LOST_CNT_count p))
        else backedOff p o ((withdrawn p s).bump (F.PRT_LANE_PROTO_CNT_count p)) := by
  rw [takeProp, h]
  rfl

theorem takeProp_of_same_mask (h : (s.pln p).prop = some o) (hm : o.mask = propMask c) :
    takeProp p c s = agree p o.seq (propKind c || o.kind) (propMask c) 5 s := by
  rw [takeProp_of_some h, if_pos hm]

section
variable (h : (s.pln p).prop = some o) (hm : o.mask ≠ propMask c)
include h hm

theorem takeProp_of_lower_serial (ht : tieSerial (ownSerial s) < peerTie c) : takeProp p c s = s := by
  rw [takeProp_of_some h, if_neg hm, if_pos ht]

theorem takeProp_of_higher_serial (ht : peerTie c < tieSerial (ownSerial s)) :
    takeProp p c s
      = answerProp p (propSeq c) (propKind c) (propMask c) ((withdrawn p s).bump (F.PRT_TIE_LOST_CNT_count p)) := by
  rw [takeProp_of_some h, if_neg hm, if_neg ht.asymm, if_pos ht]

theorem takeProp_of_equal_serials (ht : peerTie c = tieSerial (ownSerial s)) :
    takeProp p c s
      = ((withdrawn p s).bump (F.PRT_LANE_PROTO_CNT_count p)).onPln p fun l =>
          { l with retry := some { o with at_ := s.now + (p + 1) * 10000 } } := by
  have hnow : ((withdrawn p s).bump (F.PRT_LANE_PROTO_CNT_count p)).now = s.now := by simp [withdrawn, proposalEnded]
  rw [takeProp_of_some h, if_neg hm, if_neg ht.not_gt, if_neg ht.not_lt, backedOff, hnow]

end

/-! ### Its answer -/

theorem takeAckProp_of_none (h : (s.pln p).prop = none) : takeAckProp p c s = s := by
  rw [takeAckProp, h]

theorem takeAckProp_of_some (h : (s.pln p).prop = some o) :
    takeAckProp p c s
      = if propSeq c = o.seq then
          if ackResult c = 0 then agree p o.seq o.kind o.mask 1 s
          else proposalEnded p 2 (s.onPln p fun l => { l with prop := none, lapses := 0 })
        else s := by
  rw [takeAckProp, h]
  rfl

theorem takeAckProp_of_other_seq (h : (s.pln p).prop = some o) (hseq : propSeq c ≠ o.seq) : takeAckProp p c s = s := by
  rw [takeAckProp_of_some h, if_neg hseq]

theorem takeAckProp_of_agreed (h : (s.pln p).prop = some o) (hseq : propSeq c = o.seq) (ha : ackResult c = 0) :
    takeAckProp p c s = agree p o.seq o.kind o.mask 1 s := by
  rw [takeAckProp_of_some h, if_pos hseq, if_pos ha]

theorem takeAckProp_of_refused (h : (s.pln p).prop = some o) (hseq : propSeq c = o.seq) (ha : ackResult c ≠ 0) :
    takeAckProp p c s = proposalEnded p 2 (s.onPln p fun l => { l with prop := none, lapses := 0 }) := by
  rw [takeAckProp_of_some h, if_pos hseq, if_neg ha]

/-! ### Lapses and retries -/

/-- The outstanding proposal has lapsed. -/
def lapsed (p : Nat) (s : State) : State :=
  proposalEnded p 4 (s.onPln p fun l => { l with prop := none, lapses := l.lapses + 1 })

/-- The third lapse in a row is raised, and the end stops proposing. -/
def stoppedAfterLapses (p : Nat) (s : State) : State :=
  if 3 ≤ (s.pln p).lapses then raise Cause.portWidthTmo (locPort p) (s.onPln p fun l => { l with stopped := true }) else s

theorem lapse_of_none (h : (s.pln p).prop = none) : lapse p s = s := by
  rw [lapse, h]

theorem lapse_of_some (h : (s.pln p).prop = some o) :
    lapse p s = if o.at_ + 100000 ≤ s.now then stoppedAfterLapses p (lapsed p s) else s := by
  rw [lapse, h]
  rfl

theorem proposalRetry_of_none (h : (s.pln p).retry = none) : proposalRetry p s = s := by
  rw [proposalRetry, h]

theorem proposalRetry_of_some (h : (s.pln p).retry = some o) :
    proposalRetry p s = if o.at_ ≤ s.now then propose p o.kind o.mask s else s := by
  rw [proposalRetry, h]

end

/-! ### Error intervals -/

/-- The counts of an interval, added to the counters of the lane. -/
def errorsCounted (n corrected uncorrectable prbs : Nat) (s : State) : State :=
  ((s.bumpBy (F.LNE_FEC_CORR_CNT_count n) corrected).bumpBy (F.LNE_FEC_UNCORR_CNT_count n) uncorrectable).bumpBy
    (F.LNE_PRBS_ERR_CNT_count n) prbs

section
variable {n corrected uncorrectable prbs : Nat} {s : State}

theorem removalInterval_of_noPort (h : portOfLane s n = none) : removalInterval n corrected uncorrectable prbs s = s := by
  rw [removalInterval, h]

theorem removalInterval_of_port {p : Nat} (h : portOfLane s n = some p) {u : State}
    (hu : errorsCounted n corrected uncorrectable prbs s = u) :
    removalInterval n corrected uncorrectable prbs s
      = if lstate u n = 5 then removalActive p n corrected uncorrectable u else removalSoak p n prbs u := by
  subst hu
  rw [removalInterval, h]
  rfl

end

/-! ### The commands -/

section
variable (port lane : Fin 512) (s : State)

theorem exec_widthPropose (kind : Bool) (mask : BitVec 8) :
    exec (.widthPropose port kind mask) s
      = .next (kept s (settle (whenUp (portDie port.val) (widthPropose port.val kind mask.toNat) s))) := rfl
theorem exec_lapse {t : State} (h : lapse port.val s = t) : exec (.lapse port) s = .next (kept s (settle t)) :=
  congrArg (fun u => Host.Outcome.next (kept s (settle u))) h
theorem exec_proposalRetry {t : State} (h : proposalRetry port.val s = t) :
    exec (.proposalRetry port) s = .next (kept s (settle t)) :=
  congrArg (fun u => Host.Outcome.next (kept s (settle u))) h
theorem exec_removalInterval {corrected uncorrectable prbs : Nat} {t : State}
    (h : removalInterval lane.val corrected uncorrectable prbs s = t) :
    exec (.removalInterval lane corrected uncorrectable prbs) s = .next (kept s (settle t)) :=
  congrArg (fun u => Host.Outcome.next (kept s (settle u))) h

end

/-- Settles O41: each command is its meaning, and each way that a proposal, its answer and its time go has its lemma above. -/
theorem widthChanges : Obligations.WidthChanges := by
  unfold Obligations.WidthChanges
  refine ⟨fun s port kind mask => ?software, fun s p kind mask => propose_eq p kind mask s, fun s port c => ?packets,
    fun s p c => ⟨fun h => ?idle, fun o h => ?outstanding, ?goes⟩,
    fun s port => ⟨fun h => ?noneLapses, fun o h => ?lapses, fun h => ?noneRetried, fun o h => ?retried⟩,
    fun s lane corrected uncorrectable prbs => ⟨fun h => ?unowned, fun p h => ?counted⟩⟩
  case software => rw [exec_widthPropose]; rfl
  case packets =>
    obtain ⟨hprop, hack, hgo, -⟩ := exec_lanePackets s port c
    exact ⟨hprop, hack, hgo⟩
  case idle => exact ⟨takeProp_of_none h, takeAckProp_of_none h⟩
  case outstanding =>
    exact ⟨takeProp_of_same_mask h, takeProp_of_lower_serial h, takeProp_of_higher_serial h, takeProp_of_equal_serials h,
      takeAckProp_of_other_seq h, takeAckProp_of_agreed h, takeAckProp_of_refused h⟩
  case goes => rfl
  case noneLapses => exact exec_lapse port s (lapse_of_none h)
  case lapses => exact exec_lapse port s (lapse_of_some h)
  case noneRetried => exact exec_proposalRetry port s (proposalRetry_of_none h)
  case retried => exact exec_proposalRetry port s (proposalRetry_of_some h)
  case unowned => exact exec_removalInterval lane s (removalInterval_of_noPort h)
  case counted => exact exec_removalInterval lane s (removalInterval_of_port h rfl)

end Sys2Proof.Machine
end

section
/-! SUPPORT. Measurements of a lane: what a write of its margin control does, and the commands of the lane clocks and the histogram
(R400, R401, R407, R473). -/

namespace Sys2Proof.Machine

/-! ### Margin scans -/

/-- A scan starts in READY and in ACTIVE, and ends at once in any other state. -/
def scanGone (n : Nat) (s : State) : State :=
  if lstate s n = 3 ∨ lstate s n = 5 then s.setFlag (F.LNE_MARGIN_CTL_busy n) true else s.setFld (F.LNE_MARGIN_RES_status n) 2

/-- A write of LNE_MARGIN_CTL does more than change the register when it has go and no scan runs. -/
theorem marginScan_eq (n : Nat) (v : Word) (s : State) :
    marginScan n v s
      = if bitOf v.toNat 31 = false ∨ (s.storeReg (R.LNE_MARGIN_CTL n) v).flag (F.LNE_MARGIN_CTL_busy n) = true then
          s.storeReg (R.LNE_MARGIN_CTL n) v
        else scanGone n (s.storeReg (R.LNE_MARGIN_CTL n) v) := by
  have hgo : bitOf v.toNat 31 = false ∨ (s.storeReg (R.LNE_MARGIN_CTL n) v).flag (F.LNE_MARGIN_CTL_busy n) = true
      ↔ ¬ (bitOf v.toNat 31 && !(s.storeReg (R.LNE_MARGIN_CTL n) v).flag (F.LNE_MARGIN_CTL_busy n)) = true := by
    simp only [Bool.and_eq_true, Bool.not_eq_true', Decidable.not_and_iff_not_or_not, Bool.not_eq_true, Bool.not_eq_false]
  rw [if_congr hgo rfl rfl, ite_not]
  rfl

/-! ### The commands -/

section
variable (lane : Fin 512) (s : State)

theorem exec_marginScan (val : Word) :
    exec (.marginScan lane val) s = .next (kept s (whenUp (lane.val / 128) (marginScan lane.val val) s)) := rfl
theorem exec_marginScanEnd (neg pos : BitVec 7) :
    exec (.marginScanEnd lane neg pos) s
      = .next (kept s (whenUp (lane.val / 128) (marginScanEnd lane.val neg.toNat pos.toNat) s)) := rfl
theorem exec_fecHistogram (corrected : Nat) :
    exec (.fecHistogram lane corrected) s = .next (kept s (fecHistogram lane.val corrected s)) := rfl
theorem exec_laneRefclkLoss (b : Bool) : exec (.laneRefclkLoss b) s = .next (kept s (settle (laneClkLoss b s))) := rfl
theorem exec_laneRefclkReturn (b : Bool) : exec (.laneRefclkReturn b) s = .next (kept s (settle (laneClkReturn b s))) := rfl

end

/-- Settles O42: in a die held in reset a scan has no effect (R27), elsewhere a write of its control goes by `marginScan_eq`, and the
other commands are their definitions. -/
theorem laneMeasurements : Obligations.LaneMeasurements := by
  unfold Obligations.LaneMeasurements
  refine ⟨fun s lane val neg pos corrected => ⟨fun hdown => ⟨?writeDown, ?endDown⟩, fun hup => ⟨?write, ?ends⟩, ?second⟩,
    fun s b => ⟨?lost, ?returned⟩⟩
  case writeDown => rw [exec_marginScan, whenUp_of_inReset hdown]
  case endDown => rw [exec_marginScanEnd, whenUp_of_inReset hdown]
  case write =>
    rw [exec_marginScan, whenUp_of_up hup, marginScan_eq]
    rfl
  case ends =>
    rw [exec_marginScanEnd, whenUp_of_up hup]
    rfl
  case second => rw [exec_fecHistogram]; rfl
  case lost => rw [exec_laneRefclkLoss]; rfl
  case returned => rw [exec_laneRefclkReturn]; rfl

end Sys2Proof.Machine
end

section
/-! SUPPORT. Clock faults and die standby: what unlocks a die PLL, and what a write of a die's power register does by its standby bit
(R405, R406, R437 to R439). -/

namespace Sys2Proof.Machine

/-! ### Clocks -/

/-- In holdover, die reset, standby and a fatal state the unlocking of a die PLL changes nothing. -/
theorem pllUnlock_eq (d : Nat) (s : State) :
    pllUnlock d s
      = if inHoldover s = true ∨ inReset s d = true ∨ inStandby s d = true ∨ isFatal s = true then s
        else beginDieReset d (raise Cause.pllUnlock (locDie d 0) s) := by
  unfold pllUnlock
  simp only [Bool.or_eq_true, or_assoc]

/-! ### Writes of PWR_DIE_CTL -/

/-- The register and the MGMT limit after a write of PWR_DIE_CTL, before its standby bit acts. -/
def dieCtlWritten (d : Nat) (v : Word) (s : State) : State :=
  withLevels (fun s => setThr d 5 { level := bits v.toNat 0 3 } (s.storeReg (R.PWR_DIE_CTL d) v)) s

/-- standby = 1: a running die that may stand by does, one that may not sets sb_refused. -/
def standbyAsked (d : Nat) (s : State) : State :=
  if inStandby s d = true then s
  else if standbyOk s d = true then enterStandby d s
  else s.setFlag (F.PWR_DIE_STATUS_sb_refused d) true

/-- standby = 0 ends the standby of a die. -/
def standbyEnded (d : Nat) (s : State) : State := if inStandby s d = true then leaveStandby d s else s

theorem writeDieCtl_eq (d : Nat) (v : Word) (s : State) :
    writeDieCtl d v s
      = if bitOf v.toNat 31 = true then standbyAsked d (dieCtlWritten d v s) else standbyEnded d (dieCtlWritten d v s) := rfl

/-- A bit that is written is read. -/
theorem bitOf_putBits_ofBool (w : Word) {k : Nat} (hk : k < 32) (b : Bool) : bitOf (putBits w k 1 (ofBool b)).toNat k = b := by
  have hbits : bits (putBits w k 1 (ofBool b)).toNat k 1 = ofBool b % 2 ^ 1 := bits_putBits_same w k 1 (ofBool b) hk
  unfold bitOf
  rw [show (putBits w k 1 (ofBool b)).toNat / 2 ^ k % 2 = ofBool b % 2 ^ 1 from hbits]
  cases b <;> rfl

/-- The value of PWR_DIE_CTL with its standby bit replaced. -/
def standbyBit (d : Nat) (b : Bool) (s : State) : Word := putBits (s.rd (R.PWR_DIE_CTL d)) 31 1 (ofBool b)

theorem writeStandby_true (d : Nat) (s : State) :
    writeStandby d true s = standbyAsked d (dieCtlWritten d (standbyBit d true s) s) :=
  (writeDieCtl_eq d (standbyBit d true s) s).trans (if_pos (bitOf_putBits_ofBool _ (by decide) true))

theorem writeStandby_false (d : Nat) (s : State) :
    writeStandby d false s = standbyEnded d (dieCtlWritten d (standbyBit d false s) s) :=
  (writeDieCtl_eq d (standbyBit d false s) s).trans
    (if_neg (ne_true_of_eq_false (bitOf_putBits_ofBool _ (by decide) false)))

/-! ### The commands -/

section
variable (die : Fin 4) (s : State)

theorem exec_aonClkLoss : exec .aonClkLoss s = .next (kept s (aonClkLoss s)) := rfl
theorem exec_coreRefclkLoss : exec .coreRefclkLoss s = .next (kept s (coreClkLoss s)) := rfl
theorem exec_coreRefclkReturn : exec .coreRefclkReturn s = .next (kept s (coreClkReturn s)) := rfl
theorem exec_pllUnlock : exec (.pllUnlock die) s = .next (kept s (settle (pllUnlock die.val s))) := rfl
theorem exec_dieStandby : exec (.dieStandby die) s = .next (kept s (writeStandby die.val true s)) := rfl
theorem exec_dieStandbyExit : exec (.dieStandbyExit die) s = .next (kept s (writeStandby die.val false s)) := rfl

end

/-- Settles O43: a die PLL goes by `pllUnlock_eq`, a write of standby alone by its bit, and the clock inputs by their definitions. -/
theorem clocksAndStandby : Obligations.ClocksAndStandby := by
  unfold Obligations.ClocksAndStandby
  refine ⟨fun s => ⟨?aonLost, ?coreLost, ?coreBack⟩, fun s die => ⟨?unlocked, ?enter, ?leave⟩⟩
  case aonLost => rw [exec_aonClkLoss]; rfl
  case coreLost => rw [exec_coreRefclkLoss]; rfl
  case coreBack => rw [exec_coreRefclkReturn]; rfl
  case unlocked => rw [exec_pllUnlock, pllUnlock_eq]
  case enter => rw [exec_dieStandby, writeStandby_true]; rfl
  case leave => rw [exec_dieStandbyExit, writeStandby_false]; rfl

end Sys2Proof.Machine
end

section
/-! SUPPORT. The power sequences: the stages of power-up, and which way a rail that goes off, stays on or runs far from its request
goes (Tables 12-6 and 12-7, R414 to R422). -/

namespace Sys2Proof.Machine

/-! ### Power-up -/

/-- Steps 2 and 3 of Table 12-6: POR_N is high; the fuses, Selvedge and the board record are read. -/
def porRead (b : Board) (s : State) : State :=
  let v := (loadSelvedge (readFuses { s with pwr := { s.pwr with por := false } })).bumpSel 0x1C
  readBoard b { v with pwr := { v.pwr with
    testMode := b.testEn && (v.fuses.lcState == 0 || v.fuses.lcState == 3), rstLow := b.rstLow } }

/-- A missing power table is raised. -/
def pwrTableChecked (s : State) : State := if s.pwr.table = none then raise Cause.pwrTable locNone s else s

/-- A missing equalisation table is raised. -/
def eqTableChecked (s : State) : State := if s.lanes.eqTable = none then raise Cause.eqTable locNone s else s

/-- Bad fuses are fatal. -/
def fusesChecked (s : State) : State := if s.ecc.fuseBad = true then raiseFatal Cause.fuseErr locNone 0 s else s

/-- Power-up reads, raises what is missing and switches the third rail on; it happens in power-on reset only. -/
theorem powerUp_eq (b : Board) (s : State) :
    powerUp b s
      = if s.pwr.por = false then s
        else railOn 2 (setSeq 1 (ownPins (railIsGood 1 (railIsGood 0
          (fusesChecked (eqTableChecked (pwrTableChecked (porRead b s)))))))) := by
  unfold powerUp fusesChecked eqTableChecked pwrTableChecked porRead
  simp only [Bool.not_eq_true', Option.isNone_iff_eq_none]

/-! ### Rails that go off -/

section
variable {s : State} {r : Nat}

/-- The rail at the head goes off, and the next one follows. -/
theorem railOff_of_head {rest : List Nat} (h : s.pwr.toOff = r :: rest) :
    railOff r s = nextOff ((s.setFld (F.PWR_RAIL_MV_state r) 0).setFlag ⟨R.PWR_STATUS, r, 1⟩ false) := by
  unfold railOff
  simp only [h, if_true]

theorem railOff_of_not_head (h : s.pwr.toOff.head? ≠ some r) : railOff r s = s := by
  unfold railOff
  cases hl : s.pwr.toOff with
  | nil => rfl
  | cons k l => exact if_neg fun hk => h (by rw [hl, hk]; rfl)

/-- The rail at the head that is late, or whose regulator does not acknowledge, is an error, and the next one follows. -/
theorem railOffFail_of_head {rest : List Nat} (h : s.pwr.toOff = r :: rest) :
    railOffFail r s
      = if s.pwr.deadline ≤ s.now ∨ (pwrEntry s r).method = 1 then
          nextOff (seqError r (10 - r) (railEvent 0x80 r (10 - r) s))
        else s := by
  unfold railOffFail
  simp only [h, true_and]

theorem railOffFail_of_not_head (h : s.pwr.toOff.head? ≠ some r) : railOffFail r s = s := by
  unfold railOffFail
  cases hl : s.pwr.toOff with
  | nil => rfl
  | cons k l => exact if_neg fun hk => h (by rw [hl, hk.1]; rfl)

/-! ### Rails far from their request -/

theorem railFault_of_near (h : (railMon s r).farSince = none) : railFault r s = s := by
  unfold railFault
  rw [h]

theorem railFault_of_far {t : Nat} (h : (railMon s r).farSince = some t) :
    railFault r s
      = if seqOf s = 2 ∧ t + 100000 < s.now then raiseFatal Cause.railFault (locRail r) 0 s else s := by
  unfold railFault
  rw [h]

end

/-! ### Power-down -/

/-- off starts the power-down when the sequence is ON. -/
theorem orderlyDown_eq (v : Word) (s : State) :
    orderlyDown v s
      = if bitOf v.toNat 31 = true ∧ seqOf (s.storeReg R.PWR_CTL v) = 2 then startDown false (s.storeReg R.PWR_CTL v)
        else s.storeReg R.PWR_CTL v := by
  unfold orderlyDown
  simp only [Bool.and_eq_true, beq_iff_eq]

/-- The wipe of Table 12-7, where it is asked for and nothing cut it short. -/
def sramWiped (s : State) : State :=
  if s.flag F.PWR_CTL_wipe_on_off = true ∧ s.pwr.wipeCut = false then wipeSram s else s

/-- Once drain and wipe are done the rails go off. -/
theorem wipeDone_eq (s : State) :
    wipeDone s
      = if seqOf s = 3 ∧ s.pwr.toOff = [] ∧ s.pwr.step = 2 then switchOff (railsOn (sramWiped s)) (sramWiped s) else s := by
  unfold wipeDone sramWiped
  simp only [Bool.and_eq_true, Bool.not_eq_true']

/-! ### The commands -/

section
variable (rail : Fin 7) (s : State) {t : State}

theorem exec_powerUp (b : Board) : exec (.powerUp b) s = .next (kept s (powerUp b s)) := rfl
theorem exec_railGood : exec (.railGood rail) s = .next (kept s (railGood rail.val s)) := rfl
theorem exec_railOff (h : railOff rail.val s = t) : exec (.railOff rail) s = .next (kept s t) :=
  congrArg (fun u => Host.Outcome.next (kept s u)) h
theorem exec_railOffFail (h : railOffFail rail.val s = t) : exec (.railOffFail rail) s = .next (kept s t) :=
  congrArg (fun u => Host.Outcome.next (kept s u)) h
theorem exec_railFault (h : railFault rail.val s = t) : exec (.railFault rail) s = .next (kept s (settle t)) :=
  congrArg (fun u => Host.Outcome.next (kept s (settle u))) h
theorem exec_railSeq : exec .railSeq s = .next (kept s (settle (railSeqFail s))) := rfl
theorem exec_orderlyPowerDown (v : Word) : exec (.orderlyPowerDown v) s = .next (kept s (settle (orderlyDown v s))) := rfl
theorem exec_sramWipeDone : exec .sramWipeDone s = .next (kept s (wipeDone s)) := rfl
theorem exec_railMonitor (mv : List Nat) : exec (.railMonitor mv) s = .next (kept s (railMonitor mv s)) := rfl

end

/-- Settles O44: power-up by its stages, a rail that goes off by its place in the list, and each other command by the lemma above or its
definition. -/
theorem powerSequences : Obligations.PowerSequences := by
  unfold Obligations.PowerSequences
  refine ⟨fun s b => ?up, fun s rail => ⟨?good, fun rest h => ⟨?off, ?stuck⟩, fun h => ⟨?otherOff, ?otherStuck⟩, fun h => ?near,
    fun t h => ?far⟩, fun s val mv => ⟨?late, ?down, ?wiped, ?sampled⟩⟩
  case up => rw [exec_powerUp, powerUp_eq]; rfl
  case good => rw [exec_railGood]; rfl
  case off => exact exec_railOff rail s (railOff_of_head h)
  case stuck => exact exec_railOffFail rail s (railOffFail_of_head h)
  case otherOff => exact exec_railOff rail s (railOff_of_not_head h)
  case otherStuck => exact exec_railOffFail rail s (railOffFail_of_not_head h)
  case near => exact exec_railFault rail s (railFault_of_near h)
  case far => exact exec_railFault rail s (railFault_of_far h)
  case late => rw [exec_railSeq]; rfl
  case down => rw [exec_orderlyPowerDown, orderlyDown_eq]
  case wiped => rw [exec_sramWipeDone, wipeDone_eq]; rfl
  case sampled => rw [exec_railMonitor]; rfl

end Sys2Proof.Machine
end

section
/-! SUPPORT. Operating levels and throttle limits: one step of a die's effective level, and how a limit moves at a reading
(Table 12-9, R424 to R429). -/

namespace Sys2Proof.Machine

/-! ### Steps of the effective level -/

/-- A die's effective level becomes `n`. -/
def levelShown (d n : Nat) (s : State) : State := s.setFld (F.PWR_DIE_STATUS_eff_lvl d) n

/-- A faster level that follows requests for VDD_CORE: requested first, and taken when no raise is in progress. -/
def fasterByRequest (d : Nat) (s : State) : State :=
  if s.fld F.PWR_VCORE_req_mv < needMv s (effLvl s d - 1) then
    requestMv (needMv s (effLvl s d - 1)) { s with pwr := { s.pwr with raising := true } }
  else if s.pwr.raising = true then s
  else levelShown d (effLvl s d - 1) s

/-- A faster level at a fixed VDD_CORE: taken when the measured voltage covers it. -/
def fasterByMeasure (d : Nat) (s : State) : State :=
  if measuredCovers s (effLvl s d - 1) = true then levelShown d (effLvl s d - 1) s else s

section
variable {d : Nat} {s : State}

theorem levelStep_of_standby (h : inStandby s d = true) : levelStep d s = s := if_pos h

/-- A running die's step, by where its level stands to its target. -/
theorem levelStep_of_running (h : inStandby s d = false) :
    levelStep d s
      = if effLvl s d < targetLvl s d then lowerRequest (levelShown d (effLvl s d + 1) s)
        else if targetLvl s d < effLvl s d then
          if 4 < effLvl s d then levelShown d (effLvl s d - 1) s
          else if followsVdd s = true then fasterByRequest d s
          else fasterByMeasure d s
        else lowerRequest s := if_neg (ne_true_of_eq_false h)

theorem levelStep_of_below (h : inStandby s d = false) (hlt : effLvl s d < targetLvl s d) :
    levelStep d s = lowerRequest (levelShown d (effLvl s d + 1) s) := by
  rw [levelStep_of_running h, if_pos hlt]

theorem levelStep_of_reached (h : inStandby s d = false) (heq : effLvl s d = targetLvl s d) : levelStep d s = lowerRequest s := by
  rw [levelStep_of_running h, heq, if_neg (Nat.lt_irrefl _), if_neg (Nat.lt_irrefl _)]

section
variable (h : inStandby s d = false) (hgt : targetLvl s d < effLvl s d)
include h hgt

/-- Above its target a die looks for the level below. -/
theorem levelStep_of_above :
    levelStep d s
      = if 4 < effLvl s d then levelShown d (effLvl s d - 1) s
        else if followsVdd s = true then fasterByRequest d s
        else fasterByMeasure d s := by
  rw [levelStep_of_running h, if_neg (Nat.lt_asymm hgt), if_pos hgt]

theorem levelStep_of_slow (h4 : 4 < effLvl s d) : levelStep d s = levelShown d (effLvl s d - 1) s := by
  rw [levelStep_of_above h hgt, if_pos h4]

theorem levelStep_of_requests (h4 : effLvl s d ≤ 4) (hf : followsVdd s = true) : levelStep d s = fasterByRequest d s := by
  rw [levelStep_of_above h hgt, if_neg (Nat.not_lt.mpr h4), if_pos hf]

theorem levelStep_of_measures (h4 : effLvl s d ≤ 4) (hf : followsVdd s = false) : levelStep d s = fasterByMeasure d s := by
  rw [levelStep_of_above h hgt, if_neg (Nat.not_lt.mpr h4), if_neg (ne_true_of_eq_false hf)]

end
end

/-! ### Limits -/

section
variable (d r span : Nat) (below : Bool) (s : State)

theorem moveThr_above :
    moveThr d r true below span s = setThr d r { thr s d r with level := (thr s d r).level + 1, lowSince := none } s := rfl

theorem moveThr_between : moveThr d r false false span s = setThr d r { thr s d r with lowSince := none } s := rfl

variable {d r s}

theorem moveThr_newly_below (h : (thr s d r).lowSince = none) :
    moveThr d r false true span s = setThr d r { thr s d r with lowSince := some s.now } s := by
  simp [moveThr, h]

theorem moveThr_below_since {since : Nat} (h : (thr s d r).lowSince = some since) :
    moveThr d r false true span s
      = if since + span ≤ s.now then setThr d r { thr s d r with level := (thr s d r).level - 1, lowSince := some s.now } s
        else s := by
  simp [moveThr, h]

end

/-- The DROOP limit at the end of a window: up by one when stretched for long, else down by one 10 ms after its last move. -/
def droopMoved (d stretch : Nat) (s : State) : State :=
  let t := thr s d 2
  if 25000 < stretch then setThr d 2 { t with level := t.level + 1, lowSince := some s.now } s
  else match t.lowSince with
    | none => s
    | some since =>
      if since + 10000000 ≤ s.now then setThr d 2 { t with level := t.level - 1, lowSince := some s.now } s else s

/-- The TEMP limit at a hot reading: up by one when the last rise was 1 ms ago. -/
def tempRaised (d : Nat) (s : State) : State :=
  let t := thr s d 3
  let due := match t.raisedAt with | some a => decide (a + 1000000 ≤ s.now) | none => true
  if due = true then setThr d 3 { level := t.level + 1, raisedAt := some s.now, lowSince := none } s
  else setThr d 3 { t with lowSince := none } s

/-- The TEMP limit at a reading: it rises from 105 °C on, and below 103 °C it falls. -/
def tempMoved (d : Nat) (s : State) : State :=
  if 1680 ≤ dieTemp s d then tempRaised d s else moveThr d 3 false (decide (dieTemp s d < 1648)) 10000000 s

section
variable {d : Nat} {s : State}

theorem droop_of_standby (h : inStandby s d = true) (stretch : Nat) : droop d stretch s = s := if_pos h

theorem droop_of_running (h : inStandby s d = false) (stretch : Nat) : droop d stretch s = withLevels (droopMoved d stretch) s :=
  if_neg (ne_true_of_eq_false h)

theorem temp_of_standby (h : inStandby s d = true) : temp d s = s := if_pos h

theorem temp_of_running (h : inStandby s d = false) : temp d s = withLevels (tempMoved d) s := if_neg (ne_true_of_eq_false h)

end

/-! ### The commands -/

section
variable (die : Fin 4) (s : State) {t : State}

theorem exec_phaseSelect (v : Word) : exec (.phaseSelect v) s = .next (kept s (phaseSelect v s)) := rfl
theorem exec_throttleNFall : exec .throttleNFall s = .next (kept s (setExt true s)) := rfl
theorem exec_throttleNRise : exec .throttleNRise s = .next (kept s (setExt false s)) := rfl
theorem exec_mgmt (v : Word) : exec (.mgmt die v) s = .next (kept s (writeDieCtl die.val v s)) := rfl
theorem exec_levelStep (h : levelStep die.val s = t) : exec (.levelStep die) s = .next (kept s t) :=
  congrArg (fun u => Host.Outcome.next (kept s u)) h
theorem exec_pcap (watts : Nat) : exec (.pcap watts) s = .next (kept s (pcap watts s)) := rfl
theorem exec_icap (amps : Nat) : exec (.icap amps) s = .next (kept s (icap amps s)) := rfl
theorem exec_droop (stretch : Nat) : exec (.droop die stretch) s = .next (kept s (droop die.val stretch s)) := rfl
theorem exec_temp : exec (.temp die) s = .next (kept s (temp die.val s)) := rfl

end

/-- Settles O45: a step of the level by its case above, a moving limit by the reading, and the writes, caps and THROTTLE_N by their
definitions. -/
theorem levelsAndThrottling : Obligations.LevelsAndThrottling := by
  unfold Obligations.LevelsAndThrottling
  refine ⟨fun s val => ⟨?phase, ?extFall, ?extRise⟩, fun s die val => ?dieCtl,
    fun s die => ⟨fun h => ?resting, fun h => ⟨fun hlt => ?slower, fun heq => ?reached, fun hgt h4 => ?faster,
      fun hgt h4 hf => ?requested, fun hgt h4 hf => ?measured⟩⟩,
    fun s x => ⟨?power, ?current⟩, fun s d r span below => ⟨?above, ?between, fun h => ?newlyBelow, fun since h => ?belowSince⟩,
    fun s die stretch => ⟨fun h => ⟨?stillDroop, ?stillTemp⟩, fun h => ⟨?droops, ?heats⟩⟩⟩
  case phase => rw [exec_phaseSelect]; rfl
  case extFall => rw [exec_throttleNFall]; rfl
  case extRise => rw [exec_throttleNRise]; rfl
  case dieCtl => rw [exec_mgmt, writeDieCtl_eq]; rfl
  case resting => exact exec_levelStep die s (levelStep_of_standby h)
  case slower => exact exec_levelStep die s (levelStep_of_below h hlt)
  case reached => exact exec_levelStep die s (levelStep_of_reached h heq)
  case faster => exact exec_levelStep die s (levelStep_of_slow h hgt h4)
  case requested => exact exec_levelStep die s (levelStep_of_requests h hgt h4 hf)
  case measured => exact exec_levelStep die s (levelStep_of_measures h hgt h4 hf)
  case power => rw [exec_pcap]; rfl
  case current => rw [exec_icap]; rfl
  case above => exact moveThr_above d r span below s
  case between => exact moveThr_between d r span s
  case newlyBelow => exact moveThr_newly_below span h
  case belowSince => exact moveThr_below_since span h
  case stillDroop => rw [exec_droop, droop_of_standby h]
  case stillTemp => rw [exec_temp, temp_of_standby h]
  case droops => rw [exec_droop, droop_of_running h]; rfl
  case heats => rw [exec_temp, temp_of_running h]; rfl

end Sys2Proof.Machine
end

section
/-! SUPPORT. Sensors and energy: the registers that an alert and a live bit write, and what a reading leaves in its own register
(R430 to R436, R473). -/

namespace Sys2Proof.Machine

/-! ### What alerts and live bits leave alone -/

section
variable {k : Nat}

theorem rd_sendMsix_ne {v : Nat} (h : k ≠ R.MSIX_PBA (v / 32)) (s : State) : (sendMsix v s).rd k = s.rd k := by
  unfold sendMsix
  split
  · rfl
  · exact State.rd_setFlag_ne s _ true h

theorem rd_raiseInt_ne {v : Nat} (hs : k ≠ R.MIO_INT_STATUS) (hp : k ≠ R.MSIX_PBA (v / 32)) (s : State) :
    (raiseInt v s).rd k = s.rd k := by
  have hset : (s.setFlag ⟨R.MIO_INT_STATUS, v, 1⟩ true).rd k = s.rd k := State.rd_setFlag_ne s _ true hs
  unfold raiseInt
  dsimp only
  split
  · rfl
  · split
    · rw [rd_sendMsix_ne hp, hset]
    · exact hset

theorem rd_setAlert_ne (ha : k ≠ R.PWR_ALERT_STATUS) (hs : k ≠ R.MIO_INT_STATUS) (hp : k ≠ R.MSIX_PBA 0) (bit : Nat) (s : State) :
    (setAlert bit s).rd k = s.rd k := by
  have hset : (s.setFlag ⟨R.PWR_ALERT_STATUS, bit, 1⟩ true).rd k = s.rd k := State.rd_setFlag_ne s _ true ha
  unfold setAlert watchAlert
  dsimp only
  split
  · rw [rd_raiseInt_ne hs hp, hset]
  · exact hset

section
variable (hl : k ≠ R.FLT_LIVE_LO) (hh : k ≠ R.FLT_LIVE_HI) (c : Nat) (loc : Word) (s : State)
include hl hh

theorem rd_showLive_ne : (showLive c s).rd k = s.rd k := by
  refine State.rd_setFlag_ne s _ _ ?_
  unfold liveBit
  split
  · exact hl
  · exact hh

theorem rd_beginLive_ne : (beginLive c loc s).rd k = s.rd k := by
  unfold beginLive
  split
  · rfl
  · exact rd_showLive_ne hl hh c _

theorem rd_endLive_ne : (endLive c loc s).rd k = s.rd k := rd_showLive_ne hl hh c _

end
end

/-! ### A reading -/

/-- PWR_TEMP takes a reading: the last one, and the highest (R433). -/
def readingShown (i : Nat) (t : BitVec 16) (s : State) : State :=
  let u := s.setFld (F.PWR_TEMP_temp i) t.toNat
  if reading (u.fld (F.PWR_TEMP_max i)) < reading t.toNat then u.setFld (F.PWR_TEMP_max i) t.toNat else u

/-- The minute's highest reading of the sensor's die takes a reading (R473). -/
def minuteTaken (i : Nat) (t : BitVec 16) (s : State) : State :=
  let x := reading t.toNat
  let k := sensorDie i
  let top := match Sparse.get (fun _ => (none : Option Int)) s.pwr.minMax k with | some y => max x y | none => x
  { s with pwr := { s.pwr with minMax := Sparse.put (fun _ => (none : Option Int)) s.pwr.minMax k (some top) } }

/-- A reading that reaches the warn threshold from below alerts (R436). -/
def warned (before x : Int) (s : State) : State :=
  if before < Int.ofNat (s.fld F.PWR_TEMP_CFG_warn) * 16 ∧ Int.ofNat (s.fld F.PWR_TEMP_CFG_warn) * 16 ≤ x then setAlert 6 s else s

/-- The THERMTRIP live bit follows a sensor (R444). -/
def tripShown (i : Nat) (x : Int) (s : State) : State :=
  if 1840 ≤ x then beginLive 0 (locSensor i) s
  else if s.flt.live.contains (0, locSensor i) then endLive 0 (locSensor i) s else s

section
variable (i : Nat) (t : BitVec 16) (s : State)

theorem takeReading_eq :
    takeReading i t s
      = tripShown i (reading t.toNat)
          (warned (reading (s.fld (F.PWR_TEMP_temp i))) (reading t.toNat) (minuteTaken i t (readingShown i t s))) := rfl

theorem rd_minuteTaken (k : Nat) : (minuteTaken i t s).rd k = s.rd k := rfl

theorem rd_warned_ne {k : Nat} (ha : k ≠ R.PWR_ALERT_STATUS) (hs : k ≠ R.MIO_INT_STATUS) (hp : k ≠ R.MSIX_PBA 0) (before x : Int) :
    (warned before x s).rd k = s.rd k := by
  unfold warned
  split
  · exact rd_setAlert_ne ha hs hp 6 s
  · rfl

theorem rd_tripShown_ne {k : Nat} (hl : k ≠ R.FLT_LIVE_LO) (hh : k ≠ R.FLT_LIVE_HI) (x : Int) :
    (tripShown i x s).rd k = s.rd k := by
  unfold tripShown
  split
  · exact rd_beginLive_ne hl hh 0 _ s
  · split
    · exact rd_endLive_ne hl hh 0 _ s
    · rfl

/-- What else a reading does leaves the sensor's own register alone. -/
theorem rd_takeReading_own {i : Nat} (hi : i < 24) :
    (takeReading i t s).rd (R.PWR_TEMP i) = (readingShown i t s).rd (R.PWR_TEMP i) := by
  have ha : R.PWR_TEMP i ≠ R.PWR_ALERT_STATUS := by unfold R.PWR_TEMP R.PWR_ALERT_STATUS; omega
  have hs : R.PWR_TEMP i ≠ R.MIO_INT_STATUS := by unfold R.PWR_TEMP R.MIO_INT_STATUS; omega
  have hp : R.PWR_TEMP i ≠ R.MSIX_PBA 0 := by unfold R.PWR_TEMP R.MSIX_PBA; omega
  have hl : R.PWR_TEMP i ≠ R.FLT_LIVE_LO := by unfold R.PWR_TEMP R.FLT_LIVE_LO; omega
  have hh : R.PWR_TEMP i ≠ R.FLT_LIVE_HI := by unfold R.PWR_TEMP R.FLT_LIVE_HI; omega
  rw [takeReading_eq, rd_tripShown_ne _ _ hl hh, rd_warned_ne _ ha hs hp, rd_minuteTaken]

/-- So its fields read as the reading left them. -/
theorem fld_takeReading_own {i : Nat} (hi : i < 24) {f : FieldRef} (hf : f.off = R.PWR_TEMP i) :
    (takeReading i t s).fld f = (readingShown i t s).fld f := by
  unfold State.fld
  rw [hf, rd_takeReading_own t s hi]

theorem fld_temp_readingShown : (readingShown i t s).fld (F.PWR_TEMP_temp i) = t.toNat := by
  have hlast : (s.setFld (F.PWR_TEMP_temp i) t.toNat).fld (F.PWR_TEMP_temp i) = t.toNat :=
    (State.fld_setFld_same s _ _ (show 0 + 16 ≤ 32 by decide)).trans (Nat.mod_eq_of_lt t.isLt)
  unfold readingShown
  dsimp only
  split
  · exact (State.fld_setFld_ne _ (F.PWR_TEMP_max i) (F.PWR_TEMP_temp i) _ (.inr (.inr (Nat.le_refl 16)))).trans hlast
  · exact hlast

theorem fld_max_readingShown :
    (readingShown i t s).fld (F.PWR_TEMP_max i)
      = if reading (s.fld (F.PWR_TEMP_max i)) < reading t.toNat then t.toNat else s.fld (F.PWR_TEMP_max i) := by
  have hmax : (s.setFld (F.PWR_TEMP_temp i) t.toNat).fld (F.PWR_TEMP_max i) = s.fld (F.PWR_TEMP_max i) :=
    State.fld_setFld_ne s _ _ _ (.inr (.inl (Nat.le_refl 16)))
  unfold readingShown
  dsimp only
  rw [hmax]
  split
  · exact (State.fld_setFld_same _ (F.PWR_TEMP_max i) _ (Nat.le_refl 32)).trans (Nat.mod_eq_of_lt t.isLt)
  · exact hmax

end

/-! ### The minute's histogram -/

/-- Folds of steps that agree agree. -/
theorem forEach_congr {α σ : Type} {f g : α → σ → σ} (h : ∀ a s, f a s = g a s) (l : List α) (s : σ) :
    forEach l f s = forEach l g s :=
  congrArg (fun k => forEach l k s) (funext fun a => funext (h a))

/-- A die that took a reading in the minute counts its highest one. -/
def minuteCounted (i : Nat) (s : State) : State :=
  match Sparse.get (fun _ => (none : Option Int)) s.pwr.minMax i with
  | some t => s.bumpSel (0x100 + i * 64 + tempBin t * 4)
  | none => s

/-- The minute starts over. -/
def minuteEnded (s : State) : State := { s with pwr := { s.pwr with minMax := [] } }

theorem tempHistogram_eq (s : State) : tempHistogram s = minuteEnded (forEach (upTo 12) minuteCounted s) :=
  congrArg minuteEnded (forEach_congr (fun _ _ => rfl) (upTo 12) s)

/-! ### The commands -/

section
variable (die : Fin 4) (sensor : Fin 24) (s : State)

theorem exec_droopTrip : exec (.droopTrip die) s = .next (kept s (droopTrip die.val s)) := rfl
theorem exec_stretchEnd : exec (.stretchEnd die) s = .next (kept s (stretchEnd die.val s)) := rfl
theorem exec_energyUpdate (uj : Nat) : exec (.energyUpdate uj) s = .next (kept s (energyUpdate uj s)) := rfl
theorem exec_sensorRead (t : BitVec 16) : exec (.sensorRead sensor t) s = .next (kept s (takeReading sensor.val t s)) := rfl
theorem exec_thermtrip (t : BitVec 16) :
    exec (.thermtrip sensor t) s = .next (kept s (settle (thermtrip sensor.val t s))) := rfl
theorem exec_tempHistogram : exec .tempHistogram s = .next (kept s (tempHistogram s)) := rfl

end

/-- Settles O46: what a reading leaves in its register by the field laws above, the minute's histogram die by die, and the other commands by
their definitions. -/
theorem sensorsAndEnergy : Obligations.SensorsAndEnergy := by
  unfold Obligations.SensorsAndEnergy
  refine ⟨fun s die => ⟨?trip, ?stretched⟩, fun s uj => ?energy, fun s sensor t => ⟨?read, ?last, ?highest, ?hot⟩, fun s => ?minute⟩
  case trip => rw [exec_droopTrip]; rfl
  case stretched => rw [exec_stretchEnd]; rfl
  case energy => rw [exec_energyUpdate]; rfl
  case read => exact exec_sensorRead sensor s t
  case last => exact (fld_takeReading_own t s sensor.isLt rfl).trans (fld_temp_readingShown sensor.val t s)
  case highest => exact (fld_takeReading_own t s sensor.isLt rfl).trans (fld_max_readingShown sensor.val t s)
  case hot => rw [exec_thermtrip]; rfl
  case minute =>
    rw [exec_tempHistogram, tempHistogram_eq]
    exact congrArg (fun u => Host.Outcome.next (kept s (minuteEnded u))) (forEach_congr (fun _ _ => rfl) (upTo 12) s)

end Sys2Proof.Machine
end

section
/-! SUPPORT. What one step does: a command answers its effect, the queue drains in order, and only four effects may change a fuse, by the
life cycle of R507 and R508 alone. -/

namespace Sys2Proof.Machine

/-! ### The answer of a command -/

/-- The commands that may answer other fuses, each with its effect. -/
inductive FusedEffect : Instr → (State → State) → Prop
  | write {off : BitVec 26} {size : Nat} {w : BarWrite} (h : reachesLc off.toNat size = true) :
      FusedEffect (.registerWrite off size w) (registerWrite off.toNat size w.data w.hw)
  | request {v : Word} : FusedEffect (.lifeCycleRequest v) (lifeCycle v)
  | done : FusedEffect .lifeCycleTransitionDone lifeCycleDone
  | powerOn : FusedEffect .powerOnReset powerOnReset

/-- A command answers its effect with the queue, the time and the fuses as they were, or is one of those that may answer other fuses. -/
theorem exec_eq_effect (c : Instr) (s : State) :
    (∃ f, exec c s = effect f s) ∨ ∃ f, FusedEffect c f ∧ exec c s = effectFused f s := by
  cases c with
  | registerWrite off size w =>
    by_cases h : reachesLc off.toNat size = true
    · exact .inr ⟨_, .write h, if_pos h⟩
    · exact .inl ⟨_, if_neg h⟩
  | lifeCycleRequest v => exact .inr ⟨_, .request, rfl⟩
  | lifeCycleTransitionDone => exact .inr ⟨_, .done, rfl⟩
  | powerOnReset => exact .inr ⟨_, .powerOn, rfl⟩
  | _ => exact .inl ⟨_, rfl⟩

theorem step_of_cons {c : Instr} {rest : List Instr} {s : State} (h : s.pending = c :: rest) :
    step s = exec c { s with pending := rest } := by
  rw [step, h]

theorem step_of_nil {s : State} (h : s.pending = []) : step s = .next (idle s) := by
  rw [step, h]

/-- Settles O1: it is the second case of a step. -/
theorem stepRunsFrontCommand : Obligations.StepRunsFrontCommand := by
  unfold Obligations.StepRunsFrontCommand
  exact fun c rest s h => step_of_cons h

theorem tick_now (s : State) : (tick s).now = s.now + 2 := by
  unfold tick
  dsimp only
  split
  · rfl
  · refine forEach_keeps State.now _ _ (fun r t => ?_) _
    split <;> rfl

/-- Settles O2: whatever free values bring, an idle cycle restores the queue and the fuses and moves the time on. -/
theorem emptyQueueIdles : Obligations.EmptyQueueIdles := by
  unfold Obligations.EmptyQueueIdles
  exact fun s h => ⟨step_of_nil h, tick_now s, h, rfl⟩

/-- Settles O3: every meaning is an effect, and an effect restores the queue and the time. -/
theorem everyCommandCompletes : Obligations.EveryCommandCompletes := by
  unfold Obligations.EveryCommandCompletes
  intro c s
  obtain ⟨f, h⟩ | ⟨f, -, h⟩ := exec_eq_effect c s <;> exact ⟨_, h, rfl, rfl⟩

/-! ### The queue -/

/-- A run of one step more is a step and then the run. -/
theorem run_succ_of_step {s u : State} (h : step s = .next u) (k : Nat) : core.run (k + 1) s = core.run k u := by
  have h' : core.step s = .next u := h
  simp only [Host.Core.run, h']

/-- A step with a command in the queue takes it out and takes no time. -/
theorem step_pops {c : Instr} {rest : List Instr} {s : State} (h : s.pending = c :: rest) :
    ∃ u, step s = .next u ∧ u.pending = rest ∧ u.now = s.now := by
  obtain ⟨u, hu, hp, hn⟩ := everyCommandCompletes c { s with pending := rest }
  exact ⟨u, (step_of_cons h).trans hu, hp, hn⟩

/-- Settles O4, by induction on the queue: each step takes one command from its front. -/
theorem queueDrainsInOrder : Obligations.QueueDrainsInOrder := by
  unfold Obligations.QueueDrainsInOrder
  intro l
  induction l with
  | nil =>
    intro s hs
    refine ⟨s, rfl, hs, rfl, fun k u hk hu => ?_⟩
    obtain rfl : k = 0 := Nat.le_zero.mp hk
    cases hu
    exact hs
  | cons c rest ih =>
    intro s hs
    obtain ⟨v, hv, hvp, hvn⟩ := step_pops hs
    obtain ⟨t, ht, htp, htn, hall⟩ := ih v hvp
    refine ⟨t, (run_succ_of_step hv _).trans ht, htp, htn.trans hvn, fun k u hk hu => ?_⟩
    cases k with
    | zero =>
      cases hu
      exact hs
    | succ k => exact hall k u (Nat.le_of_succ_le_succ hk) ((run_succ_of_step hv k).symm.trans hu)

/-! ### Writes that reach the life cycle -/

@[simp] theorem noteBar_fuses (off : Nat) (v : Word) (s : State) : (noteBar off v s).fuses = s.fuses := rfl

@[simp] theorem keepSet_fuses (off : Nat) (hw : Word) (before s : State) : (keepSet off hw before s).fuses = s.fuses := by
  unfold keepSet
  dsimp only
  split <;> rfl

@[simp] theorem sendAgain_fuses (off : Nat) (v hw : Word) (before s : State) : (sendAgain off v hw before s).fuses = s.fuses := by
  unfold sendAgain
  split
  · exact forEach_keeps State.fuses _ _ sendMsix_fuses s
  · rfl

theorem writeKeeping_fuses (off : Nat) (v hw : Word) (s : State) : (writeKeeping off v hw s).fuses = (writeReg off v s).fuses := by
  simp only [writeKeeping, sendAgain_fuses, keepSet_fuses]

/-- A write of AON_LC_CTL is a life-cycle request. -/
theorem writeReg_lcCtl_fuses (v : Word) (s : State) : (writeReg R.AON_LC_CTL v s).fuses = (lifeCycle v s).fuses := rfl

/-- AON_LC, the register before AON_LC_CTL, holds no fuse. -/
theorem writeReg_lc_fuses (v : Word) (s : State) : (writeReg R.AON_LC v s).fuses = s.fuses := rfl

/-- A BAR write that reaches AON_LC_CTL is a life-cycle request, or is refused. -/
theorem registerWrite_fuses {off size : Nat} (h : reachesLc off size = true) (v hw : BitVec 64) (s : State) :
    (registerWrite off size v hw s).fuses = s.fuses
      ∨ ∃ (w : Word) (u : State), u.fuses = s.fuses ∧ (registerWrite off size v hw s).fuses = (lifeCycle w u).fuses := by
  simp only [reachesLc, Bool.or_eq_true, Bool.and_eq_true, beq_iff_eq] at h
  rw [registerWrite_cases]
  split
  · exact .inl rfl
  · obtain ⟨rfl, rfl⟩ | ⟨rfl, hoff⟩ := h
    · right
      exact ⟨lo32 v, s, rfl, by rw [if_pos rfl, writeKeeping_fuses, writeReg_lcCtl_fuses]⟩
    · right
      obtain rfl : off = R.AON_LC := Nat.add_right_cancel hoff
      refine ⟨hi32 v, writeKeeping R.AON_LC (lo32 v) (lo32 hw) s, ?_, ?_⟩
      · rw [writeKeeping_fuses, writeReg_lc_fuses]
      · rw [if_neg (by decide), if_neg (by decide), writeKeeping_fuses, ← writeReg_lcCtl_fuses]
        rfl

/-! ### What one step does to the fuses -/

/-- How one step may change the fuses: not at all; by a transition that R507 accepts and remembers; by its end, which power may cut
before the state is blown (R508). -/
inductive LcChange (f g : Fuses) : Prop
  | none (e : g = f)
  | asked (t : Nat) (h : lcStep f.lcState t = true) (e : g = { f with lcTarget := some t })
  | cut (hash : List Word) (h : f.lcState ≠ 0 → hash = f.keyHash) (e : g = { f with lcTarget := Option.none, keyHash := hash })
  | blown (t : Nat) (hash : List Word) (ht : f.lcTarget = some t) (h : f.lcState ≠ 0 → hash = f.keyHash)
      (e : g = { f with lcState := t, lcTarget := Option.none, keyHash := hash })

theorem lifeCycle_lcChange (v : Word) (s : State) : LcChange s.fuses (lifeCycle v s).fuses := by
  obtain h | ⟨hs, h⟩ := lifeCycle_fuses v s
  · exact .none h
  · exact .asked _ hs h

/-- Each of the effects that may change the fuses changes them so. -/
theorem FusedEffect.lcChange {c : Instr} {f : State → State} (h : FusedEffect c f) (s : State) : LcChange s.fuses (f s).fuses := by
  cases h with
  | @write off size w hl =>
    obtain h | ⟨v, u, hu, h⟩ := registerWrite_fuses hl w.data w.hw s
    · exact .none h
    · rw [h, ← hu]; exact lifeCycle_lcChange v u
  | @request v => exact lifeCycle_lcChange v s
  | done =>
    obtain h | ⟨t, hash, ht, hk, h⟩ := lifeCycleDone_fuses s
    · exact .none h
    · exact .blown t hash ht hk h
  | powerOn =>
    obtain ⟨hash, hk, h⟩ | ⟨t, hash, ht, hk, h⟩ := powerOnReset_fuses s
    · exact .cut hash hk h
    · exact .blown t hash ht hk h

theorem exec_lcChange {c : Instr} {s t : State} (h : exec c s = .next t) : LcChange s.fuses t.fuses := by
  obtain ⟨f, hf⟩ | ⟨f, hc, hf⟩ := exec_eq_effect c s
  · cases hf.symm.trans h
    exact .none rfl
  · cases hf.symm.trans h
    exact hc.lcChange s

theorem step_lcChange {s t : State} (h : step s = .next t) : LcChange s.fuses t.fuses := by
  cases hp : s.pending with
  | nil =>
    cases (step_of_nil hp).symm.trans h
    exact .none rfl
  | cons c rest => exact exec_lcChange (s := { s with pending := rest }) ((step_of_cons hp).symm.trans h)

theorem lcStep_bounds {a b : Nat} (h : lcStep a b = true) : a < b ∧ b ≤ 3 := by
  simp only [lcStep, Bool.or_eq_true, Bool.and_eq_true, beq_iff_eq] at h
  omega

/-! ### The statements -/

/-- Settles O7: the state changes only to the target of a transition that R507 accepts, which is higher. -/
theorem lifeCycleOnlyAdvances : Obligations.LifeCycleOnlyAdvances := by
  unfold Obligations.LifeCycleOnlyAdvances
  intro s t ⟨hle, htarget⟩ h
  cases step_lcChange h with
  | none e | asked _ _ e | cut _ _ e =>
    rw [e]
    exact ⟨Nat.le_refl _, hle⟩
  | blown v _ hv _ e =>
    rw [e]
    obtain ⟨hlt, h3⟩ := lcStep_bounds (htarget v hv)
    exact ⟨Nat.le_of_lt hlt, h3⟩

/-- Settles O5: every other command answers the fuses as they were. -/
theorem onlyLifeCycleCommandsBlowFuses : Obligations.OnlyLifeCycleCommandsBlowFuses := by
  unfold Obligations.OnlyLifeCycleCommandsBlowFuses
  intro c s t h hne
  obtain ⟨f, hf⟩ | ⟨f, hc, -⟩ := exec_eq_effect c s
  · cases hf.symm.trans h
    exact absurd rfl hne
  · cases hc with
    | write => exact .inl ⟨_, _, _, rfl⟩
    | request => exact .inr (.inl ⟨_, rfl⟩)
    | done => exact .inr (.inr (.inl rfl))
    | powerOn => exact .inr (.inr (.inr rfl))

/-- Settles O6: no change of the life cycle touches them. -/
theorem stepKeepsSilicon : Obligations.StepKeepsSilicon := by
  unfold Obligations.StepKeepsSilicon
  intro s t h
  cases step_lcChange h with
  | none e | asked _ _ e | cut _ _ e | blown _ _ _ _ e =>
    rw [e]
    exact ⟨rfl, rfl, rfl, rfl⟩

/-- Settles O8: a transition that is asked for is one of R507, and one that ends leaves none in progress. -/
theorem lifeCycleStaysLegal : Obligations.LifeCycleStaysLegal := by
  unfold Obligations.LifeCycleStaysLegal LifeCycleLegal
  intro s t ⟨hle, htarget⟩ h
  cases step_lcChange h with
  | none e => rw [e]; exact ⟨hle, htarget⟩
  | asked v hv e => rw [e]; exact ⟨hle, fun _ ht => Option.some.inj ht ▸ hv⟩
  | cut _ _ e => rw [e]; exact ⟨hle, nofun⟩
  | blown v _ hv _ e => rw [e]; exact ⟨(lcStep_bounds (htarget v hv)).2, nofun⟩

/-- Settles O9: only a transition from BLANK, or power that fails in one, blows the hash. -/
theorem keyHashKeptAfterBlank : Obligations.KeyHashKeptAfterBlank := by
  unfold Obligations.KeyHashKeptAfterBlank
  intro s t _ hblank h
  cases step_lcChange h with
  | none e | asked _ _ e => rw [e]
  | cut _ hk e | blown _ _ _ hk e => rw [e]; exact hk hblank

/-- Settles O11: nothing is listed at reset, and what is not listed reads its reset value. -/
theorem resetValues : Obligations.ResetValues := by
  unfold Obligations.ResetValues
  exact ⟨rfl, fun _ => rfl, reset_mem_wf, fun _ => rfl, fun _ => rfl, fun _ => rfl, fun _ => rfl, fun _ => rfl, fun _ => rfl, fun _ => rfl,
    fun _ => rfl⟩

/-- Settles O10: the device is BLANK, with no transition in progress. -/
theorem lifeCycleLegalAtReset : Obligations.LifeCycleLegalAtReset := by
  unfold Obligations.LifeCycleLegalAtReset
  exact ⟨Nat.zero_le 3, nofun⟩

end Sys2Proof.Machine
end

section
/-! SUPPORT. What every command does after its own effect (R118, R138, R200, R214, R233, R462): with nothing due each part is the identity. -/

namespace Sys2Proof.Machine

/-- A fold whose every step leaves a state as it is leaves it as it is. -/
theorem forEach_of_fixed {α σ : Type} {l : List α} {f : α → σ → σ} {s : σ} (h : ∀ a ∈ l, f a s = s) : forEach l f s = s := by
  unfold forEach
  induction l with
  | nil => rfl
  | cons a l ih =>
    rw [List.foldl_cons, h a (by simp)]
    exact ih fun b hb => h b (by simp [hb])

section
variable {s : State}

theorem sendNacks_of_none (h : s.core.nacks = []) : sendNacks s = s := by
  have hc : { s.core with nacks := [] } = s.core := by rw [← h]
  simp only [sendNacks, hc, h]
  rfl

theorem drainSelf_of_none (n : Nat) (h : s.fab.self = []) : drainSelf n s = s := by
  cases n with
  | zero => rfl
  | succ n => simp [drainSelf, h]

theorem passWindow_of_none (h : s.fab.shaped = []) : passWindow s = s := by
  have hc : { s.fab with shaped := [] } = s.fab := by rw [← h]
  simp only [passWindow, hc, h]
  rfl

theorem passInput_of_passed (h : ∀ x ∈ s.grp.transit, x.shaped = 0) (i : Nat) : passInput i s = s := by
  unfold passInput
  split
  · rfl
  · next x hx => simp [h x (List.mem_of_getElem? hx)]

theorem passInputs_of_passed (h : ∀ x ∈ s.grp.transit, x.shaped = 0) : passInputs s = s :=
  forEach_of_fixed fun i _ => passInput_of_passed h i

theorem drainOrdered_of_none (h : s.fab.ordWait = []) : drainOrdered s = s := by
  have hc : { s.fab with ordWait := [] } = s.fab := by rw [← h]
  simp only [drainOrdered, hc, h]
  rfl

theorem drainNocs_of_none (h : s.fab.noc = []) : drainNocs s = s := by
  simp only [drainNocs, h]
  rfl

/-- A read answers a listed value or the one of an unlisted key. -/
theorem Sparse.get_of_forall {α : Type} {P : α → Prop} {d : Nat → α} {m : List (Nat × α)} {k : Nat} (hd : P (d k))
    (h : ∀ x ∈ m, P x.2) : P (Sparse.get d m k) := by
  induction m with
  | nil => exact hd
  | cons x m ih =>
    unfold Sparse.get
    split
    · exact h x (by simp)
    · exact ih fun y hy => h y (by simp [hy])

theorem dq_of_listed (h : ∀ x ∈ s.shts.sht, x.2.dq = []) (p : Nat) : (s.sht p).dq = [] :=
  Sparse.get_of_forall (P := fun r : ShtSt => r.dq = []) rfl h

theorem badDops_of_empty {p : Nat} (h : (s.sht p).dq = []) : badDops p s = s := by
  simp [badDops, inProgress, h]

theorem commits_of_none (h : s.grp.trk = []) : commits s = s := by
  simp only [commits, h]
  rfl

theorem followLags_of_none (ht : s.grp.trk = []) (hl : s.grp.lag = []) : followLags s = s := by
  simp only [followLags, ht, hl]
  rfl

theorem freeRun_of_locked (h : (timeLocked s && !s.flag F.SCH_TIME_STATUS_master && (timeParent s).isNone) = false) : freeRun s = s := by
  rw [freeRun, h]
  rfl

theorem purgeDue_of_not_purging (h : ∀ r, s.ctxRst = some r → r.purging = false) : purgeDue s = s := by
  unfold purgeDue
  split
  · next r hr => simp [h r hr]
  · rfl

theorem sendDue_of_not_due {p : Nat} (h : lcuDue s p = false) : sendDue p s = s := by
  simp [sendDue, h]

end

/-- Settles O12, part by part in the order of `settle`. -/
theorem settleChangesNothingWhenSettled : Obligations.SettleChangesNothingWhenSettled := by
  unfold Obligations.SettleChangesNothingWhenSettled Settled
  intro s ⟨hnacks, hself, hshaped, hord, hnoc, htransit, hdq, htrk, hlag, hnbr, htime, hpurge, hlcu⟩
  have hdops : forEach (s.shts.sht.map (·.1)) badDops s = s := forEach_of_fixed fun p _ => badDops_of_empty (dq_of_listed hdq p)
  have hlinks : forEach (s.link.map (·.1)) sendDue s = s := forEach_of_fixed fun p hp => by
    obtain ⟨x, hx, rfl⟩ := List.mem_map.mp hp
    exact sendDue_of_not_due (hlcu x hx)
  simp only [settle, sendNacks_of_none hnacks, drainSelf_of_none 3 hself, passWindow_of_none hshaped, passInputs_of_passed htransit,
    drainOrdered_of_none hord, drainNocs_of_none hnoc, hdops, commits_of_none htrk, followLags_of_none htrk hlag, nbrCheck, if_neg hnbr,
    freeRun_of_locked htime, purgeDue_of_not_purging hpurge, hlinks]

end Sys2Proof.Machine
end

section
/-! SUPPORT. Faults (file 13): FAULT_N, die-to-die channels, register timeouts, the watchdog (R445, R448, R449, R457). -/

namespace Sys2Proof.Machine

section
variable {s : State}

/-! ### FAULT_N -/

theorem faultMinEnd_of_none (h : s.flt.minUntil = none) : faultMinEnd s = s := by
  rw [faultMinEnd, h]

/-- FAULT_N with its minimum over. -/
def minimumOver (s : State) : State := { s with flt := { s.flt with minUntil := none } }

theorem faultMinEnd_of_some {t : Nat} (h : s.flt.minUntil = some t) :
    faultMinEnd s
      = if s.now < t then s
        else if s.flag F.FLT_PIN_CTL_auto_rel = true ∨ s.flt.released = true then releaseFaultN (minimumOver s)
        else minimumOver s := by
  rw [faultMinEnd, h]
  simp only [Bool.or_eq_true, minimumOver]

theorem faultRelease_eq (val : Word) (s : State) :
    faultRelease val s
      = if bitOf val.toNat 31 = false ∨ isFatal (s.storeReg R.FLT_PIN_CTL val) = true
            ∨ (s.storeReg R.FLT_PIN_CTL val).flt.minUntil = some ((s.storeReg R.FLT_PIN_CTL val).now + 10000) then
          s.storeReg R.FLT_PIN_CTL val
        else if (s.storeReg R.FLT_PIN_CTL val).flt.minUntil.isSome = true then
          { s.storeReg R.FLT_PIN_CTL val with flt := { (s.storeReg R.FLT_PIN_CTL val).flt with released := true } }
        else releaseFaultN (s.storeReg R.FLT_PIN_CTL val) := by
  simp only [faultRelease, Bool.or_eq_true, Bool.not_eq_true', beq_iff_eq, or_assoc]

theorem releaseFaultN_of_fatal (h : isFatal s = true) : releaseFaultN s = s := if_pos h

theorem releaseFaultN_of_not_fatal (h : isFatal s = false) :
    releaseFaultN s = { s.setFlag F.FLT_STATUS_pin false with flt := { s.flt with minUntil := none, released := false } } := by
  rw [releaseFaultN, h]
  rfl

/-! ### Die-to-die channels -/

/-- A channel of link `k` is recorded as failed, and the link shows its failed channels and its spares in use. -/
def channelRecorded (k ch : Nat) (s : State) : State :=
  let u := { s with flt := { s.flt with badCh := s.flt.badCh ++ [(k, ch)] } }
  (u.setFld (F.FLT_D2D_STAT_failed k) ((failedOf s k).length + 1)).setFld (F.FLT_D2D_STAT_spares k)
    (sparesUsed (ch :: failedOf s k)).length

theorem channelFail_eq (d e ch : Nat) (s : State) :
    channelFail d e ch s
      = if d = e ∨ (failedOf s (d * 4 + e)).contains ch = true then s
        else if (failedOf s (d * 4 + e)).length + 1 = 34 then
          settle (raiseFatal Cause.d2dLost (locLink d e 0x3F) 0 (channelRecorded (d * 4 + e) ch s))
        else if 2 < (failedOf s (d * 4 + e)).length + 1 then
          raise Cause.d2dDegraded (locLink d e 0x3F) (channelRecorded (d * 4 + e) ch s)
        else if ch < 32 ∨ (sparesUsed (failedOf s (d * 4 + e))).contains ch = true then
          raise Cause.d2dSpared (locLink d e ch) (channelRecorded (d * 4 + e) ch s)
        else channelRecorded (d * 4 + e) ch s := by
  simp only [channelFail, List.length_cons, Bool.or_eq_true, decide_eq_true_eq, channelRecorded]

/-! ### The watchdog -/

/-- A watchdog expiry comes within 10 s of the last one (R449). -/
def restartedLately (s : State) : Prop := match s.flt.wdogAt with | some t => s.now < t + 10000000000 | none => False

theorem watchdog_of_lately (h : restartedLately s) : watchdog s = settle (raiseFatal Cause.deckleWdog locNone 0 s) := by
  unfold restartedLately at h
  unfold watchdog
  split at h
  · next t ht => simp only [ht, decide_eq_true h, if_true]
  · exact h.elim

theorem watchdog_of_not_lately (h : ¬ restartedLately s) : watchdog s = deckleRestart (raise Cause.deckleRst locNone s) := by
  unfold restartedLately at h
  unfold watchdog
  split at h
  · next t ht => simp [ht, h]
  · next ht => simp [ht]

/-! ### The commands -/

theorem exec_faultNMinimumEnd : exec .faultNMinimumEnd s = .next (kept s (faultMinEnd s)) := rfl
theorem exec_faultNRelease (val : Word) : exec (.faultNRelease val) s = .next (kept s (faultRelease val s)) := rfl
theorem exec_captureRelease (val : Word) : exec (.captureRelease val) s = .next (kept s (captureRelease val s)) := rfl
theorem exec_d2dChannelFail (src dst : Fin 4) (ch : Fin 34) :
    exec (.d2dChannelFail src dst ch) s = .next (kept s (settle (channelFail src.val dst.val ch.val s))) := rfl
theorem exec_regTmo (off : BitVec 26) (write : Bool) : exec (.regTmo off write) s = .next (kept s (regTimeout off.toNat write s)) := rfl
theorem exec_watchdogExpiry : exec .watchdogExpiry s = .next (kept s (watchdog s)) := rfl

end

/-- Settles O47: each command is its meaning, and each way of it has its equation above. -/
theorem faultsAndTheirPin : Obligations.FaultsAndTheirPin := by
  unfold Obligations.FaultsAndTheirPin
  refine ⟨fun s val => ⟨fun h => ?noMinimum, fun t h => ?minimum, ?release, releaseFaultN_of_fatal, releaseFaultN_of_not_fatal, ?capture⟩,
    fun s src dst ch => ?channel, fun s off write => ?timeout, fun s => ⟨fun h => ?second, fun h => ?first⟩⟩
  case noMinimum => rw [exec_faultNMinimumEnd, faultMinEnd_of_none h]
  case minimum =>
    rw [exec_faultNMinimumEnd, faultMinEnd_of_some h]
    rfl
  case release => rw [exec_faultNRelease, faultRelease_eq]
  case capture => rw [exec_captureRelease]; rfl
  case channel =>
    rw [exec_d2dChannelFail, channelFail_eq]
    rfl
  case timeout => exact exec_regTmo off write
  case second => rw [exec_watchdogExpiry, watchdog_of_lately h]
  case first =>
    rw [exec_watchdogExpiry, watchdog_of_not_lately h]
    rfl

end Sys2Proof.Machine
end

section
/-! SUPPORT. The Selvedge record in flash (R472): when a write of it begins and ends, and which bytes of the flash it takes. -/

namespace Sys2Proof.Machine

/-! ### Bytes of the flash -/

theorem flashByte_flashErase (a n x : Nat) (s : State) :
    (flashErase a n s).flashByte x = if a ≤ x ∧ x < a + n then 0xFF else s.flashByte x := by
  refine (Sparse.get_filter_key (fun _ => (0xFF : Byte)) (fun k => !(decide (a ≤ k) && decide (k < a + n))) s.mem.flash x).trans ?_
  by_cases h : a ≤ x ∧ x < a + n
  · simp only [h, decide_true, Bool.and_self, Bool.not_true, Bool.false_eq_true, and_self, if_true, if_false]
  · rw [if_neg h, if_pos (by simpa [imp_iff_not_or] using h)]
    rfl

theorem flashByte_flashWrite_of_outside {a x : Nat} {l : List Byte} (h : x < a ∨ a + l.length ≤ x) (s : State) :
    (flashWrite a l s).flashByte x = s.flashByte x := by
  induction l generalizing a s with
  | nil => rfl
  | cons b l ih =>
    rw [List.length_cons] at h
    refine (ih (a := a + 1) (by omega) (s.setFlashByte a b)).trans ?_
    rw [flashByte_setFlashByte, if_neg (by omega)]

/-- Writing the record's words leaves what lies outside the staging record. -/
theorem setSelWord_keeps {β : Type} (g : State → β) (h : ∀ a b s, g (s.setSelByte a b) = g s) (a n : Nat) (s : State) :
    g (s.setSelWord a n) = g s := writeBytes_keeps g _ h _ _ _

theorem selHeader_flashByte (x : Nat) (s : State) : (selHeader s).flashByte x = s.flashByte x := by
  have hbyte : ∀ a b (u : State), (u.setSelByte a b).flashByte x = u.flashByte x := fun _ _ _ => rfl
  simp only [selHeader, selConst, setSelWord_keeps (State.flashByte · x) hbyte, writeBytes_keeps (State.flashByte · x) _ hbyte]

/-- A write of `n` bytes or fewer to a half takes the `n` bytes that it erases. -/
theorem storeHalf_flashByte_of_outside {h n x : Nat} {l : List Byte} (hl : l.length ≤ n) (hx : x < halfAddr h ∨ halfAddr h + n ≤ x)
    (s : State) : (storeHalf h n l s).flashByte x = s.flashByte x := by
  change (flashWrite (halfAddr h) l (flashErase (halfAddr h) n s)).flashByte x = _
  rw [flashByte_flashWrite_of_outside (by omega), flashByte_flashErase, if_neg (by omega)]

/-- The record fits in its half. -/
theorem length_record_le (s : State) : (readBytes s.selByte 0 selLen).length ≤ 0x20000 := by
  rw [readBytes, List.length_map, upTo, List.length_range, selLen]
  decide

/-! ### The commands -/

theorem selWriteDone_of_idle {s : State} (h : s.flag F.SEL_STATUS_busy = false) (ok : Bool) : selWriteDone ok s = s := by
  rw [selWriteDone, h]
  rfl

/-- The record written, or its half spoilt; busy clears and vector 12 is raised. -/
def recordEnded (ok : Bool) (s : State) : State :=
  raiseInt 12 ((if ok = true then storeSelvedge s else spoilSelvedge s).setFlag F.SEL_STATUS_busy false)

/-- A dump that waits follows, if the capture is still held. -/
def dumpFollows (s : State) : State :=
  let v := { s with flt := { s.flt with dumpDue := false } }
  if s.flt.dumpDue = true then (if v.flag F.FLT_CAP_CTL_held = true then dumpCapture v else v) else s

theorem selWriteDone_of_busy {s : State} (h : ¬ s.flag F.SEL_STATUS_busy = false) (ok : Bool) :
    selWriteDone ok s
      = if (dumpFollows (recordEnded ok s)).mgt.selAgain = true then
          startSelWrite { dumpFollows (recordEnded ok s) with mgt := { (dumpFollows (recordEnded ok s)).mgt with selAgain := false } }
        else dumpFollows (recordEnded ok s) := by
  rw [Bool.not_eq_false] at h
  rw [selWriteDone, h]
  rfl

section
variable (s : State)
theorem exec_selvedgeFlush (val : Word) : exec (.selvedgeFlush val) s = .next (kept s (selFlush val s)) := rfl
theorem exec_selvedgeHourly : exec .selvedgeHourly s = .next (kept s (startSelWrite s)) := rfl
theorem exec_selvedgeWriteDone (ok : Bool) : exec (.selvedgeWriteDone ok) s = .next (kept s (selWriteDone ok s)) := rfl
end

/-- Settles O48: the commands are their definitions, and a write takes the half that is its turn. -/
theorem selvedgeIsWritten : Obligations.SelvedgeIsWritten := by
  unfold Obligations.SelvedgeIsWritten
  refine ⟨fun s val ok => ⟨?flush, ?hourly, ?done⟩, fun s a _ => ⟨?next, fun ha => ?outside⟩⟩
  case flush => rw [exec_selvedgeFlush]; rfl
  case hourly => rw [exec_selvedgeHourly]; rfl
  case done =>
    rw [exec_selvedgeWriteDone]
    split
    · next h => rw [selWriteDone_of_idle h]
    · next h => rw [selWriteDone_of_busy h]; rfl
  case next => rfl
  case outside => rw [storeSelvedge, storeHalf_flashByte_of_outside (length_record_le _) ha, selHeader_flashByte]

end Sys2Proof.Machine
end

section
/-! SUPPORT. Context resets and die resets (R460 to R468): a write of their registers, the 2 ms limit, and the end of a reset. -/

namespace Sys2Proof.Machine

/-! ### Context resets -/

theorem contextReset_eq (val : Word) (s : State) :
    contextReset val s
      = if bitOf val.toNat 31 = true ∧ (s.storeReg R.FLT_CTX_RST val).flag F.FLT_CTX_RST_STATUS_busy = false then
          startCtxReset [bits val.toNat 0 12] (bitOf val.toNat 30) false (s.storeReg R.FLT_CTX_RST val)
        else s.storeReg R.FLT_CTX_RST val := by
  simp only [contextReset, Bool.and_eq_true, Bool.not_eq_true']

theorem ctxResetTmo_of_none {s : State} (h : s.ctxRst = none) : ctxResetTmo s = s := by
  rw [ctxResetTmo, h]

theorem ctxResetTmo_of_some {s : State} {r : CtxReset} (h : s.ctxRst = some r) :
    ctxResetTmo s
      = if r.late = false ∧ r.start + 2000000 ≤ s.now then
          raiseCause Cause.ctxResetTmo locNone r.ctxs.head? 0 { s with ctxRst := some { r with late := true } }
        else s := by
  rw [ctxResetTmo, h]
  simp only [Bool.and_eq_true, Bool.not_eq_true', decide_eq_true_eq]

/-- What an interrupt source leaves alone: all but its registers and the outputs. -/
theorem raiseInt_keeps {β : Type} (g : State → β) (hf : ∀ (f : FieldRef) (b : Bool) (s : State), g (s.setFlag f b) = g s)
    (he : ∀ (o : Output) (s : State), g (s.emit o) = g s) (v : Nat) (s : State) : g (raiseInt v s) = g s := by
  have hsend : ∀ u : State, g (sendMsix v u) = g u := fun u => by
    unfold sendMsix
    split
    · exact he _ u
    · exact hf _ _ u
  unfold raiseInt
  dsimp only
  split
  · rfl
  · split
    · rw [hsend, hf]
    · exact hf _ _ s

/-- A fold keeps a property that each of its steps keeps. -/
theorem forEach_preserves {α σ : Type} {P : σ → Prop} {l : List α} {f : α → σ → σ} (h : ∀ a s, P s → P (f a s)) {s : σ} (hs : P s) :
    P (forEach l f s) := by
  unfold forEach
  induction l generalizing s with
  | nil => exact hs
  | cons a l ih => exact ih (h a s hs)

/-- A scrub zeroes sheets, returns the shares, empties lines of the directory and unloads shuttles; what these four keep it keeps. -/
theorem scrub_preserves {P : State → Prop} (hzero : ∀ a b u, P u → P (zeroRange a b u))
    (hshare : ∀ l (u : State), P u → P { u with grp := { u.grp with share := l } }) (hline : ∀ n v (u : State), P u → P (u.setDir n v))
    (hunload : ∀ p u, P u → P (unloadSht p u)) (c : Nat) {s : State} (hs : P s) : P (scrub c s) := by
  unfold scrub
  extract_lets base size zeroed grp shared lo hi windowed mine lined
  have hzeroed : P zeroed := forEach_preserves (fun L u hu => by
    split
    · split
      · exact hu
      · exact hzero _ _ u hu
    · exact hu) hs
  clear_value zeroed
  have hwindowed : P windowed := forEach_preserves (fun k u hu => by
    split
    · exact hzero _ _ u hu
    · exact hu) (hshare _ zeroed hzeroed)
  clear_value windowed
  have hlined : P lined := forEach_preserves (fun x u hu => hline x.1 {} u hu) hwindowed
  refine forEach_preserves (fun x u hu => ?_) hlined
  split
  · exact hunload x.1 u hu
  · exact hu

theorem scrub_now (c : Nat) (s : State) : (scrub c s).now = s.now :=
  scrub_preserves (P := fun u => u.now = s.now) (fun _ _ _ h => h) (fun _ _ h => h) (fun _ _ _ h => h) (fun _ _ h => h) c rfl

/-- The contexts of a reset scrubbed and their registers reset (steps 6 and 7 of Table 13-4). -/
def scrubbed (r : CtxReset) (s : State) : State := forEach r.ctxs ctxDomain (forEach r.ctxs scrub s)

theorem scrubbed_now (r : CtxReset) (s : State) : (scrubbed r s).now = s.now :=
  (forEach_keeps State.now r.ctxs ctxDomain (fun _ _ => rfl) _).trans (forEach_keeps State.now r.ctxs scrub scrub_now s)

/-- FLT_CTX_RST_STATUS at the end of a context reset (step 8). -/
def resetShown (r : CtxReset) (s : State) : State :=
  let u := { s with ctxRst := none }.setFlag F.FLT_CTX_RST_STATUS_busy false
  (u.setFld F.FLT_CTX_RST_STATUS_result (if r.late || decide (2000000 < s.now - r.start) then 2 else 1)).setFld
    F.FLT_CTX_RST_STATUS_elapsed (saturate 16 ((s.now - r.start) / 1000))

theorem finishCtxReset_eq (r : CtxReset) (s : State) :
    finishCtxReset r s = raiseInt 2 (endLive Cause.ctxResetTmo locNone (resetShown r (scrubbed r s))) := rfl

theorem finishCtxReset_ctxRst (r : CtxReset) (s : State) : (finishCtxReset r s).ctxRst = none := by
  rw [finishCtxReset_eq, raiseInt_keeps State.ctxRst (fun _ _ _ => rfl) (fun _ _ => rfl)]
  rfl

/-- The interrupt and the live bit are in other registers. -/
theorem finishCtxReset_status (r : CtxReset) (s : State) :
    (finishCtxReset r s).rd R.FLT_CTX_RST_STATUS = (resetShown r (scrubbed r s)).rd R.FLT_CTX_RST_STATUS := by
  rw [finishCtxReset_eq, rd_raiseInt_ne (by decide) (by decide), rd_endLive_ne (by decide) (by decide)]

theorem finishCtxReset_busy (r : CtxReset) (s : State) : (finishCtxReset r s).flag F.FLT_CTX_RST_STATUS_busy = false := by
  have h : (finishCtxReset r s).flag F.FLT_CTX_RST_STATUS_busy = (resetShown r (scrubbed r s)).flag F.FLT_CTX_RST_STATUS_busy :=
    congrArg (fun w : Word => bits w.toNat 31 1 != 0) (finishCtxReset_status r s)
  rw [h, resetShown, State.flag_setFld_ne _ _ _ _ (by decide), State.flag_setFld_ne _ _ _ _ (by decide),
    State.flag_setFlag_same _ _ _ (by decide) (by decide)]

theorem finishCtxReset_result (r : CtxReset) (s : State) :
    (finishCtxReset r s).fld F.FLT_CTX_RST_STATUS_result = if r.late = true ∨ 2000000 < s.now - r.start then 2 else 1 := by
  have h : (finishCtxReset r s).fld F.FLT_CTX_RST_STATUS_result = (resetShown r (scrubbed r s)).fld F.FLT_CTX_RST_STATUS_result :=
    congrArg (fun w : Word => bits w.toNat 28 3) (finishCtxReset_status r s)
  rw [h, resetShown, State.fld_setFld_ne _ _ _ _ (by decide), State.fld_setFld_same _ _ _ (by decide), scrubbed_now]
  simp only [Bool.or_eq_true, decide_eq_true_eq]
  split <;> rfl

/-! ### The end of a context reset -/

theorem contextResetDone_of_none {s : State} (h : (ctxResetSteps s).ctxRst = none) : contextResetDone s = ctxResetSteps s := by
  simp only [contextResetDone, h]

/-- The panel of contexts that a load drains, with its slot. -/
def contextPanel (s : State) : Option (Nat × Nat × Nat) :=
  s.drf.load.bind fun ld => match ld.draining with
    | some (3, k) => some (k, ld.slot, 0)
    | _ => none

section
variable {s : State} {r : CtxReset} (h : (ctxResetSteps s).ctxRst = some r)
include h

theorem contextResetDone_of_held (hr : r.ran = false ∨ holdsCopies r.ctxs (ctxResetSteps s) = true) :
    contextResetDone s = ctxResetSteps s := by
  have hc : (!r.ran || holdsCopies r.ctxs (ctxResetSteps s)) = true := by simpa using hr
  simp only [contextResetDone, h, hc, if_true]

variable (hran : r.ran = true) (hheld : holdsCopies r.ctxs (ctxResetSteps s) = false)
include hran hheld

/-- With its copies gone the reset ends, and what follows is the load's business. -/
theorem contextResetDone_of_noPanel (hp : contextPanel (finishCtxReset r (ctxResetSteps s)) = none) :
    contextResetDone s = finishCtxReset r (ctxResetSteps s) := by
  simp only [contextResetDone, h, hran, hheld, Bool.not_true, Bool.or_self, Bool.false_eq_true, if_false]
  split
  · rfl
  · next ld hl =>
    split
    · next k hd => simp [contextPanel, hl, hd] at hp
    · rfl

theorem contextResetDone_of_panel {k slot x : Nat} (hp : contextPanel (finishCtxReset r (ctxResetSteps s)) = some (k, slot, x)) :
    contextResetDone s
      = if r.panel = true then loadOn (notePanel (applyContexts k slot (finishCtxReset r (ctxResetSteps s))))
        else beginDrain (finishCtxReset r (ctxResetSteps s)) := by
  simp only [contextResetDone, h, hran, hheld, Bool.not_true, Bool.or_self, Bool.false_eq_true, if_false]
  obtain ⟨ld, hl, hd⟩ := Option.bind_eq_some_iff.mp hp
  split at hd
  · next k' hd' =>
    obtain ⟨rfl, rfl, -⟩ : k' = k ∧ ld.slot = slot ∧ 0 = x := by simpa using hd
    simp only [hl, hd']
  · exact absurd hd (by simp)

end

/-! ### Die resets -/

theorem dieReset_eq (val : Word) (s : State) :
    dieReset val s
      = if bitOf val.toNat 31 = true ∧ inReset (s.storeReg R.FLT_DIE_RST val) (bits val.toNat 0 2) = false
            ∧ isFatal (s.storeReg R.FLT_DIE_RST val) = false then
          beginDieReset (bits val.toNat 0 2) (s.storeReg R.FLT_DIE_RST val)
        else s.storeReg R.FLT_DIE_RST val := by
  simp only [dieReset, Bool.and_eq_true, Bool.not_eq_true', and_assoc]

theorem dieResetDone_eq (d : Nat) (s : State) :
    dieResetDone d s
      = if bitOf (s.fld F.FLT_STATUS_die_rst) d = true ∧ s.pwr.por = false ∧ s.pwr.testMode = false ∧ s.pwr.warming = false
            ∧ isFatal s = false then
          settle (raiseInt 3 (homeRebuild (poisonDie d (bootDie d (testChannels d (s.setFlag ⟨R.FLT_STATUS, 26 + d, 1⟩ false))))))
        else s := by
  simp only [dieResetDone, Bool.and_eq_true, Bool.not_eq_true', and_assoc]

/-! ### The commands -/

section
variable (s : State)
theorem exec_contextReset (val : Word) : exec (.contextReset val) s = .next (kept s (settle (contextReset val s))) := rfl
theorem exec_ctxResetTmo : exec .ctxResetTmo s = .next (kept s (settle (ctxResetTmo s))) := rfl
theorem exec_contextResetDone : exec .contextResetDone s = .next (kept s (settle (contextResetDone s))) := rfl
theorem exec_dieReset (val : Word) : exec (.dieReset val) s = .next (kept s (settle (dieReset val s))) := rfl
theorem exec_dieResetDone (die : Fin 4) : exec (.dieResetDone die) s = .next (kept s (dieResetDone die.val s)) := rfl
end

/-- Settles O49: each command is its meaning, each way of it has its equation above, and what the end of a context reset shows is read off
its register. -/
theorem contextAndDieResets : Obligations.ContextAndDieResets := by
  unfold Obligations.ContextAndDieResets
  refine ⟨fun s val => ⟨?context, ?die⟩,
    fun s => ⟨fun h => ?idle, fun r h => ?late, fun h => ?none, fun r h => ⟨fun hr => ?held, fun hr hc => ⟨fun hl => ?noPanel,
      fun k slot x hl => ?panel⟩⟩, fun r => ⟨finishCtxReset_ctxRst r s, finishCtxReset_busy r s, finishCtxReset_result r s⟩⟩,
    fun s die => ?dieDone⟩
  case context => rw [exec_contextReset, contextReset_eq]
  case die => rw [exec_dieReset, dieReset_eq]
  case idle => rw [exec_ctxResetTmo, ctxResetTmo_of_none h]
  case late => rw [exec_ctxResetTmo, ctxResetTmo_of_some h]
  case none => rw [exec_contextResetDone, contextResetDone_of_none h]
  case held => rw [exec_contextResetDone, contextResetDone_of_held h hr]
  case noPanel => rw [exec_contextResetDone, contextResetDone_of_noPanel h hr hc hl]
  case panel => rw [exec_contextResetDone, contextResetDone_of_panel h hr hc hl]
  case dieDone => rw [exec_dieResetDone, dieResetDone_eq]

end Sys2Proof.Machine
end

section
/-! SUPPORT. Warm reset and power-on reset (R470, R528). -/

namespace Sys2Proof.Machine

/-! ### Warm reset -/

/-- What asks for a warm reset: the rise of RST_N, or the key. -/
abbrev AsksWarm (key : Option Byte) : Prop := key = none ∨ key = some 0xA5#8

/-- A warm reset is admitted: no fatal stop, and the power sequence is ON. -/
abbrev AdmitsWarm (s : State) : Prop := isFatal s = false ∧ s.pwr.por = false ∧ s.pwr.testMode = false ∧ seqOf s = 2

theorem warmReset_eq (key : Option Byte) (s : State) :
    warmReset key s
      = if ¬ AsksWarm key ∨ ¬ AdmitsWarm s then s
        else if s.pwr.rstLow = true then (if key = none then tileUp { s with pwr := { s.pwr with rstLow := false } } else s)
        else beginWarm s := by
  have hrefused {b : Bool} (hb : b = true ↔ AsksWarm key) :
      (!b || isFatal s || s.pwr.por || s.pwr.testMode || seqOf s != 2) = true ↔ ¬ AsksWarm key ∨ ¬ AdmitsWarm s := by
    simp only [← hb, AdmitsWarm, Bool.or_eq_true, Bool.not_eq_true', Bool.not_eq_true, bne_iff_ne, ne_eq, not_and_or, Bool.not_eq_false,
      or_assoc]
  cases key with
  | none => exact if_congr (hrefused (by simp [AsksWarm])) rfl rfl
  | some k => exact if_congr (hrefused (by simp [AsksWarm])) rfl rfl

theorem warmDone_eq (s : State) :
    warmDone s
      = if s.pwr.warming = true ∧ s.pwr.testMode = false ∧ s.pwr.rstLow = false then
          warmLevels ((takeBootDraft (forEach (upTo 4) (fun d v => setShared d (takeSpareMap d [] (fillCells d v)))
            { s with pwr := { s.pwr with warming := false } })).setFlag F.FLT_STATUS_ready true)
        else s := by
  simp only [warmDone, Bool.and_eq_true, Bool.not_eq_true', and_assoc]

/-! ### Power-on reset -/

theorem cutTransition_of_none {s : State} (h : s.fuses.lcTarget = none) : cutTransition s = s := by
  rw [cutTransition, h]

theorem cutFlash_of_idle {s : State} (hb : s.flag F.SEL_STATUS_busy = false) (hs : s.mgt.spi = none) : cutFlash s = s := by
  simp [cutFlash, hb, hs]

theorem powerOnReset_of_quiet {s : State} (hb : s.flag F.SEL_STATUS_busy = false) (hs : s.mgt.spi = none) (ht : s.fuses.lcTarget = none) :
    (powerOnReset s).mem.flash = s.mem.flash ∧ (powerOnReset s).fuses = s.fuses := by
  have hf : { s.fuses with lcTarget := none } = s.fuses := by rw [← ht]
  simp only [powerOnReset, cutTransition_of_none ht, cutFlash_of_idle hb hs, hf, and_self]

/-! ### The commands -/

section
variable (s : State)
theorem exec_warmReset (key : Option Byte) : exec (.warmReset key) s = .next (kept s (warmReset key s)) := rfl
theorem exec_warmResetDone : exec .warmResetDone s = .next (kept s (warmDone s)) := rfl
theorem exec_powerOnReset : exec .powerOnReset s = .next { powerOnReset s with pending := s.pending, now := s.now } := rfl
end

/-- Settles O50: each command is its meaning, and a power-on reset is the reset state but for what it names. -/
theorem warmAndPowerOnReset : Obligations.WarmAndPowerOnReset := by
  unfold Obligations.WarmAndPowerOnReset
  refine ⟨fun s key => ?warm, fun s => ?done, fun s => ⟨_, exec_powerOnReset s, fun _ => rfl, rfl, rfl, rfl, rfl, rfl, rfl, rfl, rfl, rfl,
    rfl, rfl, rfl, rfl, rfl, fun hb hs ht => powerOnReset_of_quiet hb hs ht⟩⟩
  case warm => rw [exec_warmReset, warmReset_eq]
  case done => rw [exec_warmResetDone, warmDone_eq]

end Sys2Proof.Machine
end

section
/-! SUPPORT. Broadcast windows (R503 to R505): which way an access through one goes, and what a read leaves. -/

namespace Sys2Proof.Machine

section
variable {off : Nat} {s : State}

/-- What a read through a window leaves beside its data: the window's status alone. -/
theorem rd_showSelected_ne {w : Bcw} {o : Nat} (h : o ≠ w.status) (l : List Nat) (s : State) : (showSelected w l s).rd o = s.rd o := by
  rw [showSelected, State.rd_setFld_ne _ _ _ h, State.rd_setFlag_ne _ _ _ h]

theorem broadcastWrite_unsupported (h : s.mgt.cfg.d3hot = true ∨ off % 4 ≠ 0) (v : Word) :
    broadcastWrite off v s = s.emit (.unsupported off) := by
  refine if_neg fun ⟨ha, hd⟩ => h.elim (fun hd' => ?_) fun ha' => ha' ha
  rw [hd] at hd'
  cases hd'

theorem broadcastRead_unsupported (h : s.mgt.cfg.d3hot = true ∨ off % 4 ≠ 0) : broadcastRead off s = s.emit (.unsupported off) := by
  refine if_neg fun ⟨ha, hd⟩ => h.elim (fun hd' => ?_) fun ha' => ha' ha
  rw [hd] at hd'
  cases hd'

variable {w : Bcw} {x : Nat} (hw : windowOf off = some (w, x))
include hw

theorem windowWrite_eq (v : Word) :
    windowWrite off v s
      = forEach (selected w s) (fun i u => writeOne (w.base + i * w.stride + x) v u) (showSelected w (selected w s) s) := by
  rw [windowWrite, hw]

theorem windowWrite_of_none (h : selected w s = []) (v : Word) :
    windowWrite off v s = (s.setFld ⟨w.status, 30, 1⟩ 1).setFld ⟨w.status, 0, 10⟩ 0 := by
  rw [windowWrite_eq hw, h]
  rfl

/-- The value of an instance, as a read through the window sees it. -/
def instanceValue (w : Bcw) (x : Nat) (s : State) (i : Nat) : Word := regValue s (w.base + i * w.stride + x)

theorem windowRead_of_none (h : selected w s = []) : windowRead off s = (0, showSelected w [] s) := by
  simp only [windowRead, hw, h]

theorem windowRead_of_some {i : Nat} {rest : List Nat} (h : selected w s = i :: rest) :
    windowRead off s
      = (instanceValue w x s i,
          match rest.find? fun j => instanceValue w x s j != instanceValue w x s i with
          | some j => ((showSelected w (i :: rest) s).setFlag ⟨w.status, 31, 1⟩ true).setFld ⟨w.status, 16, 10⟩ j
          | none => showSelected w (i :: rest) s) := by
  simp only [windowRead, hw, h]
  rfl

theorem windowRead_latch (s : State) : (windowRead off s).2.latch = s.latch := by
  cases h : selected w s with
  | nil => rw [windowRead_of_none hw h]; rfl
  | cons i rest =>
    rw [windowRead_of_some hw h]
    dsimp only
    split <;> rfl

theorem windowRead_out (s : State) : (windowRead off s).2.out = s.out := by
  cases h : selected w s with
  | nil => rw [windowRead_of_none hw h]; rfl
  | cons i rest =>
    rw [windowRead_of_some hw h]
    dsimp only
    split <;> rfl

theorem rd_windowRead_ne {o : Nat} (ho : o ≠ w.status) (s : State) : (windowRead off s).2.rd o = s.rd o := by
  cases h : selected w s with
  | nil => rw [windowRead_of_none hw h, rd_showSelected_ne ho]
  | cons i rest =>
    rw [windowRead_of_some hw h]
    dsimp only
    split
    · rw [State.rd_setFld_ne _ _ _ ho, State.rd_setFlag_ne _ _ _ ho, rd_showSelected_ne ho]
    · exact rd_showSelected_ne ho _ _

/-- The first instance with another value is shown. -/
theorem windowRead_of_differing {i j : Nat} {rest : List Nat} (h : selected w s = i :: rest)
    (hj : (rest.find? fun j => instanceValue w x s j != instanceValue w x s i) = some j) :
    (windowRead off s).2.flag ⟨w.status, 31, 1⟩ = true ∧ (windowRead off s).2.fld ⟨w.status, 16, 10⟩ = j % 1024 := by
  rw [windowRead_of_some hw h, hj]
  exact ⟨by rw [State.flag_setFld_ne _ _ _ _ (by simp), State.flag_setFlag_same _ _ _ (by simp) (by simp)],
    State.fld_setFld_same _ _ _ (by simp)⟩

end

/-! ### The commands -/

section
variable (off : BitVec 26) (s : State)
theorem exec_broadcastWrite (v : Word) : exec (.broadcastWrite off v) s = .next (kept s (settle (broadcastWrite off.toNat v s))) := rfl
theorem exec_broadcastRead : exec (.broadcastRead off) s = .next (kept s (broadcastRead off.toNat s)) := rfl

/-- A read that is taken answers the window's value, and leaves what the window leaves. -/
theorem exec_broadcastRead_of_taken {off : BitVec 26} {s : State} (hd : s.mgt.cfg.d3hot = false) (ha : off.toNat % 4 = 0) :
    exec (.broadcastRead off) s
      = .next (kept s ((windowRead off.toNat s).2.emit (.readData off.toNat 4 ((windowRead off.toNat s).1.setWidth 64)))) := by
  rw [exec_broadcastRead, broadcastRead, if_pos ⟨ha, hd⟩]

theorem broadcastWrite_of_taken {off : Nat} {s : State} (hd : s.mgt.cfg.d3hot = false) (ha : off % 4 = 0) (v : Word) :
    broadcastWrite off v s = windowWrite off v s := if_pos ⟨ha, hd⟩

end

/-- Settles O15: an access that is taken is the window's, and the window's have their laws above. -/
theorem broadcastWindows : Obligations.BroadcastWindows := by
  unfold Obligations.BroadcastWindows
  refine ⟨fun s off val w x hw hd ha => ⟨?write, fun h => ?writeNone⟩,
    fun s off w x hw hd ha => ⟨fun h => ?readNone, fun i rest h => ?readSome⟩, fun s off val h => ⟨?writeRefused, ?readRefused⟩⟩
  case write => rw [exec_broadcastWrite, broadcastWrite_of_taken hd ha, windowWrite_eq hw]
  case writeNone => rw [exec_broadcastWrite, broadcastWrite_of_taken hd ha, windowWrite_of_none hw h]
  case readNone =>
    refine ⟨_, exec_broadcastRead_of_taken hd ha, ?_, windowRead_latch hw s, fun o ho => rd_windowRead_ne hw ho s⟩
    change (windowRead off.toNat s).2.out ++ _ = _
    rw [windowRead_out hw, windowRead_of_none hw h]
    rfl
  case readSome =>
    refine ⟨_, exec_broadcastRead_of_taken hd ha, ?_, windowRead_latch hw s, fun o ho => rd_windowRead_ne hw ho s,
      fun j hj => windowRead_of_differing hw h hj⟩
    change (windowRead off.toNat s).2.out ++ _ = _
    rw [windowRead_out hw, windowRead_of_some hw h]
    rfl
  case writeRefused => rw [exec_broadcastWrite, broadcastWrite_unsupported h]
  case readRefused => rw [exec_broadcastRead, broadcastRead_unsupported h]

end Sys2Proof.Machine
end

section
/-! SUPPORT. The PCI Express function (R476, R530). -/

namespace Sys2Proof.Machine

/-- A function reset returns the registers of the function to their reset values, and leaves every other. -/
theorem rd_functionReset (off : Nat) (s : State) :
    (functionReset s).rd off = if isFunctionReg off = true then regDefault off else s.rd off := by
  refine (Sparse.get_filter_key regDefault (fun k => !isFunctionReg k) s.regs off).trans ?_
  cases isFunctionReg off <;> rfl

section
variable (s : State)
theorem exec_functionLevelReset : exec .functionLevelReset s = .next (kept s (functionReset s)) := rfl
theorem exec_pcieLinkDown : exec .pcieLinkDown s = .next (kept s (pcieDown s)) := rfl
theorem exec_pciePerstNRise : exec .pciePerstNRise s = .next (kept s (perstRise s)) := rfl
end

end Sys2Proof.Machine

namespace Sys2Proof

open Machine

/-- Settles O51: a function reset cuts its registers out of the table, and the commands are their definitions. -/
theorem functionReset : Obligations.FunctionReset := by
  unfold Obligations.FunctionReset
  refine ⟨fun s => ⟨_, _, exec_functionLevelReset s, exec_pcieLinkDown s, fun off => rd_functionReset off s, rfl, rfl, rfl, rfl, rfl, rfl,
    fun _ => rfl, rfl, rfl⟩, fun s => ?_⟩
  rw [exec_pciePerstNRise]
  rfl

end Sys2Proof
end

section
/-! SUPPORT. Life-cycle requests and the end of a transition (R507). -/

namespace Sys2Proof.Machine

/-- A request with the key is refused: a transition or a load is busy, a load is mixed, or the state may not follow. -/
abbrev RefusesRequest (s : State) (t : Nat) : Prop :=
  s.flag F.AON_LC_busy = true ∨ s.flag F.DFT_STATUS_busy = true ∨ s.flag F.DFT_STATUS_mixed = true ∨ lcAllowed s t = false

/-- A request that is taken: busy, the dump area erased, the target remembered. -/
def transitionBegun (t : Nat) (s : State) : State :=
  let v := flashErase 0x3100000 0x810000 (s.setFlag F.AON_LC_busy true)
  { v with fuses := { v.fuses with lcTarget := some t } }

theorem lifeCycle_eq (v : Word) (s : State) :
    lifeCycle v s
      = if bits v.toNat 8 8 ≠ 0x4C then s.storeReg R.AON_LC_CTL v
        else if RefusesRequest (s.storeReg R.AON_LC_CTL v) (bits v.toNat 0 2) then
          raiseInt 13 ((s.storeReg R.AON_LC_CTL v).setFlag F.AON_LC_refused true)
        else transitionBegun (bits v.toNat 0 2) (s.storeReg R.AON_LC_CTL v) := by
  simp only [lifeCycle, RefusesRequest, Bool.or_eq_true, Bool.not_eq_true', or_assoc, transitionBegun]

theorem lifeCycleDone_of_none {s : State} (h : s.fuses.lcTarget = none) : lifeCycleDone s = s := by
  rw [lifeCycleDone, h]

/-- The record written and the fuses blown, the record loaded again, and what AON_LC and AON_LC_HASH then show. -/
def transitionEnded (t : Nat) (s : State) : State :=
  let u := raiseInt 12 ((storeSelvedge s).setFlag F.SEL_STATUS_busy false)
  let v := loadSelvedge (blowFuses t { u with mgt := { u.mgt with selAgain := false } })
  let w := (v.setFld F.AON_LC_state t).setFlag F.AON_LC_busy false
  forEach (w.fuses.keyHash.take 12).zipIdx (fun y z => z.wr (R.AON_LC_HASH y.2) y.1) w

theorem lifeCycleDone_of_some {s : State} {t : Nat} (h : s.fuses.lcTarget = some t) :
    lifeCycleDone s = if isFatal (transitionEnded t s) = true then transitionEnded t s else beginWarm (transitionEnded t s) := by
  rw [lifeCycleDone, h]
  rfl

section
variable (s : State)
theorem exec_lifeCycleRequest (v : Word) :
    exec (.lifeCycleRequest v) s = .next { lifeCycle v s with pending := s.pending, now := s.now } := rfl
theorem exec_lifeCycleTransitionDone :
    exec .lifeCycleTransitionDone s = .next { lifeCycleDone s with pending := s.pending, now := s.now } := rfl
end

/-- Settles O55: each command is its meaning, and each way of it has its equation above. -/
theorem lifeCycleTransitions : Obligations.LifeCycleTransitions := by
  unfold Obligations.LifeCycleTransitions
  refine ⟨fun s val => ?request, fun s => ⟨fun h => ?idle, fun t h => ⟨rfl, ?done⟩⟩⟩
  case request =>
    rw [exec_lifeCycleRequest, lifeCycle_eq]
    rfl
  case idle => rw [exec_lifeCycleTransitionDone, lifeCycleDone_of_none h]
  case done =>
    rw [exec_lifeCycleTransitionDone, lifeCycleDone_of_some h]
    rfl

end Sys2Proof.Machine
end

section
/-! SUPPORT. Software flash operations (R489): the go, and the end with its result. -/

namespace Sys2Proof.Machine

/-- MIO_SPI_CMD as the row of operation `op` writes it. -/
def spiCommand (op : Nat) (val : Word) : Word := (val &&& 0x8FFFFFFF#32) ||| BitVec.ofNat 32 (op * 2 ^ 28)

theorem bits_eq_extractLsb' (w : Word) (lo width : Nat) : bits w.toNat lo width = (w.extractLsb' lo width).toNat := by
  rw [BitVec.extractLsb'_toNat, Nat.shiftRight_eq_div_pow, bits]

/-- The mask clears the op field, and the row's op fills it. -/
theorem bits_spiCommand {op : Nat} (h : op < 4) (val : Word) : bits (spiCommand op val).toNat 28 3 = op := by
  have hmask : (0x8FFFFFFF#32).extractLsb' 28 3 = 0#3 := by decide
  rw [bits_eq_extractLsb', spiCommand, BitVec.extractLsb'_or, BitVec.extractLsb'_and, hmask, BitVec.and_zero, BitVec.zero_or]
  interval_cases op <;> decide

/-- An operation taken with its address and length, behind a write of the record when one runs. -/
def spiTaken (v : Word) (s : State) : State :=
  { s.setFlag F.MIO_SPI_STATUS_busy true with mgt := { s.mgt with
    spi := some (bits v.toNat 28 3, (s.rd R.MIO_SPI_ADDR).toNat, bits v.toNat 0 8 + 1), spiWait := s.flag F.SEL_STATUS_busy } }

theorem spiWrite_eq (v : Word) (s : State) :
    spiWrite v s
      = if (s.storeReg R.MIO_SPI_CMD v).flag F.MIO_SPI_STATUS_busy = true ∨ bitOf v.toNat 31 = false then s.storeReg R.MIO_SPI_CMD v
        else spiTaken v (s.storeReg R.MIO_SPI_CMD v) := by
  simp only [spiWrite, Bool.or_eq_true, Bool.not_eq_true', spiTaken]

theorem flashOpEnd_of_none {s : State} (h : s.mgt.spi = none) (ok : Bool) : flashOpEnd ok s = s := by
  rw [flashOpEnd, h]

section
variable {s : State} {op a n : Nat} (h : s.mgt.spi = some (op, a, n)) (ok : Bool)
include h

theorem flashOpEnd_of_waiting (hw : s.mgt.spiWait = true) (hb : s.flag F.SEL_STATUS_busy = true) : flashOpEnd ok s = s := by
  simp only [flashOpEnd, h, hw, hb, Bool.and_self, if_true]

/-- What the operation did to the memories: nothing when a check refuses it, its effect, or what a failed one leaves. -/
def spiRun (op a n : Nat) (ok : Bool) (s : State) : State :=
  if spiCheck s op a n ≠ 0 then s else if ok = true then spiPerform op a n s else spiFail op a n s

theorem flashOpEnd_of_over (hw : s.mgt.spiWait = false ∨ s.flag F.SEL_STATUS_busy = false) :
    flashOpEnd ok s
      = raiseInt 10 (({ spiRun op a n ok s with mgt := { (spiRun op a n ok s).mgt with spi := none } }.setFlag
          F.MIO_SPI_STATUS_busy false).setFld F.MIO_SPI_STATUS_result
          (if spiCheck s op a n = 0 ∧ ok = false then 3 else spiCheck s op a n)) := by
  have hgo : (s.mgt.spiWait && s.flag F.SEL_STATUS_busy) = false := Bool.and_eq_false_iff.mpr hw
  simp only [flashOpEnd, h, hgo, Bool.false_eq_true, if_false, Bool.and_eq_true, decide_eq_true_eq, Bool.not_eq_true', spiRun]

end

section
variable (s : State)

/-- The rows of the flash operations. -/
def spiRows : List ((Word → Instr) × Nat) := [(.spiRead, 0), (.program, 1), (.erase, 2), (.dump, 3)]

theorem exec_spiRow {x : (Word → Instr) × Nat} (hx : x ∈ spiRows) (val : Word) :
    exec (x.1 val) s = .next (kept s (spiWrite (spiCommand x.2 val) s)) ∧ x.2 < 4 := by
  simp only [spiRows, List.mem_cons, List.not_mem_nil, or_false] at hx
  rcases hx with rfl | rfl | rfl | rfl <;> exact ⟨rfl, by decide⟩

theorem exec_flashOpEnd (ok : Bool) : exec (.flashOpEnd ok) s = .next (kept s (flashOpEnd ok s)) := rfl
end

/-- Settles O53: a row is a write of MIO_SPI_CMD with its op, and the end has its equations above. -/
theorem flashOperations : Obligations.FlashOperations := by
  unfold Obligations.FlashOperations
  refine ⟨fun s val x hx => ?row, fun s ok => ⟨fun h => ?none, fun op a n h => ⟨fun hw hb => ?waiting, fun hw => ?ended⟩⟩⟩
  case row =>
    obtain ⟨hexec, hop⟩ := exec_spiRow s hx val
    refine ⟨?_, bits_spiCommand hop val⟩
    rw [hexec, spiWrite_eq]
    rfl
  case none => rw [exec_flashOpEnd, flashOpEnd_of_none h]
  case waiting => rw [exec_flashOpEnd, flashOpEnd_of_waiting h ok hw hb]
  case ended =>
    rw [exec_flashOpEnd, flashOpEnd_of_over h ok hw]
    rfl

end Sys2Proof.Machine
end

section
/-! SUPPORT. Draft loads and the resets of ports and shuttles (R498 to R502). -/

namespace Sys2Proof.Machine

/-! ### Writes -/

/-- A load of the slot that a write names begins. -/
def loadBegun (val : Word) (s : State) : State :=
  { s.setFlag F.DFT_STATUS_busy true with drf := { s.drf with load := some { slot := bits val.toNat 0 1, since := s.now } } }

theorem draftLoad_eq (val : Word) (s : State) :
    draftLoad val s
      = if bitOf val.toNat 31 = true ∧ (s.storeReg R.DFT_LOAD val).flag F.DFT_STATUS_busy = false then
          loadBegun val (s.storeReg R.DFT_LOAD val)
        else s.storeReg R.DFT_LOAD val := by
  simp only [draftLoad, Bool.and_eq_true, Bool.not_eq_true', loadBegun]

/-- A shuttle's S registers at reset, and its record empty. -/
def shuttleEmptied (p : Nat) (s : State) : State :=
  (resetRegs (fun off dom => dom == .s && decide (0x1000000 + p * 0x2000 ≤ off ∧ off < 0x1000000 + (p + 1) * 0x2000)) s).onSht p
    fun _ => {}

theorem shuttleResetWrite_eq (val : Word) (s : State) :
    shuttleResetWrite val s
      = if bitOf val.toNat 31 = true ∧ bits val.toNat 0 10 < 544
            ∧ (shtRole (s.storeReg R.DFT_SHT_RST val) (bits val.toNat 0 10) = 0
              ∨ shtRole (s.storeReg R.DFT_SHT_RST val) (bits val.toNat 0 10) = 3) then
          shuttleEmptied (bits val.toNat 0 10) (s.storeReg R.DFT_SHT_RST val)
        else s.storeReg R.DFT_SHT_RST val := by
  simp only [shuttleResetWrite, Bool.and_eq_true, Bool.or_eq_true, decide_eq_true_eq, beq_iff_eq, and_assoc, shuttleEmptied]

/-! ### Loads -/

section
variable {s : State}

theorem draftVerified_of_none (h : s.drf.load = none) : draftVerified s = s := by rw [draftVerified, h]
theorem panelDrained_of_none (h : s.drf.load = none) : panelDrained s = s := by rw [panelDrained, h]
theorem drainTimeout_of_none (h : s.drf.load = none) : drainTimeout s = s := by rw [drainTimeout, h]

variable {ld : LiveLoad} (h : s.drf.load = some ld)
include h

theorem draftVerified_of_verified (hv : ld.verified = true) : draftVerified s = s := by
  simp only [draftVerified, h, hv, if_true]

/-- Why verification refuses the draft of the load, if it does. -/
def refusal (ld : LiveLoad) (s : State) : Option Refused :=
  match verifySlot s ld.slot with
  | some r => some r
  | none => if s.flag F.DFT_STATUS_valid = true then liveCheck s ld.slot else none

theorem draftVerified_of_unverified (hv : ld.verified = false) :
    draftVerified s
      = match refusal ld s with
        | some r => endLoad 2 (showRefusal ld.slot r s)
        | none =>
          if s.flag F.DFT_STATUS_valid = true then
            loadOn (onLoad (fun l => { l with verified := true, todo := reloadList s ld.slot }) s)
          else endLoad 1 (applyDraft ld.slot s) := by
  simp only [draftVerified, h, hv]
  rfl

theorem panelDrained_of_ports {k : Nat} (hd : ld.draining = some (1, k)) :
    panelDrained s = if ld.ports.all (portDrained s) = true then loadOn (notePanel (applyPorts k ld.slot ld.ports s)) else s := by
  simp only [panelDrained, h, hd]

theorem drainTimeout_of_ports {k : Nat} (hd : ld.draining = some (1, k)) :
    drainTimeout s
      = if s.now < ld.since + 5000000 then s
        else loadOn (notePanel (applyPorts k ld.slot ld.ports (forEach ld.ports flushPort s))) := by
  simp only [drainTimeout, h, hd]

/-- A panel of shuttles applied, with its migrations over. -/
def shuttlesSwitched (d : Nat) (ld : LiveLoad) (s : State) : State :=
  raiseInt 4 (((applyShuttles d ld.slot s).setFlag F.GLB_SHT_MIG_STATUS_busy false).setFld F.GLB_SHT_MIG_STATUS_result 1)

theorem panelDrained_of_shuttles {d : Nat} (hd : ld.draining = some (2, d)) :
    panelDrained s
      = if s.shts.panel ≠ [] ∧ s.shts.panel.all (switchReady s) = true then loadOn (notePanel (shuttlesSwitched d ld s)) else s := by
  simp only [panelDrained, h, hd, Bool.and_eq_true, Bool.not_eq_true', List.isEmpty_eq_false_iff, shuttlesSwitched]

theorem drainTimeout_of_shuttles {d : Nat} (hd : ld.draining = some (2, d)) :
    drainTimeout s = if s.now < ld.since + 5000000 then s else endLoad 3 (liftFreezes s) := by
  simp only [drainTimeout, h, hd]

section
variable (h1 : ∀ k, ld.draining ≠ some (1, k)) (h2 : ∀ k, ld.draining ≠ some (2, k))
include h1 h2

/-- Neither a panel of ports nor one of shuttles drains. -/
theorem panelDrained_of_other : panelDrained s = s := by
  rw [panelDrained, h]
  dsimp only
  split
  · next k hd => exact absurd hd (h1 k)
  · next k hd => exact absurd hd (h2 k)
  · rfl

theorem drainTimeout_of_other : drainTimeout s = s := by
  rw [drainTimeout, h]
  dsimp only
  split
  · rfl
  · split
    · next k hd => exact absurd hd (h1 k)
    · next k hd => exact absurd hd (h2 k)
    · rfl

end
end

/-! ### The commands -/

section
variable (s : State)
theorem exec_draftLoad (val : Word) : exec (.draftLoad val) s = .next (kept s (draftLoad val s)) := rfl
theorem exec_portReset (val : Word) : exec (.portReset val) s = .next (kept s (settle (portResetWrite val s))) := rfl
theorem exec_shuttleReset (val : Word) : exec (.shuttleReset val) s = .next (kept s (shuttleResetWrite val s)) := rfl
theorem exec_draftVerifyDone : exec .draftVerifyDone s = .next (kept s (settle (draftVerified s))) := rfl
theorem exec_panelDrainEnd : exec .panelDrainEnd s = .next (kept s (settle (panelDrained s))) := rfl
theorem exec_drainTmo : exec .drainTmo s = .next (kept s (settle (drainTimeout s))) := rfl
end

/-- With no load the three commands of one do nothing of their own. -/
theorem exec_of_noLoad {s : State} (h : s.drf.load = none) {c : Instr} (hc : c ∈ [Instr.draftVerifyDone, .panelDrainEnd, .drainTmo]) :
    exec c s = .next (kept s (settle s)) := by
  simp only [List.mem_cons, List.not_mem_nil, or_false] at hc
  rcases hc with rfl | rfl | rfl
  · rw [exec_draftVerifyDone, draftVerified_of_none h]
  · rw [exec_panelDrainEnd, panelDrained_of_none h]
  · rw [exec_drainTmo, drainTimeout_of_none h]

/-- Settles O54: each command is its meaning, and each way of it has its equation above. -/
theorem draftsAndUnitResets : Obligations.DraftsAndUnitResets := by
  unfold Obligations.DraftsAndUnitResets
  refine ⟨fun s val => ⟨?load, ?port, ?shuttle⟩, fun s => ⟨fun h c hc => exec_of_noLoad h hc, fun ld h =>
    ⟨fun hv => ?verified, fun hv => ⟨fun r hr => ?refused, fun hr => ?taken⟩, fun k hd => ⟨?ports, ?portsLate⟩,
      fun d hd => ⟨?shuttles, ?shuttlesLate⟩, fun h1 h2 => ⟨?other, ?otherLate⟩⟩⟩⟩
  case load =>
    rw [exec_draftLoad, draftLoad_eq]
    rfl
  case port => rw [exec_portReset]; rfl
  case shuttle =>
    rw [exec_shuttleReset, shuttleResetWrite_eq]
    rfl
  case verified => rw [exec_draftVerifyDone, draftVerified_of_verified h hv]
  case refused =>
    have hr' : refusal ld s = some r := hr
    rw [exec_draftVerifyDone, draftVerified_of_unverified h hv, hr']
  case taken =>
    have hr' : refusal ld s = none := hr
    rw [exec_draftVerifyDone, draftVerified_of_unverified h hv, hr']
  case ports => rw [exec_panelDrainEnd, panelDrained_of_ports h hd]
  case portsLate => rw [exec_drainTmo, drainTimeout_of_ports h hd]
  case shuttles =>
    rw [exec_panelDrainEnd, panelDrained_of_shuttles h hd]
    rfl
  case shuttlesLate => rw [exec_drainTmo, drainTimeout_of_shuttles h hd]
  case other => rw [exec_panelDrainEnd, panelDrained_of_other h h1 h2]
  case otherLate => rw [exec_drainTmo, drainTimeout_of_other h h1 h2]

end Sys2Proof.Machine
end

section
/-! SUPPORT. I2C transfers and bus checks, the I2C target, and GPIO (R478, R480 to R485). -/

namespace Sys2Proof.Machine

/-! ### The controllers -/

/-- A transfer begins: the bytes of the buffer are sent, at most 32, and as many are asked for. -/
def i2cBegun (n : Nat) (val : Word) (s : State) : State :=
  (s.setFlag (F.MIO_I2C_STATUS_busy n) true).emit (.i2cStart n (bits val.toNat 16 7)
    (readBytes (bufByte s (R.MIO_I2C_DATA n 0)) 0 (min 32 (bits val.toNat 8 6))) (min 32 (bits val.toNat 0 6)))

theorem i2cTransfer_eq (n : Nat) (val : Word) {s u : State} (hu : u = s.storeReg (R.MIO_I2C_XFER n) val) :
    i2cTransfer n val s
      = if u.flag (F.MIO_I2C_STATUS_busy n) = true ∨ bitOf val.toNat 31 = false ∨ u.flag (F.MIO_I2C_CFG_en n) = false then u
        else if u.flag (F.MIO_I2C_STATUS_stuck n) = true ∧ checkDue u n = false then endI2c n 4 u
        else i2cBegun n val u := by
  subst hu
  simp only [i2cTransfer, Bool.or_eq_true, Bool.and_eq_true, Bool.not_eq_true', or_assoc, i2cBegun]

/-- The check that was due. -/
def i2cChecked (n : Nat) (sda : Option Nat) (s : State) : State := if checkDue s n = true then busCheck n sda s else s

/-- The bytes read, and the check that a result without a STOP calls for. -/
def i2cStored (n result : Nat) (data : List Byte) (sda : Option Nat) (due : Bool) (s : State) : State :=
  let v := putBuf (R.MIO_I2C_DATA n 0) (data.take 32) s
  if result = 3 ∨ result = 5 ∨ result = 6 then (if due = true then setCheckDue n true v else busCheck n sda v) else v

theorem i2cTransferEnd_eq (n result : Nat) (data : List Byte) (sda : Option Nat) (s : State) :
    i2cTransferEnd n result data sda s
      = if s.flag (F.MIO_I2C_STATUS_busy n) = false ∨ result = 7 then s
        else if checkDue s n = true ∧ (i2cChecked n sda s).flag (F.MIO_I2C_STATUS_stuck n) = true then endI2c n 4 (i2cChecked n sda s)
        else endI2c n result (i2cStored n result data sda (checkDue s n) (i2cChecked n sda s)) := by
  have hrefused : (!s.flag (F.MIO_I2C_STATUS_busy n) || result == 7) = true
      ↔ s.flag (F.MIO_I2C_STATUS_busy n) = false ∨ result = 7 := by simp
  have hnoStop : (result == 3 || result == 5 || result == 6) = true ↔ result = 3 ∨ result = 5 ∨ result = 6 := by simp [or_assoc]
  exact if_congr hrefused rfl (if_congr Bool.and_eq_true_iff rfl (congrArg (endI2c n result) (if_congr hnoStop rfl rfl)))

theorem i2cTimeout_eq (n : Nat) (s : State) :
    i2cTimeout n s
      = if s.flag (F.MIO_I2C_STATUS_busy n) = false then s
        else if checkDue s n = true then endI2c n 4 (busCheck n none s)
        else endI2c n 3 (setCheckDue n true (s.emit (.i2cBus n false))) := by
  simp only [i2cTimeout, Bool.not_eq_true']

/-! ### The target -/

theorem blockRead_eq (cmd : Nat) (data : List Byte) (s : State) :
    blockRead cmd data s
      = if targetOn s = false then s
        else s.emit (.i2cBytes (if s.flag F.MIO_I2CT_CFG_pec_en = true then
            BitVec.ofNat 8 data.length :: data ++ [pec ([BitVec.ofNat 8 (targetAddr s), BitVec.ofNat 8 cmd,
              BitVec.ofNat 8 (targetAddr s + 1)] ++ BitVec.ofNat 8 data.length :: data)]
          else BitVec.ofNat 8 data.length :: data)) := by
  simp only [blockRead, Bool.not_eq_true']

theorem targetAddress_eq (bytes : List Byte) (p : Option Byte) (s : State) :
    targetAddress bytes p s
      = if targetOn s = false ∨ bytes.length ≠ 4 then s
        else if s.flag F.MIO_I2CT_CFG_pec_en = true ∧ p ≠ some (pec ([BitVec.ofNat 8 (targetAddr s), 0x10#8, 4#8] ++ bytes)) then
          (s.bump F.MIO_I2CT_PEC_CNT_count).emit (.i2cNack 7)
        else { s with mgt := { s.mgt with tgtOff := ofLe bytes / 4 * 4 } } := by
  simp only [targetAddress, Bool.or_eq_true, Bool.and_eq_true, Bool.not_eq_true', bne_iff_ne]

/-- The register at the stored offset answered. -/
def targetAnswered (s : State) : State :=
  blockRead 0x11 (if targetReads s.mgt.tgtOff = true then regBytes s s.mgt.tgtOff else leBytes 4 0xFFFFFFFF) s

theorem targetRead_eq (s : State) :
    targetRead s
      = if targetOn s = false then s
        else { targetAnswered s with mgt := { (targetAnswered s).mgt with tgtOff := (s.mgt.tgtOff + 4) % 2 ^ 32 } } := by
  simp only [targetRead, Bool.not_eq_true', targetAnswered]

/-! ### GPIO -/

/-- The enabled inputs whose level changes. -/
def pinsMoved (pins : Byte) (s : State) : List Nat :=
  (upTo 8).filter fun i => bitOf (s.fld F.MIO_GPIO_in) i != bitOf pins.toNat i && bitOf (s.fld F.MIO_GPIO_INT_ien) i
    && !bitOf (s.fld F.MIO_GPIO_dir) i

/-- The pins shown, and the interrupt of each input that moved. -/
def pinsShown (pins : Byte) (s : State) : State :=
  forEach (pinsMoved pins s) (fun i v => v.setFlag ⟨R.MIO_GPIO_INT, i, 1⟩ true) (s.setFld F.MIO_GPIO_in pins.toNat)

theorem gpioChange_eq (pins : Byte) (s : State) :
    gpioChange pins s = if pinsMoved pins s = [] then pinsShown pins s else raiseInt 11 (pinsShown pins s) :=
  if_congr List.isEmpty_iff rfl rfl

/-! ### The commands -/

section
variable (n : Fin 2) (sda : Option (Fin 10)) (s : State)
theorem exec_i2cTransfer (val : Word) : exec (.i2cTransfer n val) s = .next (kept s (i2cTransfer n.val val s)) := rfl
theorem exec_i2cTransferEnd (result : BitVec 3) (data : List Byte) :
    exec (.i2cTransferEnd n result data sda) s
      = .next (kept s (i2cTransferEnd n.val result.toNat data (sda.map (·.val)) s)) := rfl
theorem exec_i2cTimeout : exec (.i2cTimeout n) s = .next (kept s (i2cTimeout n.val s)) := rfl
theorem exec_recover : exec (.recover n sda) s = .next (kept s (busCheck n.val (sda.map (·.val)) s)) := rfl
theorem exec_ident : exec .ident s = .next (kept s (targetIdent s)) := rfl
theorem exec_i2cFault : exec .i2cFault s = .next (kept s (targetFault s)) := rfl
theorem exec_thermal : exec .thermal s = .next (kept s (targetThermal s)) := rfl
theorem exec_power : exec .power s = .next (kept s (targetPower s)) := rfl
theorem exec_addr (bytes : List Byte) (p : Option Byte) : exec (.addr bytes p) s = .next (kept s (targetAddress bytes p s)) := rfl
theorem exec_read : exec .read s = .next (kept s (targetRead s)) := rfl
theorem exec_gpioChange (pins : Byte) : exec (.gpioChange pins) s = .next (kept s (gpioChange pins s)) := rfl
end

/-- Settles O52: each command is its meaning, and each way of it has its equation above. -/
theorem i2cActs : Obligations.I2cActs := by
  unfold Obligations.I2cActs
  refine ⟨fun s n val => ?start, fun s n result data sda => ⟨?ended, ?timeout, exec_recover n sda s⟩,
    fun s => ⟨exec_ident s, exec_i2cFault s, exec_thermal s, exec_power s, fun cmd data => blockRead_eq cmd data s,
      fun bytes p => ?addr, ?read, fun pins => ?gpio⟩⟩
  case start =>
    rw [exec_i2cTransfer, i2cTransfer_eq n.val val rfl]
    rfl
  case ended =>
    rw [exec_i2cTransferEnd, i2cTransferEnd_eq]
    rfl
  case timeout => rw [exec_i2cTimeout, i2cTimeout_eq]
  case addr => rw [exec_addr, targetAddress_eq]
  case read =>
    rw [exec_read, targetRead_eq]
    rfl
  case gpio =>
    rw [exec_gpioChange, gpioChange_eq]
    rfl

end Sys2Proof.Machine
end

section
/-! SUPPORT. A state is canonical when its memories are in canonical form. Record updates that leave the memories alone, and
the shapes operations are built from, keep it so. -/

namespace Sys2Proof.Machine

/-- The memories of the state are in canonical form. -/
def State.Canonical (s : State) : Prop := s.mem.wf = true

section
variable {s t : State}

theorem State.Canonical.of_mem (h : s.Canonical) (e : t.mem = s.mem) : t.Canonical := by
  rw [State.Canonical, e]
  exact h

theorem State.Canonical.with_pending {v} (h : s.Canonical) : { s with pending := v }.Canonical := h.of_mem rfl

theorem State.Canonical.with_now {v} (h : s.Canonical) : { s with now := v }.Canonical := h.of_mem rfl

theorem State.Canonical.with_free {v} (h : s.Canonical) : { s with free := v }.Canonical := h.of_mem rfl

theorem State.Canonical.with_out {v} (h : s.Canonical) : { s with out := v }.Canonical := h.of_mem rfl

theorem State.Canonical.with_regs {v} (h : s.Canonical) : { s with regs := v }.Canonical := h.of_mem rfl

theorem State.Canonical.with_latch {v} (h : s.Canonical) : { s with latch := v }.Canonical := h.of_mem rfl

theorem State.Canonical.with_fuses {v} (h : s.Canonical) : { s with fuses := v }.Canonical := h.of_mem rfl

theorem State.Canonical.with_flt {v} (h : s.Canonical) : { s with flt := v }.Canonical := h.of_mem rfl

theorem State.Canonical.with_ctxRst {v} (h : s.Canonical) : { s with ctxRst := v }.Canonical := h.of_mem rfl

theorem State.Canonical.with_fab {v} (h : s.Canonical) : { s with fab := v }.Canonical := h.of_mem rfl

theorem State.Canonical.with_core {v} (h : s.Canonical) : { s with core := v }.Canonical := h.of_mem rfl

theorem State.Canonical.with_link {v} (h : s.Canonical) : { s with link := v }.Canonical := h.of_mem rfl

theorem State.Canonical.with_disc {v} (h : s.Canonical) : { s with disc := v }.Canonical := h.of_mem rfl

theorem State.Canonical.with_rte {v} (h : s.Canonical) : { s with rte := v }.Canonical := h.of_mem rfl

theorem State.Canonical.with_grp {v} (h : s.Canonical) : { s with grp := v }.Canonical := h.of_mem rfl

theorem State.Canonical.with_shts {v} (h : s.Canonical) : { s with shts := v }.Canonical := h.of_mem rfl

theorem State.Canonical.with_sched {v} (h : s.Canonical) : { s with sched := v }.Canonical := h.of_mem rfl

theorem State.Canonical.with_time {v} (h : s.Canonical) : { s with time := v }.Canonical := h.of_mem rfl

theorem State.Canonical.with_lanes {v} (h : s.Canonical) : { s with lanes := v }.Canonical := h.of_mem rfl

theorem State.Canonical.with_pwr {v} (h : s.Canonical) : { s with pwr := v }.Canonical := h.of_mem rfl

theorem State.Canonical.with_mgt {v} (h : s.Canonical) : { s with mgt := v }.Canonical := h.of_mem rfl

theorem State.Canonical.with_drf {v} (h : s.Canonical) : { s with drf := v }.Canonical := h.of_mem rfl

theorem State.Canonical.with_ecc {v} (h : s.Canonical) : { s with ecc := v }.Canonical := h.of_mem rfl

theorem State.Canonical.with_jtag {v} (h : s.Canonical) : { s with jtag := v }.Canonical := h.of_mem rfl

theorem State.Canonical.ite {c : Prop} {d : Decidable c} (h : s.Canonical) (h' : t.Canonical) :
    (if c then s else t).Canonical := by
  split <;> assumption

theorem State.Canonical.ite_snd {α : Type} {c : Prop} {d : Decidable c} {p q : α × State} (h : p.2.Canonical)
    (h' : q.2.Canonical) : (if c then p else q).2.Canonical := by
  split <;> assumption

theorem State.Canonical.ite_snd_snd {α β : Type} {c : Prop} {d : Decidable c} {p q : α × β × State}
    (h : p.2.2.Canonical) (h' : q.2.2.Canonical) : (if c then p else q).2.2.Canonical := by
  split <;> assumption

theorem State.Canonical.of_snd {α : Type} {p : α × State} {a : α} (h : p.2.Canonical) (e : p = (a, t)) : t.Canonical := by
  rw [e] at h
  exact h

theorem State.Canonical.of_snd_snd {α β : Type} {p : α × β × State} {a : α} {b : β} (h : p.2.2.Canonical)
    (e : p = (a, b, t)) : t.Canonical := by
  rw [e] at h
  exact h

theorem State.Canonical.forEach {α : Type} {l : List α} {f : α → State → State} (h : s.Canonical)
    (hf : ∀ a u, u.Canonical → (f a u).Canonical) : (forEach l f s).Canonical :=
  forEach_wf l f hf s h

theorem State.Canonical.foldl_snd {α β : Type} {l : List β} {f : α × State → β → α × State} {a : α} (h : s.Canonical)
    (hf : ∀ b x, x.2.Canonical → (f x b).2.Canonical) : (l.foldl f (a, s)).2.Canonical := by
  refine List.foldlRecOn (motive := fun x => x.2.Canonical) l f (b := (a, s)) h fun x hx b _ => ?_
  exact hf b x hx

/-! Emptying a memory, or erasing bytes of it, keeps the form. -/

theorem State.Canonical.with_mem_cap (h : s.Canonical) : { s with mem := { s.mem with cap := [] } }.Canonical := by
  obtain ⟨hsheets, hflash, -, hsel⟩ := (Mem.wf_iff _).1 h
  exact (Mem.wf_iff _).2 ⟨hsheets, hflash, rfl, hsel⟩

theorem State.Canonical.with_mem_sel (h : s.Canonical) : { s with mem := { s.mem with sel := [] } }.Canonical := by
  obtain ⟨hsheets, hflash, hcap, -⟩ := (Mem.wf_iff _).1 h
  exact (Mem.wf_iff _).2 ⟨hsheets, hflash, hcap, rfl⟩

theorem State.Canonical.of_erase_sheets {drop : Nat → Bool} (h : s.Canonical)
    (e : t.mem = { s.mem with sheets := eraseCells drop s.mem.sheets }) : t.Canonical := by
  obtain ⟨hsheets, hflash, hcap, hsel⟩ := (Mem.wf_iff _).1 h
  rw [State.Canonical, e]
  exact (Mem.wf_iff _).2 ⟨Sparse.wf_filter _ _ _ hsheets, hflash, hcap, hsel⟩

theorem State.Canonical.of_flash_sel (h : s.Canonical) (e : t.mem = { flash := s.mem.flash, sel := s.mem.sel }) :
    t.Canonical := by
  obtain ⟨-, hflash, -, hsel⟩ := (Mem.wf_iff _).1 h
  rw [State.Canonical, e]
  exact (Mem.wf_iff _).2 ⟨rfl, hflash, rfl, hsel⟩

theorem State.Canonical.of_flash (h : s.Canonical) (e : t.mem = { flash := s.mem.flash }) : t.Canonical := by
  obtain ⟨-, hflash, -, -⟩ := (Mem.wf_iff _).1 h
  rw [State.Canonical, e]
  exact (Mem.wf_iff _).2 ⟨rfl, hflash, rfl, rfl⟩

end

end Sys2Proof.Machine
end

section
/-! SUPPORT. Operations on the state, the flags, faults and interrupts, cells, versions, copies, routes
and streams keep the memories canonical. -/

namespace Sys2Proof.Machine

variable {s : State}

/-! ### State operations -/

theorem State.Canonical.wr {off v} (h : s.Canonical) : (s.wr off v).Canonical := h.with_regs
theorem State.Canonical.setFld {f n} (h : s.Canonical) : (s.setFld f n).Canonical := h.wr
theorem State.Canonical.setFlag {f b} (h : s.Canonical) : (s.setFlag f b).Canonical := h.setFld
theorem State.Canonical.bumpBy {f n} (h : s.Canonical) : (s.bumpBy f n).Canonical := h.setFld
theorem State.Canonical.bump {f} (h : s.Canonical) : (s.bump f).Canonical := h.bumpBy
theorem State.Canonical.storeReg {off v} (h : s.Canonical) : (s.storeReg off v).Canonical := h.wr
theorem State.Canonical.emit {o} (h : s.Canonical) : (s.emit o).Canonical := h.with_out

theorem State.Canonical.withFree {k} (h : s.Canonical) (hk : ∀ a0 u, u.Canonical → (k a0 u).Canonical) :
    (s.withFree k).Canonical :=
  hk _ _ h.with_free

theorem State.Canonical.setSheetByte {a b} (h : s.Canonical) : (s.setSheetByte a b).Canonical := setSheetByte_wf a b s h
theorem State.Canonical.setFlashByte {a b} (h : s.Canonical) : (s.setFlashByte a b).Canonical := setFlashByte_wf a b s h
theorem State.Canonical.setCapByte {a b} (h : s.Canonical) : (s.setCapByte a b).Canonical := setCapByte_wf a b s h
theorem State.Canonical.setSelByte {a b} (h : s.Canonical) : (s.setSelByte a b).Canonical := setSelByte_wf a b s h

theorem State.Canonical.writeBytes {put a l} (h : s.Canonical)
    (hput : ∀ a b u, u.Canonical → (put a b u).Canonical) : (writeBytes put a l s).Canonical :=
  writeBytes_wf put hput l a s h

theorem State.Canonical.setSelWord {a n} (h : s.Canonical) : (s.setSelWord a n).Canonical :=
  .writeBytes h (fun _ _ _ hu => hu.setSelByte)

theorem State.Canonical.bumpSel {a} (h : s.Canonical) : (s.bumpSel a).Canonical := h.setSelWord
theorem State.Canonical.onLnk {p f} (h : s.Canonical) : (s.onLnk p f).Canonical := h.with_link
theorem State.Canonical.onPdisc {p f} (h : s.Canonical) : (s.onPdisc p f).Canonical := h.with_disc
theorem State.Canonical.onQsch {k f} (h : s.Canonical) : (s.onQsch k f).Canonical := h.with_sched
theorem State.Canonical.onPsch {p f} (h : s.Canonical) : (s.onPsch p f).Canonical := h.with_sched
theorem State.Canonical.setOrt {e v} (h : s.Canonical) : (s.setOrt e v).Canonical := h.with_fab
theorem State.Canonical.setDir {n v} (h : s.Canonical) : (s.setDir n v).Canonical := h.with_fab
theorem State.Canonical.setFan {r v} (h : s.Canonical) : (s.setFan r v).Canonical := h.with_fab
theorem State.Canonical.onRver {k f} (h : s.Canonical) : (s.onRver k f).Canonical := h.with_rte
theorem State.Canonical.setCell {c v} (h : s.Canonical) : (s.setCell c v).Canonical := h.with_core
theorem State.Canonical.setEq {k l} (h : s.Canonical) : (s.setEq k l).Canonical := h.with_core
theorem State.Canonical.setXq {k l} (h : s.Canonical) : (s.setXq k l).Canonical := h.with_core
theorem State.Canonical.setWait {k l} (h : s.Canonical) : (s.setWait k l).Canonical := h.with_core
theorem State.Canonical.setUsed {k n} (h : s.Canonical) : (s.setUsed k n).Canonical := h.with_core
theorem State.Canonical.setGrpE {g v} (h : s.Canonical) : (s.setGrpE g v).Canonical := h.with_grp
theorem State.Canonical.setTrk {t' v} (h : s.Canonical) : (s.setTrk t' v).Canonical := h.with_grp
theorem State.Canonical.onSht {p f} (h : s.Canonical) : (s.onSht p f).Canonical := h.with_shts
theorem State.Canonical.onLane {n f} (h : s.Canonical) : (s.onLane n f).Canonical := h.with_lanes
theorem State.Canonical.onPln {p f} (h : s.Canonical) : (s.onPln p f).Canonical := h.with_lanes
theorem State.Canonical.setCellErr {c v} (h : s.Canonical) : (s.setCellErr c v).Canonical := h.with_ecc
theorem State.Canonical.setWordErr {w v} (h : s.Canonical) : (s.setWordErr w v).Canonical := h.with_ecc

/-! ### Faults and interrupts -/

theorem State.Canonical.sendMsix {v} (h : s.Canonical) : (sendMsix v s).Canonical := .ite h.emit h.setFlag

theorem State.Canonical.raiseInt {v} (h : s.Canonical) : (raiseInt v s).Canonical :=
  .ite h (.ite h.setFlag.sendMsix h.setFlag)

theorem State.Canonical.unmaskMsix {v} (h : s.Canonical) : (unmaskMsix v s).Canonical := .ite h.setFlag.sendMsix h
theorem State.Canonical.showLive {c} (h : s.Canonical) : (showLive c s).Canonical := h.setFlag

theorem State.Canonical.beginLive {c loc} (h : s.Canonical) : (beginLive c loc s).Canonical :=
  .ite h h.with_flt.showLive

theorem State.Canonical.endLive {c loc} (h : s.Canonical) : (endLive c loc s).Canonical := h.with_flt.showLive

theorem State.Canonical.appendEvent {kind cls ctx loc detail} (h : s.Canonical) :
    (appendEvent kind cls ctx loc detail s).Canonical :=
  h.setSelWord.setSelWord.setSelWord.setSelWord.bumpSel.setSelWord

theorem State.Canonical.firstFault {c loc ctx} (h : s.Canonical) : (firstFault c loc ctx s).Canonical :=
  .ite h.setFlag h.wr.wr.wr.wr.wr

theorem State.Canonical.driveFaultN (h : s.Canonical) : (driveFaultN s).Canonical := h.setFlag.with_flt

theorem State.Canonical.raiseCause {c loc ctx detail} (h : s.Canonical) :
    (raiseCause c loc ctx detail s).Canonical := by
  unfold Machine.raiseCause
  extract_lets _ _ _ s2 s3 s4 s5 s6 s7
  have hs2 : s2.Canonical := h.setFlag.bump
  have hs3 : s3.Canonical := .ite hs2.beginLive hs2
  have hs4 : s4.Canonical := .ite hs3 hs3.firstFault
  have hs5 : s5.Canonical := .ite hs4.appendEvent hs4
  have hs6 : s6.Canonical := .ite hs5.driveFaultN hs5
  have hs7 : s7.Canonical := .ite hs6.bumpSel hs6
  exact .ite hs7.raiseInt hs7

theorem State.Canonical.raise {c loc} (h : s.Canonical) : (raise c loc s).Canonical := h.raiseCause
theorem State.Canonical.raiseFor {c loc ctx} (h : s.Canonical) : (raiseFor c loc ctx s).Canonical := h.raiseCause

/-! ### Cells and queues -/

theorem State.Canonical.showFree {d} (h : s.Canonical) : (showFree d s).Canonical := h.setFld.setFld

theorem State.Canonical.setStack {d pushed fresh} (h : s.Canonical) : (setStack d pushed fresh s).Canonical :=
  h.with_core

theorem State.Canonical.popCell {d x} (h : s.Canonical) (e : popCell d s = some x) : x.2.Canonical := by
  unfold Machine.popCell at e
  split at e
  · cases e
    exact h.setStack
  · split at e
    · cases e
      exact h.setStack
    · cases e

theorem State.Canonical.popCells {d n x} (h : s.Canonical) (e : popCells d n s = some x) : x.2.Canonical := by
  induction n generalizing s x with
  | zero =>
    cases e
    exact h
  | succ n ih =>
    unfold Machine.popCells at e
    split at e
    · cases e
    · rename_i s1 e1
      split at e
      · cases e
      · rename_i l s2 e2
        cases e
        exact ih (s := s1) (x := (l, s2)) (h.popCell e1) e2

theorem State.Canonical.setDescStack {d pushed fresh} (h : s.Canonical) : (setDescStack d pushed fresh s).Canonical :=
  h.with_core

theorem State.Canonical.popDesc {d x} (h : s.Canonical) (e : popDesc d s = some x) : x.2.Canonical := by
  unfold Machine.popDesc at e
  extract_lets at e
  split at e
  · cases e
    exact h.setDescStack
  · obtain ⟨c, -, rfl⟩ := Option.map_eq_some_iff.1 e
    exact h.setDescStack

theorem State.Canonical.pushDescOf {c} (h : s.Canonical) : (pushDescOf c s).Canonical := by
  unfold Machine.pushDescOf
  split
  · exact h.setDescStack
  · exact h

theorem State.Canonical.describe {d l x} (h : s.Canonical) (e : describe d l s = some x) : x.2.Canonical := by
  induction l generalizing s x with
  | nil =>
    cases e
    exact h
  | cons c l ih =>
    unfold Machine.describe at e
    split at e
    · cases e
    · rename_i s1 e1
      obtain ⟨y, e2, rfl⟩ := Option.map_eq_some_iff.1 e
      exact ih (s := s1) (x := y) (h.popDesc e1) e2

theorem State.Canonical.charge {d code n} (h : s.Canonical) : (charge d code n s).Canonical := .ite h h.setUsed
theorem State.Canonical.uncharge {d code n} (h : s.Canonical) : (uncharge d code n s).Canonical := .ite h h.setUsed

theorem State.Canonical.linkCells {nLu refs acct closed rx l} (h : s.Canonical) :
    (linkCells nLu refs acct closed rx l s).Canonical := by
  induction l generalizing nLu s with
  | nil => exact h
  | cons c l ih =>
    cases l with
    | nil => exact h.setCellErr.setCell
    | cons c' l => exact ih h.setCellErr.setCell

theorem State.Canonical.allocFail {d} (h : s.Canonical) : (allocFail d s).Canonical := h.bump.raise

theorem State.Canonical.writeCells {d nLu refs acct rx} (h : s.Canonical) :
    (writeCells d nLu refs acct rx s).2.Canonical := by
  unfold Machine.writeCells
  split
  · rename_i e
    exact (h.popCells e).linkCells.charge.showFree
  · exact h.allocFail

theorem State.Canonical.readCell {c} (h : s.Canonical) : (readCell c s).2.Canonical := by
  unfold Machine.readCell
  extract_lets
  split
  · exact h
  · exact h.bump.raise
  · exact h.bump.raise

theorem State.Canonical.readDone {c} (h : s.Canonical) : (readDone c s).Canonical :=
  .ite h.setCell.setStack.uncharge.showFree h.setCell

theorem State.Canonical.dropReader {cells} (h : s.Canonical) : (dropReader cells s).Canonical :=
  .forEach h (fun _ _ hu => hu.readDone)

theorem State.Canonical.dropCells {c} (h : s.Canonical) : (dropCells c s).Canonical :=
  .forEach h (fun _ _ hu => hu.dropReader)

theorem State.Canonical.recharge {cells acct} (h : s.Canonical) : (recharge cells acct s).Canonical :=
  .forEach h (fun _ _ hu => hu.setCell.uncharge.charge)

theorem State.Canonical.giveCredits {port q n} (h : s.Canonical) : (giveCredits port q n s).Canonical := h.onLnk
theorem State.Canonical.returnCredits {c} (h : s.Canonical) : (returnCredits c s).Canonical := .ite h.giveCredits h

theorem State.Canonical.releaseRejected {rel} (h : s.Canonical) : (releaseRejected rel s).Canonical := by
  unfold Machine.releaseRejected
  split
  · exact h.dropReader.giveCredits
  · exact h

theorem State.Canonical.leaveVers {vs} (h : s.Canonical) : (leaveVers vs s).Canonical :=
  .forEach h (fun _ _ hu => hu.onRver)

theorem State.Canonical.enterVers {vs} (h : s.Canonical) : (enterVers vs s).Canonical :=
  .forEach h (fun _ _ hu => hu.onRver)

theorem State.Canonical.discardCopy {c} (h : s.Canonical) : (discardCopy c s).Canonical :=
  h.dropCells.pushDescOf.leaveVers

theorem State.Canonical.nackFor {port pk} (h : s.Canonical) : (nackFor port pk s).Canonical := by
  unfold Machine.nackFor
  split
  · exact .ite h.bump.with_core h
  · exact h

theorem State.Canonical.flushCopy {c} (h : s.Canonical) : (flushCopy c s).Canonical := h.bump.discardCopy.nackFor
theorem State.Canonical.placeCal {k w} (h : s.Canonical) : (placeCal k w s).Canonical := .ite h.onQsch h.onQsch
theorem State.Canonical.wakeQueue {k} (h : s.Canonical) : (wakeQueue k s).Canonical := .ite h.onQsch.placeCal h.onQsch
theorem State.Canonical.idleQueue {k} (h : s.Canonical) : (idleQueue k s).Canonical := h.onQsch

theorem State.Canonical.setQueue {k l} (h : s.Canonical) : (setQueue k l s).Canonical :=
  .ite (.idleQueue (.ite h.setEq h.setEq.onQsch)) (.ite h.setEq h.setEq.onQsch)

theorem State.Canonical.enqueue {c} (h : s.Canonical) : (enqueue c s).Canonical :=
  .ite h.flushCopy (.setFld (.setEq (.ite h.wakeQueue h)))

theorem State.Canonical.debitPacket {igPort igQueue pk} (h : s.Canonical) :
    (debitPacket igPort igQueue pk s).Canonical := by
  unfold Machine.debitPacket
  split
  · exact h.with_sched
  · exact h

theorem State.Canonical.debitCtx {c} (h : s.Canonical) : (debitCtx c s).Canonical := .ite h h.debitPacket

theorem State.Canonical.countHeld {pk} (h : s.Canonical) : (countHeld pk s).Canonical := by
  unfold Machine.countHeld
  split
  · exact h.bump
  · exact h

theorem State.Canonical.letIn {acct w} (h : s.Canonical) : (letIn acct w s).Canonical := by
  unfold Machine.letIn
  split
  · exact h.releaseRejected
  · extract_lets _ s2
    have hs2 : s2.Canonical := .forEach h.recharge (fun _ _ hu => hu.debitCtx.returnCredits)
    exact .forEach hs2.releaseRejected.showFree (fun _ _ hu => hu.enqueue)

theorem State.Canonical.discardUnadmitted {w} (h : s.Canonical) : (discardUnadmitted w s).Canonical :=
  .releaseRejected (.forEach h (fun _ _ hu => .discardCopy (.returnCredits (.ite hu.bump hu.bump))))

theorem State.Canonical.offer {d key w} (h : s.Canonical) : (offer d key w s).Canonical := by
  unfold Machine.offer
  split
  · exact h
  · extract_lets
    refine .ite ?_ h.setWait
    split
    · exact h.letIn
    · exact .ite h.discardUnadmitted h.setWait
    · exact h.countHeld.setWait

theorem State.Canonical.pushOut {d} (h : s.Canonical) : (pushOut d s).Canonical := by
  unfold Machine.pushOut
  split
  · exact h
  · split
    · exact h
    · exact .discardCopy (.ite h.setQueue.bump h.setQueue.bump)

theorem State.Canonical.admitHead {d key} (h : s.Canonical) : (admitHead d key s).Canonical := by
  unfold Machine.admitHead
  split
  · exact h
  · split
    · exact h.setWait
    · refine .ite ?_ (.ite h h.countHeld.setWait)
      split
      · exact h.setWait.letIn
      · refine .ite h.setWait.discardUnadmitted ?_
        extract_lets s1
        have hs1 : s1.Canonical := h.pushOut
        split
        · exact hs1.setWait.letIn
        · exact hs1

theorem State.Canonical.admitQueue {port q} (h : s.Canonical) : (admitQueue port q s).Canonical := h.admitHead.admitHead

/-! ### Versions of entries -/

theorem State.Canonical.showSettled {k} (h : s.Canonical) : (showSettled k s).Canonical := h.setFlag
theorem State.Canonical.showEpoch {k} (h : s.Canonical) : (showEpoch k s).Canonical := h.setFld

theorem State.Canonical.newVersion {k v hold} (h : s.Canonical) : (newVersion k v hold s).Canonical :=
  .showSettled (.showEpoch (.ite h.onRver h.onRver))

theorem State.Canonical.hwRoute {k v hold} (h : s.Canonical) : (hwRoute k v hold s).Canonical :=
  .ite h (.newVersion (.ite (.wr (.ite h h.wr)) (.ite h h.wr)))

theorem State.Canonical.holdPacket {h1} (h : s.Canonical) : (holdPacket h1 s).Canonical := h.bump.with_rte.showSettled

theorem State.Canonical.removeHeld {f} (h : s.Canonical) : (removeHeld f s).Canonical := by
  unfold Machine.removeHeld
  extract_lets
  refine .forEach h.with_rte fun _ _ hu => ?_
  refine .showSettled ?_
  split
  · exact hu.returnCredits.discardCopy
  · exact hu.leaveVers

/-! ### Copies -/

theorem State.Canonical.mirrorOne {d head rx own pk m} (h : s.Canonical) :
    (mirrorOne d head rx own pk m s).Canonical := by
  unfold Machine.mirrorOne
  extract_lets _ _ s1 _ _ missed
  have hs1 : s1.Canonical := h.with_core
  have hmissed : ∀ u, u.Canonical → (missed u).Canonical := fun _ hu => hu.bump
  refine .ite hs1.dropCells ?_
  refine .ite (hmissed _ hs1.dropCells) ?_
  split
  · rename_i s2 e
    have hs2 : s2.Canonical := hs1.describe e
    refine .ite ?_ hs2.setXq
    split
    · exact .enqueue (.ite hs2.recharge hs2)
    · exact hmissed _ hs2.discardCopy
  · exact hmissed _ hs1.dropCells

theorem State.Canonical.placeCopies {d key rel copies} (h : s.Canonical) :
    (placeCopies d key rel copies s).Canonical := by
  unfold Machine.placeCopies
  split
  · exact .releaseRejected (.forEach h.allocFail (fun _ _ hu => hu.returnCredits.discardCopy))
  · rename_i e
    extract_lets _ _ s2
    have hs2 : s2.Canonical := .forEach (h.describe e) (fun _ _ hu => .ite hu.returnCredits.flushCopy hu.setXq)
    exact .ite hs2 hs2.offer

theorem State.Canonical.dispatch {d key rel ts} (h : s.Canonical) : (dispatch d key rel ts s).Canonical := by
  unfold Machine.dispatch
  split
  · exact h.releaseRejected
  · split
    · rename_i s1 e
      exact .releaseRejected (.forEach (h.writeCells.of_snd e) (fun _ _ hu => hu.leaveVers))
    · rename_i e
      exact (h.writeCells.of_snd e).placeCopies

theorem State.Canonical.placeOwn {ts} (h : s.Canonical) : (placeOwn ts s).Canonical := by
  refine .forEach h fun e u hu => ?_
  extract_lets mine
  cases mine with
  | nil => exact hu
  | cons => exact hu.dispatch

theorem State.Canonical.sendOwn {ts} (h : s.Canonical) : (sendOwn ts s).Canonical := by
  unfold Machine.sendOwn
  extract_lets s1 s2
  have hs1 : s1.Canonical := .forEach h (fun _ _ hu => hu.enterVers)
  have hs2 : s2.Canonical := by
    unfold s2
    refine .forEach hs1 fun _ _ hu => ?_
    split
    · exact hu.holdPacket
    · exact hu
  exact hs2.placeOwn

theorem State.Canonical.originateFor {port keys rel pk} (h : s.Canonical) :
    (originateFor port keys rel pk s).Canonical :=
  h.enterVers.dispatch

theorem State.Canonical.originate {port pk} (h : s.Canonical) : (originate port pk s).Canonical := h.originateFor

theorem State.Canonical.flushQueue {k keep} (h : s.Canonical) : (flushQueue k keep s).Canonical := by
  unfold Machine.flushQueue
  extract_lets _ _ _ _ s2
  have hs2 : s2.Canonical := .forEach h.setQueue (fun _ _ hu => hu.flushCopy)
  exact .forEach hs2 (fun _ _ hu => .forEach hu.setXq (fun _ _ hv => hv.returnCredits.flushCopy))

theorem State.Canonical.flushPort {p} (h : s.Canonical) : (flushPort p s).Canonical :=
  .forEach h (fun _ _ hu => hu.flushQueue)

/-! ### Routes -/

theorem State.Canonical.routeAtSource {ig q r c} (h : s.Canonical) : (routeAtSource ig q r c s).2.Canonical := by
  unfold Machine.routeAtSource
  split
  · exact h
  · extract_lets
    refine .ite_snd ?_ h
    split
    · exact h
    · extract_lets s1
      have hs1 : s1.Canonical := h.onPdisc
      split
      · exact hs1
      · exact .ite_snd hs1.bump hs1

theorem State.Canonical.routeTo {h1 q ordered src r c} (h : s.Canonical) :
    (routeTo h1 q ordered src r c s).2.Canonical := by
  unfold Machine.routeTo
  refine .ite_snd h ?_
  refine .ite_snd h ?_
  split
  · exact h.routeAtSource
  · exact h

theorem State.Canonical.usableAt {p r c grew} (h : s.Canonical) : (usableAt p r c grew s).Canonical := by
  unfold Machine.usableAt
  extract_lets upd
  have hupd : ∀ k1 u, u.Canonical → (upd k1 u).Canonical := fun _ _ hu => .ite hu hu.hwRoute
  exact .ite h (.ite (hupd _ _ h) (.ite (hupd _ _ h) h))

theorem State.Canonical.usableChange {p grew} (h : s.Canonical) : (usableChange p grew s).Canonical := .ite h.usableAt h

theorem State.Canonical.enterRun (h : s.Canonical) : (enterRun s).Canonical :=
  .forEach (.forEach h (fun _ _ hu => hu.hwRoute)) (fun _ _ hu => .ite hu.usableChange hu)

/-! ### Streams -/

theorem State.Canonical.dropAdmission {f} (h : s.Canonical) : (dropAdmission f s).Canonical := by
  unfold Machine.dropAdmission
  refine .forEach h fun _ _ hu => ?_
  refine .ite ?_ ?_
  · extract_lets _ s1 s2
    have hs1 : s1.Canonical := hu.setWait
    have hs2 : s2.Canonical :=
      .forEach hs1 (fun _ _ hu => .releaseRejected (.forEach hu (fun _ _ hv => hv.returnCredits)))
    exact .forEach hs2 (fun _ _ hu => hu.discardCopy)
  · exact hu

theorem State.Canonical.dropWaiting {f} (h : s.Canonical) : (dropWaiting f s).Canonical := by
  unfold Machine.dropWaiting
  extract_lets s1
  have hs1 : s1.Canonical := h.dropAdmission
  exact .forEach hs1 (fun _ _ hu => .ite (.forEach hu.setXq (fun _ _ hv => hv.returnCredits.discardCopy)) hu)

theorem State.Canonical.dropQueued {f} (h : s.Canonical) : (dropQueued f s).Canonical :=
  .forEach h (fun _ _ hu => .ite hu (.forEach hu.setQueue (fun _ _ hv => hv.discardCopy)))

theorem State.Canonical.removeCopies {f} (h : s.Canonical) : (removeCopies f s).Canonical :=
  .dropQueued (.forEach h.dropWaiting (fun _ _ hu => .ite hu hu.with_core.dropReader))

theorem State.Canonical.purgeHeads {cs} (h : s.Canonical) : (purgeHeads cs s).Canonical := by
  unfold Machine.purgeHeads
  extract_lets s1
  have hs1 : s1.Canonical :=
    .forEach h (fun _ _ hu => .ite hu (.forEach hu.setXq (fun _ _ hv => hv.returnCredits.discardCopy)))
  exact .forEach hs1 (fun _ _ hu => .ite hu (.forEach hu.setQueue (fun _ _ hv => hv.discardCopy)))

theorem State.Canonical.purgeDue (h : s.Canonical) : (purgeDue s).Canonical := by
  unfold Machine.purgeDue
  split
  · exact .ite h.purgeHeads h
  · exact h

theorem State.Canonical.mapCopies {f} (h : s.Canonical) : (mapCopies f s).Canonical := h.of_mem rfl
theorem State.Canonical.mapRx {r g} (h : s.Canonical) : (mapRx r g s).Canonical := h.mapCopies
theorem State.Canonical.feedPayload {r} (h : s.Canonical) : (feedPayload r s).Canonical := h.mapRx

theorem State.Canonical.closeCells {rx cells} (h : s.Canonical) : (closeCells rx cells s).Canonical :=
  .forEach h (fun _ _ hu => .ite hu.setCell hu)

theorem State.Canonical.freeBytes {n} (h : s.Canonical) : (freeBytes n s).2.Canonical := by
  induction n generalizing s with
  | zero => exact h
  | succ n ih => exact ih (h.of_mem rfl)

theorem State.Canonical.abandonRx {r} (h : s.Canonical) : (abandonRx r s).Canonical := by
  unfold Machine.abandonRx
  refine .ite h ?_
  extract_lets s1
  have hs1 : s1.Canonical := by
    unfold s1
    split
    · exact .ite h.setOrt h
    · exact h
  exact hs1.closeCells.freeBytes.dropWaiting.dropQueued.removeHeld.mapRx

theorem State.Canonical.abandonLink {p} (h : s.Canonical) : (abandonLink p s).Canonical := by
  unfold Machine.abandonLink
  extract_lets _ s1
  have hs1 : s1.Canonical := by
    unfold s1
    split
    · exact h.abandonRx
    · exact h
  split
  · exact hs1.abandonRx
  · exact hs1

end Sys2Proof.Machine
end

section
/-! SUPPORT. Ports, links and discovery keep the memories canonical. -/

namespace Sys2Proof.Machine

variable {s : State}

/-! ### Port states -/

theorem State.Canonical.setPstate {p n} (h : s.Canonical) : (setPstate p n s).Canonical := h.setFld

theorem State.Canonical.sendEpAssign {p status} (h : s.Canonical) : (sendEpAssign p status s).Canonical :=
  .originate (.ite h.onPdisc h)

theorem State.Canonical.removeLearn {p} (h : s.Canonical) : (removeLearn p s).Canonical := h.onPdisc.wr.wr.wr

theorem State.Canonical.submitLearn {p serial} (h : s.Canonical) : (submitLearn p serial s).Canonical :=
  h.onPdisc.wr.wr.setPstate

theorem State.Canonical.quarantine {p bit cause} (h : s.Canonical) : (quarantine p bit cause s).Canonical :=
  .ite h (.ite h.setFlag.raise.setPstate.flushPort.usableChange h.setFlag.raise.setPstate.flushPort)

theorem State.Canonical.loseLearn {p holder} (h : s.Canonical) : (loseLearn p holder s).Canonical :=
  h.removeLearn.sendEpAssign.setFld.quarantine

theorem State.Canonical.commitLearn {p} (h : s.Canonical) : (commitLearn p s).Canonical := by
  unfold Machine.commitLearn
  split
  · exact h
  · extract_lets _ _ _ before
    cases before with
    | nil => exact .forEach h.onPdisc fun _ _ hu => hu.loseLearn
    | cons => exact h.loseLearn

theorem State.Canonical.portUp {p} (h : s.Canonical) : (portUp p s).Canonical :=
  .ite h (.ite (.ite h.setPstate h) (.ite h.setPstate.usableChange h))

theorem State.Canonical.portDown {p} (h : s.Canonical) : (portDown p s).Canonical := by
  unfold Machine.portDown
  extract_lets s1 s2 s3
  have hs1 : s1.Canonical := .ite h.removeLearn h
  have hs2 : s2.Canonical := .ite h (.ite hs1.setPstate h.setPstate)
  have hs3 : s3.Canonical := hs2.flushPort
  exact .ite hs3.usableChange hs3

theorem State.Canonical.portRestart {p} (h : s.Canonical) : (portRestart p s).Canonical :=
  .ite h (.ite (.flushPort (.setPstate (.ite h.removeLearn.sendEpAssign h.removeLearn))) h)

theorem State.Canonical.portRole {p} (h : s.Canonical) : (portRole p s).Canonical := .ite h.removeLearn.quarantine h

theorem State.Canonical.clearCauses {p v} (h : s.Canonical) : (clearCauses p v s).Canonical := by
  unfold Machine.clearCauses
  extract_lets _ s1
  have hs1 : s1.Canonical := .forEach h (fun _ _ hu => .ite hu.setFlag.endLive hu)
  exact .ite (.ite hs1.setPstate.usableChange hs1.setPstate) hs1

/-! ### Lanes of a port -/

theorem State.Canonical.setActive {p mask} (h : s.Canonical) : (setActive p mask s).Canonical := h.setFld
theorem State.Canonical.useEq {n e ovr} (h : s.Canonical) : (useEq n e ovr s).Canonical := h.setFld.setFlag.onLane
theorem State.Canonical.applyEq {n} (h : s.Canonical) : (applyEq n s).Canonical := h.useEq
theorem State.Canonical.endOverride {n} (h : s.Canonical) : (endOverride n s).Canonical := .ite h.useEq h
theorem State.Canonical.abortScan {n} (h : s.Canonical) : (abortScan n s).Canonical := .ite h.setFlag.setFld h
theorem State.Canonical.endFirst {p} (h : s.Canonical) : (endFirst p s).Canonical := .ite h h.onPln

theorem State.Canonical.toDetect {n} (h : s.Canonical) : (toDetect n s).Canonical := by
  unfold Machine.toDetect
  extract_lets _ _ _ _ s5
  have hs5 : s5.Canonical := h.abortScan.applyEq.setFld.setFlag.setFlag.onLane
  split
  · exact hs5.endFirst
  · exact hs5

theorem State.Canonical.laneEn {n} (h : s.Canonical) : (laneEn n s).Canonical := .ite h.emit.toDetect.onLane h

theorem State.Canonical.laneDis {n} (h : s.Canonical) : (laneDis n s).Canonical :=
  .onLane (.setFlag (.setFlag (.setFlag (.setFld (.ite h h.emit)))))

theorem State.Canonical.laneRt {n} (h : s.Canonical) : (laneRt n s).Canonical := .ite h h.toDetect

theorem State.Canonical.retrainPort {p} (h : s.Canonical) : (retrainPort p s).Canonical :=
  .onPln (.setActive (.forEach h (fun _ _ hu => hu.laneRt)))

theorem State.Canonical.sendFrame {n ftype syncCnt join} (h : s.Canonical) :
    (sendFrame n ftype syncCnt join s).Canonical :=
  h.emit

theorem State.Canonical.sendSync {n join k} (h : s.Canonical) : (sendSync n join k s).Canonical := by
  induction k generalizing s with
  | zero => exact h.sendFrame
  | succ k ih => exact ih h.sendFrame

theorem State.Canonical.joinDone {p} (h : s.Canonical) : (joinDone p s).Canonical := .ite h.onPln.setActive h

theorem State.Canonical.trySync0 {p n} (h : s.Canonical) : (trySync0 p n s).Canonical :=
  .ite h.setFld.setFlag.setFlag.onLane.joinDone h

theorem State.Canonical.joinLane {p n mask} (h : s.Canonical) : (joinLane p n mask s).Canonical :=
  .ite h.abortScan.sendSync.setFld.onLane.trySync0 h

theorem State.Canonical.leaveLane {n kind} (h : s.Canonical) : (leaveLane n kind s).Canonical :=
  .ite (.toDetect (.ite h.setFld.setFlag.onLane h)) (.ite h.setFld.setFlag.onLane h)

theorem State.Canonical.finishChange {p} (h : s.Canonical) : (finishChange p s).Canonical := by
  unfold Machine.finishChange
  split
  · exact .ite (.onPln (.forEach h (fun _ _ hu => hu.leaveLane))) h
  · exact h

theorem State.Canonical.txChange {p} (h : s.Canonical) : (txChange p s).Canonical := by
  unfold Machine.txChange
  split
  · extract_lets _ _ s2 _ _ _ s5
    have hs2 : s2.Canonical := .forEach h.onPln (fun _ _ hu => .ite hu.sendFrame (.ite hu.joinLane hu))
    have hs5 : s5.Canonical := .forEach hs2.onLnk.setActive.bump (fun _ _ hu => hu.onLane.raise)
    exact hs5.onPln.finishChange
  · exact h

theorem State.Canonical.eiExit {p} (h : s.Canonical) : (eiExit p s).Canonical :=
  .ite (.forEach h.setFlag.onPln (fun _ _ hu => hu.emit.sendFrame.sendFrame.sendSync)) h

theorem State.Canonical.dealGroup {p units} (h : s.Canonical) : (dealGroup p units s).Canonical := by
  unfold Machine.dealGroup
  extract_lets s1
  have hs1 : s1.Canonical := by
    unfold s1
    split
    · exact h.emit.onLane
    · exact h
  exact hs1.onLnk

/-! ### The link -/

theorem State.Canonical.setLl {p n} (h : s.Canonical) : (setLl p n s).Canonical := h.setFld
theorem State.Canonical.showLink {p} (h : s.Canonical) : (showLink p s).Canonical := h.setFld.setFlag
theorem State.Canonical.sendLcu {p u} (h : s.Canonical) : (sendLcu p u s).Canonical := h.eiExit.emit.onLnk.dealGroup

theorem State.Canonical.sendCounted {p seq units} (h : s.Canonical) : (sendCounted p seq units s).Canonical :=
  h.eiExit.emit.onLnk.dealGroup

theorem State.Canonical.sendDue {p} (h : s.Canonical) : (sendDue p s).Canonical := .ite h.sendLcu h

theorem State.Canonical.enterInit {p pseen} (h : s.Canonical) : (enterInit p pseen s).Canonical :=
  h.onLnk.setLl.showLink.sendLcu

theorem State.Canonical.dropTx {t'} (h : s.Canonical) : (dropTx t' s).Canonical := by
  unfold Machine.dropTx
  split
  · exact .leaveVers (.forEach h (fun _ _ hu => hu.readDone))
  · exact h

theorem State.Canonical.clearLink {p} (h : s.Canonical) : (clearLink p s).Canonical :=
  h.abandonLink.dropTx.dropTx.onLnk.showLink

theorem State.Canonical.linkLoss {p} (h : s.Canonical) : (linkLoss p s).Canonical :=
  .ite h.setLl (.ite h.clearLink.raise.setLl.portDown h)

theorem State.Canonical.enterUp {p} (h : s.Canonical) : (enterUp p s).Canonical := h.setLl.sendLcu.endLive.portUp
theorem State.Canonical.takeLimits {p u} (h : s.Canonical) : (takeLimits p u s).Canonical := h.onLnk

theorem State.Canonical.endStarve {p q} (h : s.Canonical) : (endStarve p q s).Canonical := by
  unfold Machine.endStarve
  split
  · exact .ite h.onQsch h
  · exact h

theorem State.Canonical.adoptLimits {p u} (h : s.Canonical) : (adoptLimits p u s).Canonical :=
  .forEach h.onLnk (fun _ _ hu => hu.endStarve)

theorem State.Canonical.takeAck {p ack} (h : s.Canonical) : (takeAck p ack s).Canonical := by
  unfold Machine.takeAck
  extract_lets
  split
  · exact h
  · exact .ite h.onLnk.showLink h

theorem State.Canonical.linkFail {p} (h : s.Canonical) : (linkFail p s).Canonical :=
  h.clearLink.raise.setLl.portDown.retrainPort

theorem State.Canonical.replayFrom {p from_} (h : s.Canonical) : (replayFrom p from_ s).Canonical := by
  unfold Machine.replayFrom
  extract_lets _ _ _ _ s3 s4
  have hs3 : s3.Canonical := .forEach h.bump.sendLcu (fun _ _ hu => hu.sendCounted)
  have hs4 : s4.Canonical := hs3.onLnk
  exact .ite hs4.linkFail hs4

theorem State.Canonical.badGroup {p} (h : s.Canonical) : (badGroup p s).Canonical :=
  .ite (.ite h.bump h.bump.onLnk.sendLcu) h

theorem State.Canonical.takeReplay {p tx} (h : s.Canonical) : (takeReplay p tx s).Canonical :=
  .ite h.onLnk (.ite h.linkFail h.onLnk)

theorem State.Canonical.applyLcu {p u} (h : s.Canonical) : (applyLcu p u s).Canonical := by
  unfold Machine.applyLcu
  extract_lets s1 s2 s3
  have hs1 : s1.Canonical := h.adoptLimits
  have hs2 : s2.Canonical := .ite hs1.takeAck hs1
  have hs3 : s3.Canonical := .ite hs2.replayFrom hs2
  exact .ite hs3.takeReplay hs3

theorem State.Canonical.lcuZero {p u} (h : s.Canonical) : (lcuZero p u s).Canonical :=
  .ite h.takeLimits.onLnk.enterUp (.ite h.applyLcu h)

theorem State.Canonical.lcuOne {p u} (h : s.Canonical) : (lcuOne p u s).Canonical := by
  unfold Machine.lcuOne
  refine .ite (.ite h.takeLimits.enterUp h.takeLimits.onLnk.sendLcu) ?_
  exact .ite h.clearLink.raise.setLl.portDown.enterInit h

theorem State.Canonical.protoError {p} (h : s.Canonical) : (protoError p s).Canonical :=
  h.abandonLink.onLnk.bump.raise.showLink

theorem State.Canonical.rxUnit {p u} (h : s.Canonical) : (rxUnit p u s).2.Canonical := by
  unfold Machine.rxUnit
  extract_lets _ push
  have hpush : ∀ r1 u1, u1.Canonical → (push r1 u1).2.Canonical := fun _ _ hu => .ite_snd hu.onLnk hu.onLnk
  refine .ite_snd ?_ ?_
  · split
    · exact .ite_snd h.protoError (hpush _ _ h.onLnk)
    · exact .ite_snd (.showLink (hpush _ _ h.onLnk)) h.protoError
    · exact h.protoError
  · refine .ite_snd ?_ h
    split
    · exact hpush _ _ h
    · exact .showLink (hpush _ _ h.onLnk)
    · exact .ite_snd h h.protoError

theorem State.Canonical.rxLcu {p b} (h : s.Canonical) : (rxLcu p b s).Canonical := by
  unfold Machine.rxLcu
  split
  · exact h.bump
  · exact .ite h.bump (.ite h.lcuOne h.lcuZero)

theorem State.Canonical.lock {p} (h : s.Canonical) : (lock p s).Canonical := .ite h.enterInit h

theorem State.Canonical.rtmo {p} (h : s.Canonical) : (rtmo p s).Canonical := by
  unfold Machine.rtmo
  extract_lets
  split
  · exact .ite h.replayFrom h
  · exact h

theorem State.Canonical.rlim {p} (h : s.Canonical) : (rlim p s).Canonical := .ite h.linkFail h
theorem State.Canonical.itmo {p} (h : s.Canonical) : (itmo p s).Canonical := .ite h.raise.setLl.retrainPort h
theorem State.Canonical.lcuSend {p} (h : s.Canonical) : (lcuSend p s).Canonical := .ite h h.sendLcu

/-! ### Discovery and learning -/

theorem State.Canonical.setDisc {n} (h : s.Canonical) : (setDisc n s).Canonical :=
  .ite (.ite h.setFld.beginLive h.setFld.endLive) (.raiseInt (.ite h.setFld.beginLive h.setFld.endLive))

theorem State.Canonical.setRoot {v} (h : s.Canonical) : (setRoot v s).Canonical := h.wr.wr.setFlag
theorem State.Canonical.showNbrs (h : s.Canonical) : (showNbrs s).Canonical := h.setFld

theorem State.Canonical.setTimeLocked {b} (h : s.Canonical) : (setTimeLocked b s).Canonical :=
  .ite h (.ite h.setFlag h.setFlag.bump.with_sched)

theorem State.Canonical.placeTime (h : s.Canonical) : (placeTime s).Canonical :=
  .ite h.setFlag.setTimeLocked (.ite h.setFlag h.setFlag.setTimeLocked)

theorem State.Canonical.takePlace {row col rowsM1 colsM1} (h : s.Canonical) :
    (takePlace row col rowsM1 colsM1 s).Canonical :=
  h.setFld.setFld.setFld.setFld.setFlag.setDisc.enterRun.placeTime

theorem State.Canonical.sendHellos (h : s.Canonical) : (sendHellos s).Canonical :=
  .forEach h (fun _ _ hu => .ite hu.originate hu)

theorem State.Canonical.helloSend (h : s.Canonical) : (helloSend s).Canonical := .ite h h.with_disc.sendHellos

theorem State.Canonical.discEnable (h : s.Canonical) : (discEnable s).Canonical := by
  unfold Machine.discEnable
  extract_lets _ s1 _ _ s3
  have hs1 : s1.Canonical := h.with_disc
  have hs3 : s3.Canonical := hs1.with_disc.setRoot
  exact .ite (.ite hs3.takePlace hs3.setDisc.raise) hs1.with_disc.setRoot.setDisc.sendHellos

theorem State.Canonical.discStart (h : s.Canonical) : (discStart s).Canonical := .ite h.discEnable h

theorem State.Canonical.clearDiscovery (h : s.Canonical) : (clearDiscovery s).Canonical := by
  unfold Machine.clearDiscovery
  extract_lets _ _ _ _ _ s6 s7 s8
  have hs6 : s6.Canonical := h.setFlag.setFld.setFld.setFld.setFld.setFlag
  have hs7 : s7.Canonical := .forEach hs6 (fun _ _ hu => .ite (.ite hu hu.hwRoute) (.hwRoute (.ite hu hu.hwRoute)))
  have hs8 : s8.Canonical := .forEach hs7 (fun _ _ hu => hu.hwRoute)
  exact .placeTime (.forEach hs8 (fun _ _ hu => hu.portRestart))

theorem State.Canonical.discRestart (h : s.Canonical) : (discRestart s).Canonical := .ite h h.clearDiscovery.discEnable

theorem State.Canonical.lowerRoot {v} (h : s.Canonical) : (lowerRoot v s).Canonical :=
  .ite (.ite h.with_disc.setRoot.setDisc h) (.ite h.setRoot h)

theorem State.Canonical.checkExcess {v} (h : s.Canonical) : (checkExcess v s).Canonical :=
  .forEach h (fun _ _ hu => hu.quarantine)

theorem State.Canonical.recordPeer {p c} (h : s.Canonical) : (recordPeer p c s).Canonical := h.wr.wr.onPdisc.setFld.wr

theorem State.Canonical.fabricHello {p c} (h : s.Canonical) : (fabricHello p c s).Canonical := by
  unfold Machine.fabricHello
  extract_lets s1 _ _ s2 s3 _ _ s4 s5 s6 s7
  have hs1 : s1.Canonical := h.lowerRoot
  have hs2 : s2.Canonical := hs1.recordPeer
  have hs3 : s3.Canonical := .ite hs2.setPstate hs2
  have hs4 : s4.Canonical := .ite hs3.usableAt hs3
  have hs5 : s5.Canonical := hs4.checkExcess
  have hs6 : s6.Canonical := .ite hs5.quarantine hs5
  have hs7 : s7.Canonical := .ite hs6.usableChange hs6
  exact .ite hs1.quarantine hs7.showNbrs

theorem State.Canonical.hello {p c} (h : s.Canonical) : (hello p c s).Canonical :=
  .ite h.portRole (.ite h.fabricHello h)

theorem State.Canonical.sendAssign {port target row col rowsM1 colsM1 relay root} (h : s.Canonical) :
    (sendAssign port target row col rowsM1 colsM1 relay root s).Canonical :=
  h.originate

theorem State.Canonical.placement (h : s.Canonical) : (placement s).Canonical := by
  unfold Machine.placement
  split
  · exact h.takePlace
  · extract_lets
    refine .ite h.raise.setDisc ?_
    refine .forEach h.takePlace fun _ _ hu => ?_
    refine .ite ?_ ?_
    · split
      · exact hu.sendAssign
      · exact hu
    · split
      · exact hu.sendAssign
      · exact hu

theorem State.Canonical.nbrCheck (h : s.Canonical) : (nbrCheck s).Canonical := .ite h.placement h

theorem State.Canonical.sendNbr (h : s.Canonical) : (sendNbr s).Canonical := by
  unfold Machine.sendNbr
  split
  · exact h
  · exact .forEach h (fun _ _ hu => hu.originate)

theorem State.Canonical.quiet (h : s.Canonical) : (quiet s).Canonical := by
  unfold Machine.quiet
  split
  · exact .ite (.ite h.with_disc.setDisc.nbrCheck h.with_disc.sendNbr.setDisc) h
  · exact h

theorem State.Canonical.takeNbr {p c} (h : s.Canonical) : (takeNbr p c s).Canonical := .ite h h.with_disc.nbrCheck

theorem State.Canonical.takeAssign {p c} (h : s.Canonical) : (takeAssign p c s).Canonical := by
  unfold Machine.takeAssign
  refine .ite h ?_
  extract_lets
  refine .ite ?_ (.ite h.takePlace h)
  split
  · exact h.sendAssign
  · exact h

theorem State.Canonical.atmo (h : s.Canonical) : (atmo s).Canonical := by
  unfold Machine.atmo
  split
  · refine .ite ?_ h
    extract_lets _ s'
    have hs' : s'.Canonical := h.with_disc
    refine .ite hs'.placement ?_
    refine .ite ?_ h
    split
    · exact hs'.takePlace
    · exact hs'.setDisc.raise
  · exact h

theorem State.Canonical.epHello {p c} (h : s.Canonical) : (epHello p c s).Canonical := by
  unfold Machine.epHello
  extract_lets _ _ _ s1
  have hs1 : s1.Canonical := h.onPdisc
  refine .ite h.quarantine ?_
  refine .ite h ?_
  refine .ite (.ite hs1.submitLearn hs1.sendEpAssign) ?_
  exact .ite h.sendEpAssign (.ite (.ite h.sendEpAssign hs1.removeLearn.submitLearn.flushPort) h)

theorem State.Canonical.learnCommit {d} (h : s.Canonical) : (learnCommit d s).Canonical := by
  unfold Machine.learnCommit
  split
  · exact h.commitLearn
  · exact h

theorem State.Canonical.win {p} (h : s.Canonical) : (win p s).Canonical := by
  unfold Machine.win
  split
  · split
    · exact .ite h.setPstate.wr.sendEpAssign h
    · exact h
  · exact h

theorem State.Canonical.epAck {p c} (h : s.Canonical) : (epAck p c s).Canonical := .ite h.setPstate h
theorem State.Canonical.writtenVersion {k} (h : s.Canonical) : (writtenVersion k s).Canonical := h.onRver.newVersion

theorem State.Canonical.routeWrite32 {off v} (h : s.Canonical) : (routeWrite32 off v s).Canonical := by
  unfold Machine.routeWrite32
  split
  · exact h
  · exact .ite (.ite h.storeReg.onRver h.storeReg.storeReg.writtenVersion) h.storeReg.writtenVersion

theorem State.Canonical.routeWrite {off size v} (h : s.Canonical) : (routeWrite off size v s).Canonical := by
  unfold Machine.routeWrite
  refine .ite ?_ (.ite h.routeWrite32 h.emit)
  split
  · exact .ite h.storeReg.storeReg.writtenVersion h.routeWrite32.routeWrite32
  · exact h

theorem State.Canonical.versionRetire {off} (h : s.Canonical) : (versionRetire off s).Canonical := by
  unfold Machine.versionRetire
  extract_lets _ pend s1
  have hs1 : s1.Canonical := h.onRver
  split
  · cases pend with
    | none => exact hs1.showSettled
    | some => exact hs1.newVersion
  · exact h

end Sys2Proof.Machine
end

section
/-! SUPPORT. Egress and sending keep the memories canonical. -/

namespace Sys2Proof.Machine

variable {s : State}

/-! ### Egress -/

theorem State.Canonical.stampTime {pk} (h : s.Canonical) : (stampTime pk s).2.Canonical := by
  unfold Machine.stampTime
  split
  · exact .ite_snd (.ite_snd h.with_time (.ite_snd h h)) h
  · exact h

theorem State.Canonical.flushGroup {p} (h : s.Canonical) : (flushGroup p s).Canonical := h.sendCounted.onLnk.showLink
theorem State.Canonical.sendGroup {p} (h : s.Canonical) : (sendGroup p s).Canonical := h.flushGroup.sendDue
theorem State.Canonical.pushUnit {p u} (h : s.Canonical) : (pushUnit p u s).Canonical := .ite h.onLnk.sendGroup h.onLnk

theorem State.Canonical.padSlots {p} (h : s.Canonical) : (padSlots p s).Canonical :=
  .forEach (.ite h h.flushGroup) (fun _ _ hu => hu.sendLcu)

theorem State.Canonical.takeHead {p q c rest} (h : s.Canonical) : (takeHead p q c rest s).Canonical :=
  .forEach h.setQueue.pushDescOf (fun _ _ hu => hu.mirrorOne)

theorem State.Canonical.debitQueue {p q pk} (h : s.Canonical) : (debitQueue p q pk s).Canonical :=
  .ite (.ite h.onQsch.placeCal h.onQsch) h

theorem State.Canonical.endQuiet {p pk} (h : s.Canonical) : (endQuiet p pk s).Canonical := .ite h h.onPln

theorem State.Canonical.grant {p q ptr} (h : s.Canonical) : (grant p q ptr s).Canonical := by
  unfold Machine.grant
  extract_lets
  split
  · exact h
  · extract_lets x _ s4 x1 _ s5 s6
    have hx : x.2.Canonical := h.onPsch.onQsch.readCell
    have hs4 : s4.Canonical := hx.onLnk.debitQueue.endQuiet
    have hx1 : x1.2.Canonical := .ite_snd hs4 hs4.stampTime
    have hs5 : s5.Canonical := hx1.takeHead
    have hs6 : s6.Canonical := .ite hs5.padSlots hs5
    exact .ite hx.setQueue.discardCopy hs6.onLnk

theorem State.Canonical.endPacket {p c} (h : s.Canonical) : (endPacket p c s).Canonical := by
  unfold Machine.endPacket
  extract_lets _ s2
  have hs2 : s2.Canonical := h.emit.leaveVers.onLnk
  exact .ite (.sendDue (.txChange (.ite hs2 hs2.flushGroup))) hs2

theorem State.Canonical.enterCell {t'} (h : s.Canonical) : (enterCell t' s).2.Canonical := .ite_snd h.readCell h

theorem State.Canonical.sendUnit {p} (h : s.Canonical) : (sendUnit p s).Canonical := by
  unfold Machine.sendUnit
  split
  · exact h
  · refine .ite h.pushUnit ?_
    extract_lets _ _ _ _ _ _ _ s2 s3
    have hs2 : s2.Canonical := h.enterCell.onQsch.pushUnit
    have hs3 : s3.Canonical := .ite hs2.readDone hs2
    exact .ite hs3.endPacket hs3.onLnk

theorem State.Canonical.markStarved {p} (h : s.Canonical) : (markStarved p s).Canonical := by
  unfold Machine.markStarved
  refine .forEach h fun _ _ hu => ?_
  split
  · exact .ite hu.onQsch hu.onQsch
  · exact hu

theorem State.Canonical.idleBoundary {p} (h : s.Canonical) : (idleBoundary p s).Canonical :=
  .ite h.sendGroup (.ite h h.sendLcu)

theorem State.Canonical.nextUnit {p} (h : s.Canonical) : (nextUnit p s).Canonical := by
  unfold Machine.nextUnit
  split
  · refine .ite ?_ h.sendUnit
    split
    · exact h.onLnk.bump.grant.sendUnit
    · exact h.sendUnit
  · extract_lets resume
    have hresume : ∀ u, u.Canonical → (resume u).Canonical := fun _ hu => hu.onLnk.sendUnit
    refine .ite ?_ (hresume _ h)
    split
    · exact h.onLnk.grant.sendUnit
    · exact hresume _ h
  · split
    · exact h.grant.sendUnit
    · exact h.idleBoundary

theorem State.Canonical.egressBoundary {p} (h : s.Canonical) : (egressBoundary p s).Canonical :=
  .ite h.markStarved (.ite h.markStarved.nextUnit h.markStarved.idleBoundary)

theorem State.Canonical.tryCut {p q} (h : s.Canonical) : (tryCut p q s).Canonical := by
  unfold Machine.tryCut
  split
  · exact .ite h.setEq h
  · exact h

theorem State.Canonical.ageTick (h : s.Canonical) : (ageTick s).Canonical :=
  .ite h (.with_sched (.forEach h (fun _ _ hu => .ite hu.onQsch hu)))

theorem State.Canonical.promote {p q} (h : s.Canonical) : (promote p q s).Canonical := .ite h.onQsch.bump h

theorem State.Canonical.recheckShaper {k} (h : s.Canonical) : (recheckShaper k s).Canonical :=
  .ite h.onQsch.placeCal h.onQsch

theorem State.Canonical.fineSlot {d} (h : s.Canonical) : (fineSlot d s).Canonical :=
  .ite h (.forEach h.with_sched (fun _ _ hu => hu.recheckShaper))

theorem State.Canonical.coarseSlot {d} (h : s.Canonical) : (coarseSlot d s).Canonical := by
  unfold Machine.coarseSlot
  refine .ite h ?_
  extract_lets
  refine .forEach h.with_sched fun _ _ hu => ?_
  split
  · exact .ite hu.placeCal hu.recheckShaper
  · exact hu

theorem State.Canonical.sample (h : s.Canonical) : (sample s).Canonical :=
  .ite h (.forEach h.with_sched (fun _ _ hu => .forEach hu (fun _ _ hv => hv.bump.bump)))

theorem State.Canonical.shedOpen {p i} (h : s.Canonical) : (shedOpen p i s).Canonical := .ite h.onPsch h

theorem State.Canonical.endShed {p} (h : s.Canonical) : (endShed p s).Canonical := by
  unfold Machine.endShed
  refine .ite ?_ h
  extract_lets s1
  have hs1 : s1.Canonical := by
    unfold s1
    split
    · exact h.setFlag
    · exact h
  exact hs1.onPsch

theorem State.Canonical.shedClose {p} (h : s.Canonical) : (shedClose p s).Canonical := by
  unfold Machine.shedClose
  split
  · exact .ite h h.endShed
  · exact h

theorem State.Canonical.writeSheds {p l} (h : s.Canonical) : (writeSheds p l s).Canonical :=
  .setFld (.forEach h (fun _ _ hu => hu.wr.wr))

theorem State.Canonical.treadlingHandover {p} (h : s.Canonical) : (treadlingHandover p s).Canonical := by
  unfold Machine.treadlingHandover
  split
  · exact .ite h h.endShed.writeSheds.onPsch
  · exact h

theorem State.Canonical.schLate {p} (h : s.Canonical) : (schLate p s).Canonical := .ite h.onQsch.bump h

theorem State.Canonical.holFlush {p q} (h : s.Canonical) : (holFlush p q s).Canonical := by
  unfold Machine.holFlush
  extract_lets
  refine .ite ?_ h
  split
  · exact .ite h.flushQueue h
  · exact h

theorem State.Canonical.setXfers {d e l} (h : s.Canonical) : (setXfers d e l s).Canonical := h.with_core

theorem State.Canonical.acceptXfer {d e eq acct} (h : s.Canonical) : (acceptXfer d e eq acct s).Canonical := by
  unfold Machine.acceptXfer
  split
  · exact h
  · extract_lets s1
    have hs1 : s1.Canonical := h.setXq
    refine .ite hs1.returnCredits.flushCopy ?_
    split
    · rename_i s2 e2
      have hs2 : s2.Canonical := hs1.describe e2
      split
      · rename_i s11 e3
        have hs11 : s11.Canonical := hs2.popCells e3
        exact hs11.with_core.pushDescOf.linkCells.charge.showFree.debitCtx.returnCredits.setXfers.with_core.enqueue
      · exact hs2.allocFail.pushDescOf.returnCredits.discardCopy
    · exact hs1.allocFail.returnCredits.discardCopy

theorem State.Canonical.acceptList {d e turn l} (h : s.Canonical) : (acceptList d e turn l s).Canonical :=
  .forEach h (fun _ _ hu => .ite hu.acceptXfer.with_core hu.acceptXfer)

theorem State.Canonical.acceptStage {gs d e} (h : s.Canonical) : (acceptStage gs d e s).Canonical :=
  h.acceptList.acceptList

theorem State.Canonical.endXfer {t'} (h : s.Canonical) : (endXfer t' s).Canonical := by
  unfold Machine.endXfer
  split
  · exact .ite h.setQueue.discardCopy (.ite h.setQueue.flushCopy h)
  · exact h

theorem State.Canonical.moveCell {d e} (h : s.Canonical) : (moveCell d e s).Canonical := by
  unfold Machine.moveCell
  extract_lets
  split
  · exact h
  · split
    · extract_lets _ s1 s2 s3 s4
      have hs1 : s1.Canonical := h.readCell.closeCells
      have hs2 : s2.Canonical := .ite hs1.mapCopies hs1
      have hs3 : s3.Canonical := hs2.readDone
      have hs4 : s4.Canonical := .ite hs3.tryCut hs3
      exact .ite hs4.setXfers.endXfer hs4.setXfers
    · exact h.setXfers.endXfer

theorem State.Canonical.moveCells {d e n} (h : s.Canonical) : (moveCells d e n s).Canonical := by
  induction n generalizing s with
  | zero => exact h
  | succ n ih => exact ih h.moveCell

theorem State.Canonical.slotMove {d e} (h : s.Canonical) : (slotMove d e s).Canonical := h.with_core.moveCells

theorem State.Canonical.dropUnadmitted {e} (h : s.Canonical) : (dropUnadmitted e s).Canonical := by
  unfold Machine.dropUnadmitted
  refine .forEach h fun _ _ hu => ?_
  split
  · exact hu.setXq.discardUnadmitted
  · exact hu

theorem State.Canonical.pushForCrossing {e} (h : s.Canonical) : (pushForCrossing e s).Canonical := .ite h.pushOut h

theorem State.Canonical.countCrossing (h : s.Canonical) : (countCrossing s).Canonical := by
  unfold Machine.countCrossing
  refine .forEach h fun _ _ hu => ?_
  split
  · exact .ite hu.countHeld.setXq hu
  · exact hu

theorem State.Canonical.crossbarSlot (h : s.Canonical) : (crossbarSlot s).Canonical := by
  unfold Machine.crossbarSlot
  extract_lets _ s2 s3
  have hs2 : s2.Canonical := .forEach h.countCrossing (fun _ _ hu => hu.dropUnadmitted.pushForCrossing)
  have hs3 : s3.Canonical := .forEach hs2 (fun _ _ hu => .forEach hu (fun _ _ hv => hv.acceptStage))
  exact .forEach hs3 (fun _ _ hu => .forEach hu (fun _ _ hv => hv.slotMove))

/-! ### Sending -/

theorem State.Canonical.farTarget {ig ordered src pk h1 r c} (h : s.Canonical) :
    (farTarget ig ordered src pk h1 r c s).2.Canonical := by
  unfold Machine.farTarget
  split
  · rename_i s1 e
    exact h.routeTo.of_snd e
  · rename_i e
    exact h.routeTo.of_snd e

theorem State.Canonical.sendToward {ordered pk h1 r c} (h : s.Canonical) :
    (sendToward ordered pk h1 r c s).Canonical := by
  unfold Machine.sendToward
  split
  · rename_i s1 e
    exact (h.farTarget.of_snd e).bump
  · rename_i e
    exact (h.farTarget.of_snd e).sendOwn

theorem State.Canonical.sendFar {p} (h : s.Canonical) : (sendFar p s).Canonical := h.sendToward
theorem State.Canonical.lateCpl {e p} (h : s.Canonical) : (lateCpl e p s).Canonical := h.bump

theorem State.Canonical.matchCpl {p} (h : s.Canonical) : (matchCpl p s).2.Canonical := by
  unfold Machine.matchCpl
  split
  · exact h.bump
  · exact .ite_snd h.setOrt h.lateCpl

theorem State.Canonical.sendLocal {k port pk} (h : s.Canonical) : (sendLocal k port pk s).Canonical := h.sendOwn

theorem State.Canonical.sendCpl {p} (h : s.Canonical) : (sendCpl p s).Canonical := by
  unfold Machine.sendCpl
  refine .ite ?_ h.sendFar
  refine .ite h.with_fab ?_
  split
  · rename_i s1 e
    exact (h.matchCpl.of_snd e).sendLocal
  · rename_i e
    exact h.matchCpl.of_snd e

theorem State.Canonical.sendReq {p} (h : s.Canonical) : (sendReq p s).Canonical := by
  unfold Machine.sendReq
  refine .ite ?_ h.sendFar
  refine .ite h.with_fab ?_
  split
  · exact h.sendLocal
  · exact h.bump

theorem State.Canonical.sendNacks (h : s.Canonical) : (sendNacks s).Canonical :=
  .forEach h.with_core (fun _ _ hu => hu.sendCpl)

theorem State.Canonical.rejectCpl {port p st cells} (h : s.Canonical) : (rejectCpl port p st cells s).Canonical :=
  h.originateFor

theorem State.Canonical.endEntry {i st} (h : s.Canonical) : (endEntry i st s).Canonical := h.setOrt.originate
theorem State.Canonical.ortTimeout {i} (h : s.Canonical) : (ortTimeout i s).Canonical := .ite h.bump.endEntry h

theorem State.Canonical.quarantineDone {i} (h : s.Canonical) : (quarantineDone i s).Canonical := by
  unfold Machine.quarantineDone
  extract_lets
  split
  · exact .ite h.setOrt h
  · exact h

theorem State.Canonical.staleDone {i g} (h : s.Canonical) : (staleDone i g s).Canonical := h.setOrt

theorem State.Canonical.waitDiscard {port q i} (h : s.Canonical) : (waitDiscard port q i s).Canonical := by
  unfold Machine.waitDiscard
  split
  · exact .ite h.bump.nackFor.dropWaiting.dropQueued.removeHeld h
  · exact h

theorem State.Canonical.goOn {h1} (h : s.Canonical) : (goOn h1 s).Canonical := by
  unfold Machine.goOn
  split
  · exact h.placeCopies
  · exact h.placeOwn

theorem State.Canonical.releaseHeld {k} (h : s.Canonical) : (releaseHeld k s).Canonical :=
  .ite h (.showSettled (.forEach h.with_rte.onRver (fun _ _ hu => hu.goOn)))

end Sys2Proof.Machine
end

section
/-! SUPPORT. Shuttles and the switch window keep the memories canonical. -/

namespace Sys2Proof.Machine

variable {s : State}

/-! ### Shuttles -/

theorem State.Canonical.setShtP {p n} (h : s.Canonical) : (setShtP p n s).Canonical := h.setFld
theorem State.Canonical.setRole {p n} (h : s.Canonical) : (setRole p n s).Canonical := h.setFld

theorem State.Canonical.readSheets {a n} (h : s.Canonical) : (readSheets a n s).2.Canonical :=
  .ite_snd (.raise (.forEach h (fun _ _ hu => hu.bump.raise))) (.forEach h (fun _ _ hu => hu.bump.raise))

theorem State.Canonical.clearWords {a n} (h : s.Canonical) : (clearWords a n s).Canonical := h.with_ecc

theorem State.Canonical.readEdges {a n} (h : s.Canonical) : (readEdges a n s).2.Canonical :=
  .foldl_snd h fun _ _ hx => hx.readSheets

theorem State.Canonical.zeroRange {a b} (h : s.Canonical) : (zeroRange a b s).Canonical := zeroRange_wf a b s h

theorem State.Canonical.copySheets {p i q j n} (h : s.Canonical) : (copySheets p i q j n s).Canonical :=
  .forEach (.forEach h.zeroRange (fun _ _ hu => hu.setSheetByte)) (fun _ _ hu => hu.setWordErr)

theorem State.Canonical.wakeSht {p} (h : s.Canonical) : (wakeSht p s).Canonical :=
  .ite h (.ite h.onSht.setShtP.bump (.ite h.onSht.setShtP.bump h.onSht))

theorem State.Canonical.startDescs {p} (h : s.Canonical) : (startDescs p s).Canonical := .ite h.onSht h

theorem State.Canonical.takeCredits {p} (h : s.Canonical) : (takeCredits p s).Canonical := by
  unfold Machine.takeCredits
  extract_lets
  refine .forEach h.onSht fun _ _ hu => ?_
  split
  · exact .ite hu.giveCredits hu
  · exact hu

theorem State.Canonical.pushDesc {p d} (h : s.Canonical) : (pushDesc p d s).Canonical :=
  h.onSht.wakeSht.takeCredits.startDescs.setFld

theorem State.Canonical.dropDesc {p i} (h : s.Canonical) : (dropDesc p i s).Canonical :=
  h.onSht.takeCredits.startDescs.setFld

theorem State.Canonical.softDone {p st} (h : s.Canonical) : (softDone p st s).Canonical := h.setFld.setFld
theorem State.Canonical.pushSoft {p} (h : s.Canonical) : (pushSoft p s).Canonical := .ite h.setFld h.pushDesc
theorem State.Canonical.unloadSht {p} (h : s.Canonical) : (unloadSht p s).Canonical := h.setFlag.setFld
theorem State.Canonical.setShare {L c v} (h : s.Canonical) : (setShare L c v s).Canonical := h.with_grp

theorem State.Canonical.takeSheets {L c n x} (h : s.Canonical) (e : takeSheets L c n s = some x) : x.2.Canonical := by
  unfold Machine.takeSheets at e
  extract_lets at e
  split at e
  · cases e
    exact h.setShare
  · cases e

theorem State.Canonical.returnSheets {L c l} (h : s.Canonical) : (returnSheets L c l s).Canonical := .ite h h.setShare
theorem State.Canonical.homeRebuild (h : s.Canonical) : (homeRebuild s).Canonical := .ite h.with_grp h
theorem State.Canonical.setWeight {L w} (h : s.Canonical) : (setWeight L w s).Canonical := .ite h h.setFld.with_grp

theorem State.Canonical.refreshWeight {L} (h : s.Canonical) : (refreshWeight L s).Canonical :=
  .ite h.setWeight (.ite h.setWeight h)

theorem State.Canonical.refreshWeights (h : s.Canonical) : (refreshWeights s).Canonical :=
  .forEach (.ite h.with_shts h) (fun _ _ hu => hu.refreshWeight)

theorem State.Canonical.powerUpPlace {d} (h : s.Canonical) : (powerUpPlace d s).Canonical := by
  unfold Machine.powerUpPlace
  refine .ite ?_ h
  split
  · exact h.onSht
  · exact h

theorem State.Canonical.parkSht {p} (h : s.Canonical) : (parkSht p s).Canonical := .ite h.onSht.setShtP h
theorem State.Canonical.offSht {p} (h : s.Canonical) : (offSht p s).Canonical := .ite h.setShtP h

theorem State.Canonical.fillSht {p} (h : s.Canonical) : (fillSht p s).Canonical := by
  unfold Machine.fillSht
  split
  · exact h
  · exact .dropDesc (.softDone (.ite h.zeroRange (.writeBytes h.clearWords (fun _ _ _ hu => hu.setSheetByte))))

theorem State.Canonical.copySht {p} (h : s.Canonical) : (copySht p s).Canonical := by
  unfold Machine.copySht
  split
  · exact h
  · exact .ite h.readSheets.softDone.dropDesc (.dropDesc (.softDone (.ite h.readSheets.copySheets h.readSheets)))

theorem State.Canonical.badDops {p} (h : s.Canonical) : (badDops p s).Canonical := by
  unfold Machine.badDops
  split
  · exact h.softDone.dropDesc
  · exact h

theorem State.Canonical.reweight {d busy} (h : s.Canonical) : (reweight d busy s).Canonical := by
  unfold Machine.reweight
  extract_lets _ _ _ s2
  have hs2 : s2.Canonical := by
    unfold s2
    refine .forEach h.with_shts fun _ _ hu => ?_
    extract_lets
    split
    · exact hu
    · exact .ite hu.setWeight hu
  exact .ite h (.forEach hs2 (fun _ _ hu => hu.setFld.onSht))

/-! ### The switch window -/

theorem State.Canonical.winWrite {p off l} (h : s.Canonical) : (winWrite p off l s).Canonical :=
  .clearWords (.writeBytes h (fun _ _ _ hu => hu.setSheetByte))

theorem State.Canonical.performWin {ph p} (h : s.Canonical) : (performWin ph p s).2.Canonical := by
  unfold Machine.performWin
  extract_lets
  split
  · exact h
  · exact h.winWrite
  · exact h.winWrite
  · exact h.winWrite
  · exact .ite h.winWrite h
  · exact h

theorem State.Canonical.winAccess {ph p} (h : s.Canonical) : (winAccess ph p s).2.2.Canonical :=
  .ite_snd_snd (.ite_snd h.readEdges h.readSheets) (.performWin (.ite_snd h.readEdges h.readSheets))

theorem State.Canonical.takeReq {r} (h : s.Canonical) : (takeReq r s).Canonical := .ite h.giveCredits h
theorem State.Canonical.answer {r st data} (h : s.Canonical) : (answer r st data s).Canonical := h.sendCpl
theorem State.Canonical.onDir {n f} (h : s.Canonical) : (onDir n f s).Canonical := h.setDir

theorem State.Canonical.lineRead {n} (h : s.Canonical) : (lineRead n s).2.2.Canonical := by
  unfold Machine.lineRead
  split
  · exact .ite_snd_snd h.readSheets h.readSheets
  · exact h

theorem State.Canonical.lineWrite {n l} (h : s.Canonical) : (lineWrite n l s).Canonical := by
  unfold Machine.lineWrite
  split
  · exact h.winWrite
  · exact h

theorem State.Canonical.poisonLine {n} (h : s.Canonical) : (poisonLine n s).Canonical := .ite h h.bump.onDir
theorem State.Canonical.cohProto {n r st} (h : s.Canonical) : (cohProto n r st s).Canonical := h.answer.bump.raiseFor
theorem State.Canonical.stray (h : s.Canonical) : (stray s).Canonical := h.bump

theorem State.Canonical.failLine {n r st} (h : s.Canonical) : (failLine n r st s).Canonical :=
  .answer (.ite h.onDir.poisonLine h.onDir)

theorem State.Canonical.grantData {n r f} (h : s.Canonical) : (grantData n r f s).Canonical := by
  unfold Machine.grantData
  split
  · rename_i s1 e
    exact (h.lineRead.of_snd_snd e).onDir.answer
  · rename_i e
    exact (h.lineRead.of_snd_snd e).failLine

theorem State.Canonical.grantS {n r} (h : s.Canonical) : (grantS n r s).Canonical := h.grantData

theorem State.Canonical.grantM {n r data} (h : s.Canonical) : (grantM n r data s).Canonical :=
  .ite h.grantData h.onDir.answer

theorem State.Canonical.performUnc {n r st} (h : s.Canonical) : (performUnc n r st s).Canonical := by
  unfold Machine.performUnc
  split
  · exact h.failLine
  · split
    · rename_i s1 e1
      exact (h.winAccess.of_snd_snd e1).onDir.answer
    · rename_i e1
      exact (h.winAccess.of_snd_snd e1).failLine

theorem State.Canonical.completeP {n} (h : s.Canonical) : (completeP n s).Canonical := by
  unfold Machine.completeP
  extract_lets
  split
  · exact h.onDir
  · extract_lets
    split
    · exact h.grantS
    · exact h.grantM
    · exact h.grantM
    · exact h.performUnc
    · exact h.performUnc

theorem State.Canonical.invalidate {n r keep} (h : s.Canonical) : (invalidate n r keep s).Canonical :=
  .ite (.completeP (.forEach h.onDir (fun _ _ hu => hu.sendReq))) (.forEach h.onDir (fun _ _ hu => hu.sendReq))

theorem State.Canonical.recallOwner {n r} (h : s.Canonical) : (recallOwner n r s).Canonical := h.onDir.sendReq

theorem State.Canonical.serveStable {n r} (h : s.Canonical) : (serveStable n r s).Canonical := by
  unfold Machine.serveStable
  extract_lets
  split
  · exact .ite h.answer h.grantS
  · exact .ite h.answer h.grantM
  · exact .ite h.answer h.grantM
  · exact .ite h.answer h.performUnc
  · exact .ite h.answer h.performUnc
  · exact h.grantData
  · exact .ite h.grantM h.invalidate
  · exact .ite h.grantM (.ite h.grantM h.invalidate)
  · exact h.performUnc
  · exact h.invalidate
  · exact .ite h.onDir.poisonLine.cohProto h.recallOwner
  · exact .ite h.onDir.poisonLine.cohProto h.recallOwner
  · exact .ite h.answer h.recallOwner
  · exact h.recallOwner
  · exact h
  · exact h

theorem State.Canonical.serveWb {n r} (h : s.Canonical) : (serveWb n r s).Canonical := by
  unfold Machine.serveWb
  extract_lets
  split
  · exact .ite h.lineWrite.onDir.answer h.cohProto
  · exact .ite h.lineWrite.onDir.answer h.cohProto
  · exact h.cohProto
  · exact h.cohProto
  · exact h.cohProto

theorem State.Canonical.served {n r} (h : s.Canonical) : (served n r s).Canonical := .ite h.onDir h

theorem State.Canonical.takeDueHead {n} (h : s.Canonical) : (takeDueHead n s).Canonical := by
  unfold Machine.takeDueHead
  extract_lets
  split
  · exact h
  · exact .ite h h.onDir.served.serveStable

theorem State.Canonical.takeDueHeads {n k} (h : s.Canonical) : (takeDueHeads n k s).Canonical := by
  induction k generalizing s with
  | zero => exact h
  | succ k ih => exact ih h.takeDueHead

theorem State.Canonical.takeNew {n r} (h : s.Canonical) : (takeNew n r s).Canonical :=
  .ite h.takeDueHeads.takeReq.onDir h.takeDueHeads.takeReq.served.serveStable

theorem State.Canonical.drainNoc {L k} (h : s.Canonical) : (drainNoc L k s).Canonical := by
  induction k generalizing s with
  | zero => exact h
  | succ k ih =>
    unfold Machine.drainNoc
    refine .ite ?_ h
    split
    · extract_lets
      exact ih h.with_fab.takeNew
    · exact h

theorem State.Canonical.drainNocs (h : s.Canonical) : (drainNocs s).Canonical := .forEach h (fun _ _ hu => hu.drainNoc)

theorem State.Canonical.dirRequest {r} (h : s.Canonical) : (dirRequest r s).Canonical :=
  .ite h.takeReq.serveWb (.ite h.with_fab h.takeNew)

theorem State.Canonical.dirCompletion {p} (h : s.Canonical) : (dirCompletion p s).Canonical := by
  unfold Machine.dirCompletion
  extract_lets _ _ s1
  have hs1 : s1.Canonical := h.onDir.poisonLine
  refine .ite h.stray ?_
  refine .ite (.ite h.lineWrite.completeP h.stray) ?_
  refine .ite ?_ (.ite (.ite h.completeP h.onDir) h.stray)
  refine .ite ?_ h.stray
  refine .ite h.completeP ?_
  split
  · exact hs1.cohProto
  · exact hs1

theorem State.Canonical.atHome {L e act} (h : s.Canonical) (hact : ∀ u, u.Canonical → (act u).Canonical) :
    (atHome L e act s).Canonical := by
  unfold Machine.atHome
  split
  · exact hact _ h
  · exact .ite (hact _ h.wakeSht) h.wakeSht.onSht

theorem State.Canonical.expireLine {n} (h : s.Canonical) : (expireLine n s).Canonical := by
  unfold Machine.expireLine
  extract_lets _ s1 s2
  have hs1 : s1.Canonical := h.raiseCause.bump
  have hs2 : s2.Canonical := hs1.onDir.poisonLine
  refine .ite h ?_
  refine .ite hs1.completeP ?_
  split
  · exact hs2.answer
  · exact hs2

theorem State.Canonical.dirExpire {n} (h : s.Canonical) : (dirExpire n s).Canonical :=
  .ite (.atHome h (fun _ hu => hu.expireLine)) h

theorem State.Canonical.waitListHead {n} (h : s.Canonical) : (waitListHead n s).Canonical := by
  unfold Machine.waitListHead
  split
  · exact h.takeDueHead
  · exact .ite h (.ite h.wakeSht.takeDueHead h.wakeSht)

theorem State.Canonical.fanTake {r p} (h : s.Canonical) : (fanTake r p s).Canonical := by
  unfold Machine.fanTake
  extract_lets
  exact .ite h.sendCpl (.forEach h.setFan (fun _ _ hu => hu.sendReq))

theorem State.Canonical.fanInv {p port} (h : s.Canonical) : (fanInv p port s).Canonical := by
  unfold Machine.fanInv
  split
  · exact h.takeReq.fanTake
  · exact h.with_fab

theorem State.Canonical.fanAdmit (h : s.Canonical) : (fanAdmit s).Canonical := by
  unfold Machine.fanAdmit
  split
  · exact h.with_fab.takeReq.fanTake
  · exact h

theorem State.Canonical.fanExpire {r} (h : s.Canonical) : (fanExpire r s).Canonical := by
  unfold Machine.fanExpire
  split
  · exact .ite h.setFan h
  · exact h

theorem State.Canonical.fanAnswer {p} (h : s.Canonical) : (fanAnswer p s).Canonical := by
  unfold Machine.fanAnswer
  extract_lets
  split
  · exact .ite h.setFan.sendCpl h.setFan
  · exact h.stray

theorem State.Canonical.windowPerform {r} (h : s.Canonical) : (windowPerform r s).Canonical := by
  unfold Machine.windowPerform
  extract_lets
  split
  · exact h.takeReq.answer
  · exact .ite h.dirRequest h.takeReq.winAccess.answer

theorem State.Canonical.holdOp {L r} (h : s.Canonical) : (holdOp L r s).Canonical := h.with_shts

theorem State.Canonical.homeArrive {r} (h : s.Canonical) : (homeArrive r s).Canonical := by
  unfold Machine.homeArrive
  extract_lets
  refine .ite h.holdOp ?_
  split
  · exact h.takeReq.answer
  · exact .ite h.wakeSht.windowPerform h.wakeSht.onSht

theorem State.Canonical.windowArrive {r} (h : s.Canonical) : (windowArrive r s).Canonical :=
  .ite h.with_fab h.homeArrive

theorem State.Canonical.windowBack {l} (h : s.Canonical) : (windowBack l s).Canonical := h.with_fab

theorem State.Canonical.drainOrdered (h : s.Canonical) : (drainOrdered s).Canonical :=
  .forEach h.with_fab (fun _ _ hu => hu.windowArrive)

theorem State.Canonical.windowOp {r} (h : s.Canonical) : (windowOp r s).Canonical := by
  -- The name is unfolded alone: against its applied body the kernel would evaluate the checks.
  suffices ∀ f, f = Machine.windowOp → (f r s).Canonical from this _ rfl
  intro f e
  delta Machine.windowOp at e
  subst e
  beta_reduce
  cases windowCheck s r.p with
  | none => exact h.windowArrive
  | some => exact h.takeReq.answer

theorem State.Canonical.selfCpl {p} (h : s.Canonical) : (selfCpl p s).Canonical :=
  .ite h.fanAnswer (.ite h.stray (.atHome h (fun _ hu => hu.dirCompletion)))

theorem State.Canonical.selfPacket {p} (h : s.Canonical) : (selfPacket p s).Canonical := by
  unfold Machine.selfPacket
  split
  · exact h.selfCpl
  · exact h.fanInv
  · exact h

theorem State.Canonical.drainSelf {n} (h : s.Canonical) : (drainSelf n s).Canonical := by
  induction n generalizing s with
  | zero => exact h
  | succ n ih =>
    unfold Machine.drainSelf
    extract_lets
    exact .ite h (ih (.forEach (h.of_mem rfl) fun _ _ hu => hu.selfPacket))

theorem State.Canonical.takeEvent {e} (h : s.Canonical) : (takeEvent e s).Canonical := by
  unfold Machine.takeEvent
  split
  · exact h.windowPerform
  · exact h.dirCompletion
  · exact h.expireLine

theorem State.Canonical.takeStubOps {k l} (h : s.Canonical) : (takeStubOps k l s).Canonical := by
  induction k generalizing l s with
  | zero => exact h
  | succ k ih =>
    unfold Machine.takeStubOps
    split
    · exact h
    · exact ih h.windowPerform

theorem State.Canonical.takeStub {l} (h : s.Canonical) : (takeStub l s).Canonical :=
  .forEach (.takeStubOps (.forEach h (fun _ _ hu => hu.takeEvent))) (fun _ _ hu => hu.takeEvent)

theorem State.Canonical.wakeDone {p} (h : s.Canonical) : (wakeDone p s).Canonical :=
  .ite (.takeStub (.startDescs (.setShtP (.onSht (.ite h.unloadSht h))))) h

end Sys2Proof.Machine
end

section
/-! SUPPORT. Groups, trackers, reductions and migrations keep the memories canonical. -/

namespace Sys2Proof.Machine

variable {s : State}

/-! ### Groups -/

theorem State.Canonical.showEntry {e} (h : s.Canonical) : (showEntry e s).Canonical :=
  h.setFlag.setFlag.setFld.setFld.setFlag

theorem State.Canonical.newVer {e words} (h : s.Canonical) : (newVer e words s).Canonical :=
  h.setGrpE.with_grp.showEntry

theorem State.Canonical.groupCommit {e val} (h : s.Canonical) : (groupCommit e val s).Canonical := by
  unfold Machine.groupCommit
  extract_lets s1 _ s2
  have hs1 : s1.Canonical := h.storeReg
  have hs2 : s2.Canonical := hs1.setFlag
  exact .ite hs1 (.ite (.ite hs2.setGrpE.showEntry hs2.newVer) hs1.setFlag)

theorem State.Canonical.groupRetire {e} (h : s.Canonical) : (groupRetire e s).Canonical := by
  unfold Machine.groupRetire
  extract_lets _ s1
  have hs1 : s1.Canonical := h.setGrpE
  split
  · refine .ite h ?_
    split
    · exact hs1.newVer
    · exact hs1.showEntry
  · exact h

/-! ### Trackers -/

theorem State.Canonical.rejectAcc {port rel g st} (h : s.Canonical) : (rejectAcc port rel g st s).Canonical :=
  h.originateFor

theorem State.Canonical.tell {ms outcome check t'} (h : s.Canonical) : (tell ms outcome check t' s).2.Canonical := by
  unfold Machine.tell
  refine .foldl_snd h fun m x hx => ?_
  refine .ite_snd hx ?_
  extract_lets
  split
  · exact hx.sendLocal
  · exact hx

theorem State.Canonical.dropRun {i run} (h : s.Canonical) : (dropRun i run s).Canonical := by
  unfold Machine.dropRun
  extract_lets
  refine .forEach h fun _ _ hu => ?_
  refine .ite ?_ hu
  extract_lets _ s2
  have hs2 : s2.Canonical := by
    unfold s2
    refine .forEach hu.onSht fun _ _ hu1 => ?_
    split
    · exact .ite hu1.giveCredits hu1
    · exact hu1
  exact hs2.takeCredits.startDescs

theorem State.Canonical.freeSheets {i t'} (h : s.Canonical) : (freeSheets i t' s).Canonical := h.dropRun.returnSheets
theorem State.Canonical.freeTrk {i t'} (h : s.Canonical) : (freeTrk i t' s).Canonical := h.setTrk.showEntry

theorem State.Canonical.startEmission {i t'} (h : s.Canonical) : (startEmission i t' s).Canonical :=
  .ite h.setTrk.pushDesc.pushDesc h.setTrk.pushDesc

theorem State.Canonical.dropInput {x} (h : s.Canonical) : (dropInput x s).Canonical := .ite h.giveCredits h

theorem State.Canonical.addInput {i t' x g first count elems} (h : s.Canonical) :
    (addInput i t' x g first count elems s).Canonical :=
  .ite h.setTrk.pushDesc.startEmission h.setTrk.pushDesc

theorem State.Canonical.initSlots {t'} (h : s.Canonical) : (initSlots t' s).Canonical := by
  unfold Machine.initSlots
  extract_lets _ _ _ s1
  have hs1 : s1.Canonical := .forEach h (fun _ _ hu => hu.zeroRange)
  exact .forEach hs1 (fun _ _ hu => .ite hu (.writeBytes hu (fun _ _ _ hv => hv.setSheetByte)))

theorem State.Canonical.notAccepted {x g p} (h : s.Canonical) : (notAccepted x g p s).Canonical :=
  .ite h.dropInput.originate h.dropInput.bump

theorem State.Canonical.noTracker {x g v p} (h : s.Canonical) : (noTracker x g v p s).Canonical :=
  .ite h.dropInput.bump.originate h.dropInput.bump

theorem State.Canonical.malformed {x} (h : s.Canonical) : (malformed x s).Canonical := h.dropInput.bump.raiseFor

theorem State.Canonical.inFree {x g p} (h : s.Canonical) : (inFree x g p s).Canonical := by
  unfold Machine.inFree
  extract_lets _ _ exact _ _ _ _ _ s1
  have hs1 : s1.Canonical := h.of_mem rfl
  split
  · exact h.notAccepted
  · split
    · exact h.malformed
    · split
      · exact h.noTracker
      · extract_lets
        split
        · rename_i e
          extract_lets _ s3
          have hs3 : s3.Canonical := by
            split at e
            · exact (hs1.takeSheets e).initSlots
            · cases e
          exact .ite hs3.dropInput.bump.raiseFor.freeSheets.tell.setTrk.showEntry hs3.addInput.showEntry
        · exact hs1.dropInput.bump.tell.setTrk.showEntry

theorem State.Canonical.overcount {i t'} (h : s.Canonical) : (overcount i t' s).Canonical :=
  h.bump.raiseFor.freeSheets.tell.setTrk

theorem State.Canonical.inOpen {i t' x g} (h : s.Canonical) : (inOpen i t' x g s).Canonical := by
  unfold Machine.inOpen
  split
  · exact h.notAccepted
  · split
    · exact h.malformed
    · extract_lets
      split
      · exact .ite h.dropInput.overcount h.addInput
      · exact h.dropInput.tell.setTrk
      · exact h.dropInput.setTrk.bump.raiseFor
      · exact h.dropInput.setTrk.bump.raiseFor
      · exact h.dropInput.setTrk.bump.raiseFor

theorem State.Canonical.inArrive {i} (h : s.Canonical) : (inArrive i s).Canonical := by
  unfold Machine.inArrive
  split
  · exact h
  · refine .ite h ?_
    extract_lets _ s1
    have hs1 : s1.Canonical := h.with_grp
    split
    · exact hs1.inOpen
    · exact hs1.inFree

theorem State.Canonical.stopOut {t'} (h : s.Canonical) : (stopOut t' s).Canonical := by
  unfold Machine.stopOut
  split
  · exact h.dropWaiting
  · exact h.dropWaiting.removeHeld
  · exact h

theorem State.Canonical.commitTrk {i t'} (h : s.Canonical) : (commitTrk i t' s).Canonical := h.tell.freeTrk

theorem State.Canonical.commits (h : s.Canonical) : (commits s).Canonical := by
  unfold Machine.commits
  refine .forEach h fun _ _ hu => ?_
  split
  · exact .ite hu.commitTrk hu
  · exact hu

theorem State.Canonical.endTrk {i t' outcome} (h : s.Canonical) : (endTrk i t' outcome s).Canonical :=
  h.stopOut.freeSheets.tell.freeTrk

theorem State.Canonical.trkTimeout {i} (h : s.Canonical) : (trkTimeout i s).Canonical := by
  unfold Machine.trkTimeout
  split
  · exact h
  · split
    · exact h
    · exact .ite h (.ite h.freeTrk (.ite h h.endTrk.bump))

theorem State.Canonical.followLag {e} (h : s.Canonical) : (followLag e s).Canonical :=
  .forEach h (fun _ _ hu => hu.with_grp)

theorem State.Canonical.followLags (h : s.Canonical) : (followLags s).Canonical :=
  .forEach h (fun _ _ hu => hu.followLag)

theorem State.Canonical.stragglerAt {e slot} (h : s.Canonical) : (stragglerAt e slot s).Canonical := by
  unfold Machine.stragglerAt
  extract_lets
  split
  · exact .ite h (.raiseFor (.ite h.with_grp h.with_grp.wr.wr))
  · exact h

/-! ### Reductions -/

theorem State.Canonical.readSlots {t' j n} (h : s.Canonical) : (readSlots t' j n s).2.Canonical :=
  .foldl_snd h fun _ _ hx => hx.readSheets

theorem State.Canonical.slotAdd {t' d j x} (h : s.Canonical) : (slotAdd t' d j x s).Canonical := by
  unfold Machine.slotAdd
  extract_lets _ s1
  have hs1 : s1.Canonical := .writeBytes h.clearWords (fun _ _ _ hu => hu.setSheetByte)
  exact .ite hs1.bump hs1

theorem State.Canonical.eccEnd {i t'} (h : s.Canonical) : (eccEnd i t' s).Canonical := h.endTrk

theorem State.Canonical.addAt {p} (h : s.Canonical) : (addAt p s).Canonical := by
  unfold Machine.addAt
  split
  · exact h
  · split
    · extract_lets _ _ s1 x3
      have hs1 : s1.Canonical := h.dropDesc
      have hx3 : x3.2.Canonical := hs1.readSlots
      exact .ite hs1.bump.raiseFor.overcount (.ite hx3.eccEnd (.forEach hx3.onSht (fun _ _ hu => hu.slotAdd)))
    · exact h.dropDesc

theorem State.Canonical.partAt {p} (h : s.Canonical) : (partAt p s).Canonical := by
  unfold Machine.partAt
  split
  · exact h
  · extract_lets s1
    have hs1 : s1.Canonical := h.dropDesc
    split
    · exact hs1
    · exact .ite hs1.readSlots.eccEnd (.setTrk (.forEach hs1.readSlots.bumpBy (fun _ _ hu => hu.sendToward)))

theorem State.Canonical.loadContext {p ctx} (h : s.Canonical) : (loadContext p ctx s).Canonical :=
  .ite h h.onSht.setFlag.setFld.bump

theorem State.Canonical.castDrops {n loc ctx} (h : s.Canonical) : (castDrops n loc ctx s).Canonical :=
  .forEach h (fun _ _ hu => hu.bump.raiseFor)

theorem State.Canonical.resultAt {p} (h : s.Canonical) : (resultAt p s).Canonical := by
  unfold Machine.resultAt
  split
  · exact h
  · extract_lets s1
    have hs1 : s1.Canonical := h.dropDesc
    split
    · exact hs1
    · extract_lets _ _ x2 _ _ _ _ _ _ _ _ _ _ _ _ s7
      have hx2 : x2.2.Canonical := hs1.loadContext.readSlots
      have hs7 : s7.Canonical := .forEach hx2.bumpBy.bumpBy.bumpBy (fun _ _ hu => hu.sendOwn.castDrops)
      exact .ite hx2.eccEnd hs7.setTrk

theorem State.Canonical.resultTaken {stores pk} (h : s.Canonical) : (resultTaken stores pk s).Canonical := by
  unfold Machine.resultTaken
  extract_lets
  refine .ite ?_ (.ite h.bump h)
  split
  · exact h.setTrk
  · exact h

theorem State.Canonical.traceFold {t'} (h : s.Canonical) : (traceFold t' s).Canonical :=
  .ite h.wr.wr.wr.wr.setFld.setFlag h

theorem State.Canonical.watermarkFold {t'} (h : s.Canonical) : (watermarkFold t' s).Canonical := h.wr.wr.wr.traceFold

theorem State.Canonical.sentTrk {i} (h : s.Canonical) : (sentTrk i s).Canonical := by
  unfold Machine.sentTrk
  split
  · exact h
  · refine .ite h ?_
    extract_lets s1 s2
    have hs1 : s1.Canonical := h.freeSheets
    have hs2 : s2.Canonical := .ite hs1.watermarkFold hs1
    exact .ite hs2.freeTrk hs2.setTrk

theorem State.Canonical.abortGroup {val} (h : s.Canonical) : (abortGroup val s).Canonical := by
  unfold Machine.abortGroup
  extract_lets s1 _ _ s2 done s3 _ s4
  have hs1 : s1.Canonical := h.storeReg
  have hs2 : s2.Canonical := hs1.setFlag
  have hdone : ∀ r1 n1 u, u.Canonical → (done r1 n1 u).Canonical := fun _ _ _ hu => hu.with_grp
  have hs3 : s3.Canonical := .commits (.forEach hs2 (fun _ _ hu => hu.sentTrk))
  have hs4 : s4.Canonical := .forEach hs3 (fun _ _ hu => hu.endTrk)
  exact .ite hs1 (.ite (hdone _ _ _ hs2) (hdone _ _ _ hs4))

theorem State.Canonical.abortFinish (h : s.Canonical) : (abortFinish s).Canonical := by
  unfold Machine.abortFinish
  split
  · exact h
  · exact h.setFlag.setFld.setFld.with_grp.raiseInt

theorem State.Canonical.snapWatermark {e} (h : s.Canonical) : (snapWatermark e s).Canonical :=
  h.wr.wr.wr.wr.wr.wr.setFld

theorem State.Canonical.traceRingWrite {val} (h : s.Canonical) : (traceRingWrite val s).Canonical :=
  .ite (.forEach h.storeReg.setFld.setFlag (fun _ _ hu => hu.setFlag)) h.storeReg

theorem State.Canonical.forwardAt {p} (h : s.Canonical) : (forwardAt p s).Canonical := by
  unfold Machine.forwardAt
  split
  · exact h
  · extract_lets s1
    have hs1 : s1.Canonical := h.dropDesc
    split
    · exact hs1
    · extract_lets x s2
      have hx : x.2.Canonical := .foldl_snd hs1 fun _ _ hu => hu.readSheets
      have hs2 : s2.Canonical := .forEach hx (fun _ _ hu => hu.copySheets)
      exact .ite hx.eccEnd hs2.pushDesc

theorem State.Canonical.drainAt {q} (h : s.Canonical) : (drainAt q s).Canonical := by
  unfold Machine.drainAt
  split
  · exact h
  · extract_lets s1
    have hs1 : s1.Canonical := h.dropDesc
    split
    · exact hs1
    · exact hs1.setTrk.onSht.startDescs

/-! ### Migrations -/

theorem State.Canonical.abortOn {p} (h : s.Canonical) : (abortOn p s).Canonical := by
  unfold Machine.abortOn
  refine .forEach h fun _ _ hu => ?_
  split
  · exact .ite hu.endTrk hu
  · exact hu

theorem State.Canonical.loseLine {n} (h : s.Canonical) : (loseLine n s).Canonical := by
  unfold Machine.loseLine
  extract_lets _ s1
  have hs1 : s1.Canonical := h.onDir.poisonLine
  split
  · exact hs1.answer
  · exact hs1

theorem State.Canonical.loseLines {L} (h : s.Canonical) : (loseLines L s).Canonical :=
  .forEach h (fun _ _ hu => hu.loseLine)

theorem State.Canonical.restub {l} (h : s.Canonical) : (restub l s).Canonical := by
  unfold Machine.restub
  extract_lets
  refine .forEach h.windowBack fun _ _ hu => ?_
  split
  · exact hu
  · exact hu.selfCpl
  · exact .atHome hu (fun _ hu => hu.expireLine)

theorem State.Canonical.rearrive {p} (h : s.Canonical) : (rearrive p s).Canonical := h.onSht.restub
theorem State.Canonical.showRedirects (h : s.Canonical) : (showRedirects s).Canonical := h.setFld

theorem State.Canonical.mapSht {L q} (h : s.Canonical) : (mapSht L q s).Canonical :=
  .ite h.setFlag.setFld.setRole.setFld h.setFlag.setFld.setRole.setFld.setWeight

theorem State.Canonical.unmapSht {L} (h : s.Canonical) : (unmapSht L s).Canonical := h.setFlag.setWeight

theorem State.Canonical.endMigration (h : s.Canonical) : (endMigration s).Canonical :=
  h.setFlag.setFld.with_shts.raiseInt

theorem State.Canonical.startMigration {L q force} (h : s.Canonical) : (startMigration L q force s).Canonical :=
  h.setFlag.setFld.with_shts.wakeSht

theorem State.Canonical.migrate {val} (h : s.Canonical) : (migrate val s).Canonical :=
  .ite h.storeReg (.ite h.storeReg.setFld (.ite h.storeReg.setFld h.storeReg.startMigration))

theorem State.Canonical.forceSwitch {m} (h : s.Canonical) : (forceSwitch m s).Canonical := by
  unfold Machine.forceSwitch
  extract_lets s1 s2 s3
  have hs1 : s1.Canonical := h.loseLines
  have hs2 : s2.Canonical := by
    unfold s2
    split
    · exact hs1.abortOn.setRole
    · exact hs1
  have hs3 : s3.Canonical := hs2.mapSht.endMigration
  split
  · exact hs3.rearrive
  · exact hs3

theorem State.Canonical.clearTarget {m} (h : s.Canonical) : (clearTarget m s).Canonical := h.zeroRange

theorem State.Canonical.clearSheets (h : s.Canonical) : (clearSheets s).Canonical := by
  unfold Machine.clearSheets
  extract_lets _ s1
  have hs1 : s1.Canonical := .forEach h.with_shts (fun _ _ hu => hu.clearTarget)
  split
  · exact hs1
  · exact .ite (.ite hs1.clearTarget.with_shts.forceSwitch hs1.clearTarget.with_shts) hs1

theorem State.Canonical.switchOne {m} (h : s.Canonical) : (switchOne m s).Canonical := by
  unfold Machine.switchOne
  extract_lets s1
  have hs1 : s1.Canonical := by
    unfold s1
    split
    · exact h.readSheets.copySheets.setRole.with_shts.showRedirects
    · exact h
  exact hs1.mapSht

theorem State.Canonical.switchNow (h : s.Canonical) : (switchNow s).Canonical := by
  unfold Machine.switchNow
  split
  · exact h
  · exact .ite h.switchOne.endMigration.windowBack h

theorem State.Canonical.dropRedirect {p} (h : s.Canonical) : (dropRedirect p s).Canonical := h.with_shts.showRedirects

theorem State.Canonical.releaseRedirect {p} (h : s.Canonical) : (releaseRedirect p s).Canonical :=
  .ite h.dropRedirect.setRole h

theorem State.Canonical.timeOutTrk {i t'} (h : s.Canonical) : (timeOutTrk i t' s).Canonical :=
  .ite h.freeTrk h.endTrk.bump

theorem State.Canonical.commandTimeout {p} (h : s.Canonical) : (commandTimeout p s).Canonical := by
  unfold Machine.commandTimeout
  split
  · exact h
  · extract_lets _ t s1
    have hs1 : s1.Canonical := h.dropDesc.bump.raiseFor
    refine .ite hs1.softDone ?_
    cases t with
    | none => exact hs1
    | some => exact hs1.timeOutTrk

theorem State.Canonical.killSht {p} (h : s.Canonical) : (killSht p s).Canonical := h.onSht.setRole.setShtP

theorem State.Canonical.shuttleHang {p} (h : s.Canonical) : (shuttleHang p s).Canonical := by
  unfold Machine.shuttleHang
  refine .ite h ?_
  extract_lets s1
  have hs1 : s1.Canonical := h.raise
  split
  · exact hs1.abortOn.dropRedirect.killSht
  · split
    · exact .ite hs1.startMigration.abortOn.killSht.onSht hs1.unmapSht.abortOn.killSht.loseLines.restub
    · exact hs1.unmapSht.abortOn.killSht.loseLines.restub

end Sys2Proof.Machine
end

section
/-! SUPPORT. Lanes, fabric time and forwarding keep the memories canonical. -/

namespace Sys2Proof.Machine

variable {s : State}

/-! ### Lane commands -/

theorem State.Canonical.meetMask {p mask} (h : s.Canonical) : (meetMask p mask s).Canonical :=
  .ite h (.forEach h.onPln (fun _ _ hu => .ite (.ite hu.sendSync hu.setFld.onLane) hu))

theorem State.Canonical.syncFrame {p n mask cnt} (h : s.Canonical) : (syncFrame p n mask cnt s).Canonical := by
  unfold Machine.syncFrame
  extract_lets s1
  have hs1 : s1.Canonical := .ite h.meetMask h.onPln
  exact .ite (.withFree hs1.onLane (fun _ _ hu => hu.setFld.trySync0)) hs1

theorem State.Canonical.hearReady {n ready} (h : s.Canonical) : (hearReady n ready s).Canonical := by
  unfold Machine.hearReady
  refine .ite ?_ ?_
  · extract_lets s1
    have hs1 : s1.Canonical := h.setFlag.onLane
    split
    · exact .ite hs1.onPln hs1
    · exact hs1
  · extract_lets s1
    have hs1 : s1.Canonical := h.setFlag
    split
    · exact hs1.endFirst
    · exact hs1

theorem State.Canonical.goodFrame {n cdr b} (h : s.Canonical) : (goodFrame n cdr b s).Canonical := by
  unfold Machine.goodFrame
  extract_lets _ _ s1 s2 s3
  have hs1 : s1.Canonical := h.onLane
  have hs2 : s2.Canonical := hs1.onLane
  have hs3 : s3.Canonical := hs1.hearReady
  refine .ite (.ite hs2.setFld hs2) ?_
  split
  · exact hs3
  · exact .ite hs3.syncFrame hs3

theorem State.Canonical.cwLoss {n} (h : s.Canonical) : (cwLoss n s).Canonical := by
  unfold Machine.cwLoss
  refine .ite ?_ h
  split
  · extract_lets _ _ s2 s3
    have hs2 : s2.Canonical := .withFree h.toDetect (fun _ _ hu => .ite hu.setFlag hu)
    have hs3 : s3.Canonical := .ite hs2.onPln hs2
    exact .ite hs3.linkLoss hs3
  · exact h.toDetect

theorem State.Canonical.cdrLock {n cdr} (h : s.Canonical) : (cdrLock n cdr s).Canonical :=
  .ite (.setFlag (.ite h.cwLoss h)) (.ite h (.withFree h (fun _ _ hu => hu.setFlag.setFld)))

theorem State.Canonical.trainingFrame {n cdr b} (h : s.Canonical) : (trainingFrame n cdr b s).Canonical := by
  unfold Machine.trainingFrame
  refine .ite h ?_
  extract_lets s1
  have hs1 : s1.Canonical := h.cdrLock
  refine .ite hs1.onLane ?_
  refine .ite ?_ hs1.goodFrame
  split
  · exact hs1.bump
  · exact hs1

theorem State.Canonical.frameLoss {n} (h : s.Canonical) : (frameLoss n s).Canonical := .ite h.toDetect (.ite h.onLane h)

theorem State.Canonical.adapted {n} (h : s.Canonical) : (adapted n s).Canonical :=
  .ite (.ite h.setFld.onLane (.withFree h.setFld.onLane (fun _ _ hu => hu.onLane))) h

theorem State.Canonical.joinLanes {p mask} (h : s.Canonical) : (joinLanes p mask s).Canonical := by
  unfold Machine.joinLanes
  extract_lets _ s2 s3
  have hs2 : s2.Canonical := .forEach h.onPln (fun _ _ hu => .ite hu.leaveLane (.ite hu.sendFrame hu.joinLane))
  have hs3 : s3.Canonical := hs2.joinDone
  split
  · exact hs3.meetMask
  · exact hs3

theorem State.Canonical.joinPort {p} (h : s.Canonical) : (joinPort p s).Canonical :=
  .ite h (.ite h (.ite (.ite h.endLive h.endLive.joinLanes) (.ite h h.raise)))

theorem State.Canonical.trainTimeout {n signal} (h : s.Canonical) : (trainTimeout n signal s).Canonical :=
  .ite (.toDetect (.ite h.bump.setFlag.raise h)) h

theorem State.Canonical.sendLaneMsg {p ltype word} (h : s.Canonical) : (sendLaneMsg p ltype word s).Canonical :=
  h.originate

theorem State.Canonical.agree {p seq kind mask result} (h : s.Canonical) : (agree p seq kind mask result s).Canonical :=
  h.setFld.setFld.setFlag.onPln.sendLaneMsg

theorem State.Canonical.propose {p kind mask} (h : s.Canonical) : (propose p kind mask s).Canonical :=
  .ite h h.setFld.setFlag.sendLaneMsg.onPln

theorem State.Canonical.widthPropose {p kind mask} (h : s.Canonical) : (widthPropose p kind mask s).Canonical :=
  h.onPln.endLive.propose

theorem State.Canonical.needPropose {p kind mask} (h : s.Canonical) : (needPropose p kind mask s).Canonical :=
  .ite h h.propose

theorem State.Canonical.answerProp {p seq kind mask} (h : s.Canonical) : (answerProp p seq kind mask s).Canonical :=
  .ite h.sendLaneMsg h.sendLaneMsg.agree

theorem State.Canonical.takeProp {p c} (h : s.Canonical) : (takeProp p c s).Canonical := by
  unfold Machine.takeProp
  extract_lets _ _ _ _ _ _ withdraw s1
  have hwithdraw : ∀ u, u.Canonical → (withdraw u).Canonical := fun _ hu => hu.onPln.setFld.setFlag
  have hs1 : s1.Canonical := .bump (hwithdraw _ h)
  split
  · exact h.answerProp
  · exact .ite h.agree (.ite h (.ite (.answerProp (.bump (hwithdraw _ h))) hs1.onPln))

theorem State.Canonical.takeAckProp {p c} (h : s.Canonical) : (takeAckProp p c s).Canonical := by
  unfold Machine.takeAckProp
  extract_lets
  split
  · exact .ite (.ite h.agree h.onPln.setFld.setFlag) h
  · exact h

theorem State.Canonical.takeGo {p c} (h : s.Canonical) : (takeGo p c s).Canonical := h.onPln.finishChange

theorem State.Canonical.lapse {p} (h : s.Canonical) : (lapse p s).Canonical := by
  unfold Machine.lapse
  split
  · exact h
  · exact .ite (.ite h.onPln.setFld.setFlag.onPln.raise h.onPln.setFld.setFlag) h

theorem State.Canonical.proposalRetry {p} (h : s.Canonical) : (proposalRetry p s).Canonical := by
  unfold Machine.proposalRetry
  split
  · exact .ite h.propose h
  · exact h

theorem State.Canonical.holdUnusable {p n} (h : s.Canonical) : (holdUnusable p n s).Canonical :=
  .ite (.ite h h.raise) h.onPln.needPropose

theorem State.Canonical.removalActive {p n corrected uncorrectable} (h : s.Canonical) :
    (removalActive p n corrected uncorrectable s).Canonical :=
  .ite (.holdUnusable (.ite h.onLane.setFlag h.onLane)) (.ite h.onLane.setFlag h.onLane)

theorem State.Canonical.removalSoak {p n prbs} (h : s.Canonical) : (removalSoak p n prbs s).Canonical := by
  unfold Machine.removalSoak
  refine .ite h ?_
  extract_lets _ s1 _ _ s4
  have hs1 : s1.Canonical := h.onLane
  have hs4 : s4.Canonical := .ite (.ite hs1.setFlag.endLive.onLane hs1) h
  exact .ite hs4.needPropose hs4

theorem State.Canonical.removalInterval {n corrected uncorrectable prbs} (h : s.Canonical) :
    (removalInterval n corrected uncorrectable prbs s).Canonical := by
  unfold Machine.removalInterval
  split
  · exact h
  · exact .ite h.bumpBy.bumpBy.bumpBy.removalActive h.bumpBy.bumpBy.bumpBy.removalSoak

theorem State.Canonical.retrainLane {n} (h : s.Canonical) : (retrainLane n s).Canonical := by
  unfold Machine.retrainLane
  split
  · exact .ite h.needPropose h.laneRt
  · exact h.laneRt

theorem State.Canonical.eiEntry {p} (h : s.Canonical) : (eiEntry p s).Canonical := by
  unfold Machine.eiEntry
  refine .ite ?_ (.ite h h.onPln)
  refine .ite (.onPln (.forEach h.sendLcu.setFlag.bump (fun _ _ hu => hu.emit))) ?_
  split
  · exact h.onPln
  · exact .ite h.onPln.sendLaneMsg h

theorem State.Canonical.eiArm {p} (h : s.Canonical) : (eiArm p s).Canonical := h.setFlag
theorem State.Canonical.eiDisarm {p} (h : s.Canonical) : (eiDisarm p s).Canonical := h.setFlag.onPln

theorem State.Canonical.eiExitFail {p} (h : s.Canonical) : (eiExitFail p s).Canonical :=
  .ite h.bump.eiDisarm.linkLoss.retrainPort h

theorem State.Canonical.receiveIdle {p} (h : s.Canonical) : (receiveIdle p s).Canonical :=
  .ite (.onPln (.forEach h (fun _ _ hu => hu.abortScan))) (.forEach h (fun _ _ hu => hu.cwLoss.setFlag))

theorem State.Canonical.marginScan {n v} (h : s.Canonical) : (marginScan n v s).Canonical :=
  .ite (.ite h.storeReg.setFlag h.storeReg.setFld) h.storeReg

theorem State.Canonical.marginScanEnd {n neg pos} (h : s.Canonical) : (marginScanEnd n neg pos s).Canonical :=
  .ite h.setFlag.setFld.setFld.setFld h

/-! ### Fabric time -/

theorem State.Canonical.rebaseTime (h : s.Canonical) : (rebaseTime s).Canonical := h.with_time
theorem State.Canonical.freeRun (h : s.Canonical) : (freeRun s).Canonical := .ite h.setTimeLocked h

theorem State.Canonical.showParent (h : s.Canonical) : (showParent s).Canonical := by
  unfold Machine.showParent
  split
  · exact h.setFld.setFld
  · exact h.setFld

theorem State.Canonical.timeExchangeAt (h : s.Canonical) : (timeExchangeAt s).Canonical := by
  unfold Machine.timeExchangeAt
  refine .ite h ?_
  extract_lets _ _ s2 _ _ s3 _ s4
  have hs2 : s2.Canonical := h.showParent.with_time
  have hs3 : s3.Canonical := hs2.with_time
  have hs4 : s4.Canonical := .ite hs3.with_time.setTimeLocked hs3
  split
  · exact hs2.with_time.setTimeLocked
  · exact hs4.with_time.originate

theorem State.Canonical.timeReq {port c} (h : s.Canonical) : (timeReq port c s).Canonical := .ite h.originate h

theorem State.Canonical.timeRsp {x c} (h : s.Canonical) : (timeRsp x c s).Canonical := by
  unfold Machine.timeRsp
  split
  · exact h.bump
  · refine .ite h.bump ?_
    extract_lets _ _ _ _ _ _ _ _ _ _ _ s3
    have hs3 : s3.Canonical := h.rebaseTime.setFld.with_time
    exact .ite hs3.setTimeLocked (.ite hs3.setTimeLocked hs3)

/-! ### Forwarding -/

theorem State.Canonical.policeOne {i pre pk} (h : s.Canonical) : (policeOne i pre pk s).2.Canonical := by
  unfold Machine.policeOne
  refine .ite_snd h ?_
  extract_lets
  split
  exact h.with_sched.bump

theorem State.Canonical.fillPolicer {i} (h : s.Canonical) : (fillPolicer i s).Canonical := h.with_sched

theorem State.Canonical.police {port p} (h : s.Canonical) : (police port p s).2.Canonical :=
  .ite_snd h (.ite_snd (.policeOne (.ite_snd h.policeOne h)) (.ite_snd h.policeOne h))

theorem State.Canonical.allocate {port p} (h : s.Canonical) : (allocate port p s).2.Canonical := .ite_snd h.setOrt h

theorem State.Canonical.passInput {i} (h : s.Canonical) : (passInput i s).Canonical := by
  unfold Machine.passInput
  split
  · exact h
  · extract_lets _ set
    have hset : ∀ n1 u, u.Canonical → (set n1 u).Canonical := fun _ _ hu => hu.with_grp
    exact .ite h (.ite (.debitPacket (hset _ _ h)) (.ite (.countHeld (hset _ _ h)) h))

theorem State.Canonical.passInputs (h : s.Canonical) : (passInputs s).Canonical :=
  .forEach h (fun _ _ hu => hu.passInput)

theorem State.Canonical.passWindow (h : s.Canonical) : (passWindow s).Canonical :=
  .forEach h.with_fab (fun _ _ hu => .ite hu.debitPacket.windowOp (.with_fab (.ite hu.countHeld hu)))

theorem State.Canonical.windowIn {r} (h : s.Canonical) : (windowIn r s).Canonical :=
  .ite h.with_fab.passWindow h.windowOp

theorem State.Canonical.toTransit {port pk e v} (h : s.Canonical) : (toTransit port pk e v s).Canonical :=
  h.with_grp.passInput

theorem State.Canonical.back {port pk} (h : s.Canonical) : (back port pk s).Canonical := h.giveCredits

theorem State.Canonical.takeCpl {port p} (h : s.Canonical) : (takeCpl port p s).2.Canonical := by
  unfold Machine.takeCpl
  refine .ite_snd (.back (.ite h h.bump)) ?_
  split
  · rename_i s1 e
    exact h.matchCpl.of_snd e
  · rename_i e
    exact (h.matchCpl.of_snd e).back

theorem State.Canonical.unroutable {port p} (h : s.Canonical) : (unroutable port p s).Canonical :=
  .ite h.back.bump.sendCpl h.back.bump

theorem State.Canonical.deliver {port p} (h : s.Canonical) : (deliver port p s).2.Canonical := by
  unfold Machine.deliver
  refine .ite_snd h.windowIn ?_
  refine .ite_snd ?_ ?_
  · split
    · exact h.back.selfCpl
    · dsimp only
      exact h.fanInv
    · exact h.back
  · refine .ite_snd h.takeCpl ?_
    extract_lets
    split
    · exact h.unroutable
    · exact h

theorem State.Canonical.routeData {port src p} (h : s.Canonical) : (routeData port src p s).2.Canonical := by
  unfold Machine.routeData
  refine .ite_snd h.deliver ?_
  extract_lets
  split
  · rename_i s1 e
    exact (h.farTarget.of_snd e).unroutable
  · rename_i e
    exact h.farTarget.of_snd e

theorem State.Canonical.takePartial {port pk} (h : s.Canonical) : (takePartial port pk s).Canonical := by
  unfold Machine.takePartial
  extract_lets
  split
  · exact h.toTransit
  · exact h.back.bump

theorem State.Canonical.resultFate {port pk} (h : s.Canonical) : (resultFate port pk s).2.Canonical :=
  .ite_snd h.castDrops.back.resultTaken h.castDrops

theorem State.Canonical.fabricGroup {port pk} (h : s.Canonical) : (fabricGroup port pk s).2.Canonical :=
  .ite_snd h.back.bump (.ite_snd h.resultFate (.ite_snd h.back.bump h.takePartial))

theorem State.Canonical.takeContribution {port pk} (h : s.Canonical) : (takeContribution port pk s).Canonical := by
  unfold Machine.takeContribution
  extract_lets
  split
  · exact h.rejectAcc
  · exact h.toTransit

theorem State.Canonical.leafData {port p} (h : s.Canonical) : (leafData port p s).2.Canonical := by
  unfold Machine.leafData
  split
  · exact h
  · refine .ite_snd h.takeContribution ?_
    extract_lets _ c
    have hc : c.2.Canonical := h.allocate.police
    refine .ite_snd hc.back.nackFor ?_
    split
    · rename_i e1
      exact hc.routeData.of_snd e1
    · exact hc.routeData

theorem State.Canonical.transitData {port p} (h : s.Canonical) : (transitData port p s).2.Canonical :=
  .ite_snd h.fabricGroup h.routeData

theorem State.Canonical.lookup {port p} (h : s.Canonical) : (lookup port p s).2.Canonical :=
  .ite_snd h.leafData h.transitData

theorem State.Canonical.ingressSend {port rx x mir pk} (h : s.Canonical) :
    (ingressSend port rx x mir pk s).2.Canonical := by
  unfold Machine.ingressSend
  extract_lets
  split
  · rename_i s1 e
    exact (h.writeCells.of_snd e).back
  · rename_i e
    extract_lets _ s2 s3 _ _ s4
    have hs2 : s2.Canonical := .forEach (h.writeCells.of_snd e) (fun _ _ hu => hu.enterVers)
    have hs3 : s3.Canonical := .forEach hs2 (fun _ _ hu => hu.mirrorOne)
    have hs4 : s4.Canonical := by
      unfold s4
      refine .forEach hs3 fun _ _ hu => ?_
      split
      · exact hu.holdPacket
      · exact hu
    exact hs4.placeCopies

theorem State.Canonical.mirrorOnly {port mir pk} (h : s.Canonical) : (mirrorOnly port mir pk s).Canonical := by
  unfold Machine.mirrorOnly
  refine .ite h ?_
  extract_lets
  split
  · rename_i s1 e
    exact h.writeCells.of_snd e
  · rename_i e
    exact .forEach (h.writeCells.of_snd e) (fun _ _ hu => hu.mirrorOne)

theorem State.Canonical.rejectOp {port p st mir} (h : s.Canonical) : (rejectOp port p st mir s).Canonical := by
  unfold Machine.rejectOp
  extract_lets _ s1
  have hs1 : s1.Canonical := .ite h.bump h
  refine .ite hs1.rejectAcc.mirrorOnly ?_
  refine .ite ?_ hs1.back.mirrorOnly
  split
  · rename_i s2 e
    exact (hs1.writeCells.of_snd e).back
  · rename_i e
    exact .rejectCpl (.forEach (hs1.writeCells.of_snd e) (fun _ _ hu => hu.mirrorOne))

theorem State.Canonical.lostRequest {port p} (h : s.Canonical) : (lostRequest port p s).Canonical := .ite h.allocate h

theorem State.Canonical.countBad {port crc} (h : s.Canonical) : (countBad port crc s).Canonical := by
  unfold Machine.countBad
  split
  · exact h
  · exact h.bump
  · exact h.bump

theorem State.Canonical.carryOut {port p mir} {r : Fate × State} (h : r.2.Canonical) :
    (carryOut port p mir r).Canonical := by
  unfold Machine.carryOut
  extract_lets
  split
  · split
    · rename_i e _
      exact (State.Canonical.ingressSend h).of_snd e |>.resultTaken
    · rename_i e _
      exact (State.Canonical.ingressSend h).of_snd e
  · exact h.rejectOp
  · exact h.mirrorOnly

theorem State.Canonical.receiveData {port p crc} (h : s.Canonical) : (receiveData port p crc s).Canonical := by
  unfold Machine.receiveData
  extract_lets _ s1
  have hs1 : s1.Canonical := h.countBad.back
  exact .ite h.protoError (.ite (.ite hs1 hs1.lostRequest) (.ite h.bump.back h.lookup.carryOut))

theorem State.Canonical.openStream {port r} (h : s.Canonical) : (openStream port r s).Canonical := by
  unfold Machine.openStream
  refine .ite h ?_
  split
  · exact h
  · split
    · rename_i e1
      exact (h.lookup.of_snd e1).with_core.ingressSend.onLnk
    · exact h

theorem State.Canonical.tryCuts {r} (h : s.Canonical) : (tryCuts r s).Canonical := .forEach h (fun _ _ hu => hu.tryCut)

theorem State.Canonical.feedStream {r} (h : s.Canonical) : (feedStream r s).Canonical :=
  .ite (.ite h.feedPayload.closeCells.tryCuts h.feedPayload.closeCells) h.feedPayload

theorem State.Canonical.finishStream {port r} (h : s.Canonical) : (finishStream port r s).Canonical := by
  unfold Machine.finishStream
  extract_lets _ s1 s2 s3
  have hs1 : s1.Canonical := h.feedPayload.closeCells
  have hs2 : s2.Canonical := .ite hs1.tryCuts hs1
  have hs3 : s3.Canonical := hs2.mapRx
  split
  · refine .ite h ?_
    split
    · exact hs3.resultTaken
    · exact hs3
  · exact h.countBad.abandonRx

theorem State.Canonical.streamUnit {port} (h : s.Canonical) : (streamUnit port s).Canonical := by
  unfold Machine.streamUnit
  split
  · exact .ite h.feedStream (.ite h.openStream h)
  · exact h

theorem State.Canonical.discPacket {port c} (h : s.Canonical) : (discPacket port c s).Canonical := by
  unfold Machine.discPacket
  split
  · exact h.hello
  · exact h.takeNbr
  · exact h.takeAssign
  · exact h.epHello
  · exact h
  · exact h.epAck
  · exact h.bump

theorem State.Canonical.timePacket {port c} (h : s.Canonical) : (timePacket port c s).Canonical := by
  unfold Machine.timePacket
  split
  · exact h.timeReq
  · exact h.timeRsp
  · exact h.bump

theorem State.Canonical.lanePacket {port c} (h : s.Canonical) : (lanePacket port c s).Canonical := by
  unfold Machine.lanePacket
  split
  · exact h.takeProp
  · exact h.takeAckProp
  · exact h.takeGo
  · exact h.eiArm
  · exact h.bump

theorem State.Canonical.leafSacc {port c} (h : s.Canonical) : (leafSacc port c s).Canonical := by
  unfold Machine.leafSacc
  extract_lets _ reject
  have hreject : ∀ st1, (reject st1).Canonical := by
    intro _
    exact h.rejectAcc
  exact .ite (hreject _) (.ite (hreject _) (.ite (hreject _) h.takeContribution))

theorem State.Canonical.fabricSacc {port c mir} (h : s.Canonical) : (fabricSacc port c mir s).Canonical := by
  unfold Machine.fabricSacc
  extract_lets
  split
  · rename_i s1 e
    have hs1 : s1.Canonical := h.fabricGroup.of_snd e
    split
    · rename_i s2 _ e1 _
      exact (hs1.ingressSend.of_snd e1).resultTaken
    · rename_i e1 _
      exact hs1.ingressSend.of_snd e1
  · rename_i e
    exact (h.fabricGroup.of_snd e).mirrorOnly

theorem State.Canonical.controlGood {port c} (h : s.Canonical) : (controlGood port c s).Canonical := by
  unfold Machine.controlGood
  extract_lets _ _ here
  have hhere : ∀ f, (∀ u, u.Canonical → (f u).Canonical) → (here f).Canonical := by
    intro f hf
    exact .mirrorOnly (hf _ h.back)
  refine .ite (hhere _ fun _ hu => hu.discPacket) ?_
  refine .ite (hhere _ fun _ hu => hu.timePacket) ?_
  refine .ite (hhere _ fun _ hu => hu.lanePacket) ?_
  have hbump : ∀ f, (here (·.bump f)).Canonical := fun f => hhere _ fun _ hu => hu.bump
  refine .ite (hbump _) (.ite (.ite (hbump _) (hbump _)) ?_)
  exact .ite (.ite h.leafSacc.mirrorOnly h.fabricSacc) h.protoError

theorem State.Canonical.receiveCtl {port c crc} (h : s.Canonical) : (receiveCtl port c crc s).Canonical :=
  .ite h.protoError (.ite h.controlGood h.countBad.back)

theorem State.Canonical.receivePkt {port pk crc} (h : s.Canonical) : (receivePkt port pk crc s).Canonical := by
  unfold Machine.receivePkt
  split
  · exact h.receiveData
  · exact h.receiveCtl

theorem State.Canonical.settle (h : s.Canonical) : (settle s).Canonical := by
  unfold Machine.settle
  extract_lets _ s2 s3
  have hs2 : s2.Canonical := h.sendNacks.drainSelf.passWindow.passInputs.drainOrdered.drainNocs.drainSelf
  have hs3 : s3.Canonical := .forEach hs2 (fun _ _ hu => hu.badDops)
  exact .forEach hs3.commits.followLags.nbrCheck.freeRun.purgeDue (fun _ _ hu => hu.sendDue)

theorem State.Canonical.disarmed {port} (h : s.Canonical) : (disarmed port s).Canonical := .ite h.eiDisarm h
theorem State.Canonical.countedGroup {port} (h : s.Canonical) : (countedGroup port s).Canonical := h.disarmed.onLnk

theorem State.Canonical.arrive {port pk} (h : s.Canonical) : (arrive port pk s).Canonical :=
  .ite h.disarmed.receivePkt.settle h

theorem State.Canonical.takeUnit {port u} (h : s.Canonical) : (takeUnit port u s).Canonical := by
  unfold Machine.takeUnit
  refine .ite h ?_
  refine .ite h.rxLcu ?_
  split
  · rename_i s1 e
    have hs1 : s1.Canonical := h.rxUnit.of_snd e
    refine .ite hs1.finishStream ?_
    extract_lets
    split
    · exact hs1.receivePkt
    · exact hs1.protoError
  · rename_i s1 e
    have hs1 : s1.Canonical := h.rxUnit.of_snd e
    exact .ite hs1 hs1.streamUnit

theorem State.Canonical.takeControls {port units} (h : s.Canonical) : (takeControls port units s).Canonical :=
  .forEach h (fun _ _ hu => .ite hu hu.rxLcu)

theorem State.Canonical.takeUncounted {port units} (h : s.Canonical) : (takeUncounted port units s).Canonical := by
  unfold Machine.takeUncounted
  split
  · exact h.bump
  · exact .ite h.lcuOne h.lcuZero

theorem State.Canonical.takeCounted {port units} (h : s.Canonical) : (takeCounted port units s).Canonical := by
  unfold Machine.takeCounted
  extract_lets s1
  have hs1 : s1.Canonical := h.countedGroup
  split
  · exact hs1
  · exact .ite hs1.badGroup hs1.onLnk.takeControls
  · exact .ite hs1.badGroup (.forEach hs1.onLnk (fun _ _ hu => hu.takeUnit))

theorem State.Canonical.takeInInit {port units} (h : s.Canonical) : (takeInInit port units s).Canonical :=
  .ite h.takeControls.takeCounted h.takeControls

theorem State.Canonical.packetArrive {port units} (h : s.Canonical) : (packetArrive port units s).Canonical :=
  .ite h (.ite h.takeUncounted.settle (.ite h.takeCounted.settle h.takeInInit.settle))

end Sys2Proof.Machine
end

section
/-! SUPPORT. Resets, drafts and the Selvedge record keep the memories canonical. -/

namespace Sys2Proof.Machine

variable {s : State}

/-! ### Resets -/

theorem State.Canonical.resetRegs {hit} (h : s.Canonical) : (resetRegs hit s).Canonical := h.with_regs

theorem State.Canonical.disablePort {p} (h : s.Canonical) : (disablePort p s).Canonical :=
  .onPln (.linkLoss (.setActive (.forEach h (fun _ _ hu => hu.abortScan.laneDis))))

theorem State.Canonical.enablePort {p} (h : s.Canonical) : (enablePort p s).Canonical :=
  .ite (.forEach h (fun _ _ hu => hu.laneEn)) h

theorem State.Canonical.disableAll (h : s.Canonical) : (disableAll s).Canonical :=
  .forEach h (fun _ _ hu => hu.disablePort)

theorem State.Canonical.clearPort {p} (h : s.Canonical) : (clearPort p s).Canonical :=
  .forEach (.forEach h.onLnk.onPdisc.onPln.onPsch (fun _ _ hu => hu.onQsch)) (fun _ _ hu => hu.onLane)

theorem State.Canonical.takesCredits {p} (h : s.Canonical) : (takesCredits p s).Canonical := h.onLnk

theorem State.Canonical.portClear {p} (h : s.Canonical) : (portClear p s).Canonical :=
  .clearPort (.forEach h.disablePort.flushPort.resetRegs (fun _ _ hu => .ite hu.endLive hu))

theorem State.Canonical.portReset {p} (h : s.Canonical) : (portReset p s).Canonical := h.portClear.enablePort

theorem State.Canonical.removeInputs {f} (h : s.Canonical) : (removeInputs f s).Canonical :=
  .forEach h.with_grp (fun _ _ hu => hu.dropInput)

theorem State.Canonical.endTrackers {cs} (h : s.Canonical) : (endTrackers cs s).Canonical := by
  unfold Machine.endTrackers
  refine .forEach h fun _ _ hu => ?_
  split
  · exact .ite hu.freeSheets.freeTrk hu
  · exact hu

theorem State.Canonical.purgeRequests {cs} (h : s.Canonical) : (purgeRequests cs s).Canonical := by
  unfold Machine.purgeRequests
  extract_lets _ _ _ s2 s3 _ _ s4 _ _ _ _ s6 s7 _ s8
  have hs2 : s2.Canonical := .forEach h.with_fab (fun _ _ hu => hu.takeReq)
  have hs3 : s3.Canonical := .forEach hs2 (fun _ _ hu => .forEach hu.onSht (fun _ _ hv => hv.takeReq))
  have hs4 : s4.Canonical := .forEach hs3.with_fab (fun _ _ hu => hu.takeReq)
  have hs6 : s6.Canonical := .forEach hs4.with_shts (fun _ _ hu => hu.takeReq)
  have hs7 : s7.Canonical := .forEach hs6 (fun _ _ hu => .ite hu.setDir hu)
  have hs8 : s8.Canonical := .forEach hs7 (fun _ _ hu => hu.setFan)
  exact hs8.with_fab

theorem State.Canonical.purgeOrt {cs} (h : s.Canonical) : (purgeOrt cs s).Canonical :=
  .forEach h (fun _ _ hu => .ite hu.endEntry hu)

theorem State.Canonical.purge {cs} (h : s.Canonical) : (purge cs s).Canonical :=
  h.with_core.dropAdmission.purgeHeads.removeHeld.removeInputs.purgeRequests.purgeOrt

theorem State.Canonical.scrub {c} (h : s.Canonical) : (scrub c s).Canonical := by
  unfold Machine.scrub
  extract_lets _ _ s1 _ _ _ _ s3 _ s4
  have hs1 : s1.Canonical := by
    unfold s1
    refine .forEach h fun _ _ hu => ?_
    split
    · exact .ite hu hu.zeroRange
    · exact hu
  have hs3 : s3.Canonical := by
    unfold s3
    refine .forEach hs1.with_grp fun _ _ hu => ?_
    split
    · exact hu.zeroRange
    · exact hu
  have hs4 : s4.Canonical := .forEach hs3 (fun _ _ hu => hu.setDir)
  exact .forEach hs4 (fun _ _ hu => .ite hu.unloadSht hu)

theorem State.Canonical.setCapWord {a n} (h : s.Canonical) : (setCapWord a n s).Canonical :=
  .writeBytes h (fun _ _ _ hu => hu.setCapByte)

theorem State.Canonical.takeSample {c} (h : s.Canonical) : (takeSample c s).Canonical := by
  unfold Machine.takeSample
  extract_lets _ _ _ _ _ _ _ _ s1 _ s2 s3 s4
  have hs1 : s1.Canonical := h.with_mem_cap
  have hs2 : s2.Canonical := .forEach hs1 (fun _ _ hu => hu.setCapWord)
  have hs3 : s3.Canonical := .forEach hs2 (fun _ _ hu => .forEach hu (fun _ _ hv => hv.setCapWord))
  have hs4 : s4.Canonical :=
    .forEach hs3 (fun _ _ hu => .writeBytes hu.setCapWord.setCapWord (fun _ _ _ hv => hv.setCapByte))
  exact hs4.setFlag.setFld.setFlag.setFlag

theorem State.Canonical.sampleStep {r} (h : s.Canonical) : (sampleStep r s).Canonical :=
  .ite (.ite h.setFlag (.forEach h (fun _ _ hu => hu.takeSample))) h

theorem State.Canonical.ctxResetSteps (h : s.Canonical) : (ctxResetSteps s).Canonical := by
  unfold Machine.ctxResetSteps
  split
  · exact h
  · exact .ite h h.sampleStep.endTrackers.purge.with_ctxRst

theorem State.Canonical.prevail {cs} (h : s.Canonical) : (prevail cs s).Canonical := by
  unfold Machine.prevail
  split
  · exact .ite h.with_grp h
  · exact h

theorem State.Canonical.startCtxReset {cs sample panel} (h : s.Canonical) :
    (startCtxReset cs sample panel s).Canonical :=
  .ctxResetSteps (.with_ctxRst (.forEach h.prevail.wr (fun _ _ hu => hu.bumpSel)))

theorem State.Canonical.contextReset {val} (h : s.Canonical) : (contextReset val s).Canonical :=
  .ite h.storeReg.startCtxReset h.storeReg

theorem State.Canonical.ctxResetTmo (h : s.Canonical) : (ctxResetTmo s).Canonical := by
  unfold Machine.ctxResetTmo
  split
  · exact .ite h.with_ctxRst.raiseCause h
  · exact h

theorem State.Canonical.ctxDomain {c} (h : s.Canonical) : (ctxDomain c s).Canonical := by
  unfold Machine.ctxDomain
  extract_lets b n mine inC s1 _ _ s2
  have hs1 : s1.Canonical := h.resetRegs
  have hs2 : s2.Canonical := hs1.of_mem rfl
  exact hs2.setFlag

theorem State.Canonical.finishCtxReset {r} (h : s.Canonical) : (finishCtxReset r s).Canonical := by
  unfold Machine.finishCtxReset
  extract_lets s1
  have hs1 : s1.Canonical := .forEach (.forEach h (fun _ _ hu => hu.scrub)) (fun _ _ hu => hu.ctxDomain)
  exact hs1.with_ctxRst.setFlag.setFld.setFld.endLive.raiseInt

theorem State.Canonical.captureRelease {val} (h : s.Canonical) : (captureRelease val s).Canonical :=
  .ite h.setFlag.setFld h

theorem State.Canonical.dieStep1 {d} (h : s.Canonical) : (dieStep1 d s).Canonical := by
  unfold Machine.dieStep1
  extract_lets _ s2
  have hs2 : s2.Canonical := .forEach h.setFlag (fun _ _ hu => hu.setWeight)
  refine .forEach hs2.homeRebuild fun _ _ hu => ?_
  split
  · exact .ite hu.endTrk hu
  · exact hu

theorem State.Canonical.loseXfers {d} (h : s.Canonical) : (loseXfers d s).Canonical :=
  .forEach h (fun _ _ hu => hu.closeCells.mapCopies.endXfer)

theorem State.Canonical.loseTables (h : s.Canonical) : (loseTables s).Canonical := h.resetRegs.with_grp

theorem State.Canonical.dieWipe {d} (h : s.Canonical) : (dieWipe d s).Canonical := by
  unfold Machine.dieWipe
  extract_lets s1 _ _ _ _ s6 s7
  have hs1 : s1.Canonical := .forEach h fun _ _ hu => hu.disablePort
  have hs6 : s6.Canonical := hs1.loseXfers.removeCopies.removeHeld.removeInputs.resetRegs
  have hs7 : s7.Canonical := .ite hs6.loseTables hs6
  exact hs7.of_erase_sheets rfl

theorem State.Canonical.dropMigration {d} (h : s.Canonical) : (dropMigration d s).Canonical := by
  unfold Machine.dropMigration
  extract_lets _ _ _ s2
  have hs2 : s2.Canonical := h.with_shts.windowBack
  split
  · exact .ite hs2.with_shts.setFlag.raiseInt.windowBack hs2
  · exact hs2

theorem State.Canonical.dieRequests {d} (h : s.Canonical) : (dieRequests d s).Canonical := by
  unfold Machine.dieRequests
  extract_lets _ _ _ _ _ s2 s3
  have hs2 : s2.Canonical := .forEach h.with_fab (fun _ _ hu => hu.onSht)
  have hs3 : s3.Canonical := .forEach hs2 (fun _ _ hu => hu.takeReq.answer)
  exact .forEach hs3 (fun _ _ hu => hu.answer)

theorem State.Canonical.showAllLive (h : s.Canonical) : (showAllLive s).Canonical :=
  .forEach h (fun _ _ hu => hu.showLive)

theorem State.Canonical.dieHold {d} (h : s.Canonical) : (dieHold d s).Canonical :=
  h.dieStep1.dropMigration.dieRequests.dieWipe.showAllLive.showRedirects

theorem State.Canonical.restartClocks (h : s.Canonical) : (restartClocks s).Canonical := h.of_mem rfl

/-! ### Drafts -/

theorem State.Canonical.setRegionSlot {kind region v} (h : s.Canonical) : (setRegionSlot kind region v s).Canonical :=
  h.with_drf

theorem State.Canonical.barAfter {off} (h : s.Canonical) : (barAfter off s).Canonical := by
  unfold Machine.barAfter
  refine .ite ?_ h
  split
  · exact h.storeReg
  · exact h

theorem State.Canonical.applyRecord {r} (h : s.Canonical) : (applyRecord r s).Canonical := by
  unfold Machine.applyRecord
  extract_lets _ _ s1 keep
  have hs1 : s1.Canonical := h.wr.barAfter
  have hkeep : ∀ k1 u, u.Canonical → (keep k1 u).Canonical := fun _ _ hu => hu.onRver
  refine .ite (hkeep _ _ hs1) ?_
  split
  · exact hkeep _ _ hs1
  · exact hs1

theorem State.Canonical.applyRecords {l} (h : s.Canonical) : (applyRecords l s).Canonical :=
  .forEach (.forEach h (fun _ _ hu => hu.applyRecord)) (fun _ _ hu => hu.fillPolicer)

theorem State.Canonical.clearDl {these} (h : s.Canonical) : (clearDl these s).Canonical := h.with_regs
theorem State.Canonical.setShared {d} (h : s.Canonical) : (setShared d s).Canonical := h.setFld.showFree
theorem State.Canonical.fillCells {d} (h : s.Canonical) : (fillCells d s).Canonical := h.setDescStack.setStack.setFld

theorem State.Canonical.takeSpareMap {d m} (h : s.Canonical) : (takeSpareMap d m s).Canonical := by
  unfold Machine.takeSpareMap
  extract_lets _ s1 s2
  have hs1 : s1.Canonical := .forEach h (fun _ _ hu => hu.setRole)
  have hs2 : s2.Canonical := .forEach hs1 (fun _ _ hu => hu.setRole)
  refine .forEach hs2 fun x u hu => ?_
  extract_lets q
  cases q with
  | none => exact hu.unmapSht
  | some => exact hu.mapSht

theorem State.Canonical.bootDie {d} (h : s.Canonical) : (bootDie d s).Canonical := by
  unfold Machine.bootDie
  extract_lets _ _ _ _ _ s6 s7
  have hs6 : s6.Canonical := h.fillCells.applyRecords.applyRecords.applyRecords.applyRecords.takeSpareMap
  have hs7 : s7.Canonical := .forEach hs6 (fun _ _ hu => hu.writeSheds)
  exact .forEach hs7.with_ecc.setShared (fun _ _ hu => hu.enablePort)

theorem State.Canonical.holdSlot {slot} (h : s.Canonical) : (holdSlot slot s).Canonical :=
  .forEach h.with_drf (fun _ _ hu => hu.setRegionSlot)

theorem State.Canonical.showActiveDraft {slot} (h : s.Canonical) : (showActiveDraft slot s).Canonical :=
  h.setFlag.setFld.setFlag.setFld.setFld

theorem State.Canonical.applyDraft {slot} (h : s.Canonical) : (applyDraft slot s).Canonical := by
  unfold Machine.applyDraft
  extract_lets _ _ s3 s4
  have hs3 : s3.Canonical := .forEach h.holdSlot.showActiveDraft.applyRecords (fun _ _ hu => hu.applyRecords)
  have hs4 : s4.Canonical := .forEach hs3 (fun _ _ hu => hu.bootDie)
  exact hs4.homeRebuild

theorem State.Canonical.showRefusal {slot r} (h : s.Canonical) : (showRefusal slot r s).Canonical := by
  unfold Machine.showRefusal
  extract_lets _ s2 s3
  have hs2 : s2.Canonical := h.setFld.setFld
  have hs3 : s3.Canonical := .ite hs2 hs2.setFld
  split
  · exact hs3.setFld
  · exact .withFree hs3 (fun _ _ hu => hu.setFld)

/-! ### Draft reloads -/

theorem State.Canonical.onLoad {f} (h : s.Canonical) : (onLoad f s).Canonical := h.with_drf

theorem State.Canonical.endLoad {result} (h : s.Canonical) : (endLoad result s).Canonical :=
  h.with_drf.setFlag.setFld.raiseInt

theorem State.Canonical.draftLoad {val} (h : s.Canonical) : (draftLoad val s).Canonical :=
  .ite h.storeReg.setFlag.with_drf h.storeReg

theorem State.Canonical.offerSheds {p} (h : s.Canonical) : (offerSheds p s).Canonical :=
  .ite h.with_ecc.onPsch h.with_ecc.writeSheds

theorem State.Canonical.applyPorts {k slot ports} (h : s.Canonical) : (applyPorts k slot ports s).Canonical := by
  unfold Machine.applyPorts
  extract_lets _ _ _ s1 _ _ s4 s5
  have hs1 : s1.Canonical := .forEach h (fun _ _ hu => hu.portClear)
  have hs4 : s4.Canonical := hs1.setRegionSlot.clearDl.applyRecords.applyRecords
  have hs5 : s5.Canonical := .forEach hs4 (fun _ _ hu => hu.takesCredits.writeSheds)
  exact .forEach hs5.setShared (fun _ _ hu => hu.enablePort)

theorem State.Canonical.applyShuttles {d slot} (h : s.Canonical) : (applyShuttles d slot s).Canonical := by
  unfold Machine.applyShuttles
  extract_lets _ _ _ s2
  have hs2 : s2.Canonical := .forEach h.with_shts (fun _ _ hu => hu.switchOne)
  exact .forEach hs2.windowBack.setRegionSlot.applyRecords (fun _ _ hu => hu.refreshWeight)

theorem State.Canonical.changeContexts {k slot f} (h : s.Canonical) : (changeContexts k slot f s).Canonical :=
  h.clearDl.applyRecords

theorem State.Canonical.changeOthers {k slot} (h : s.Canonical) : (changeOthers k slot s).Canonical := by
  unfold Machine.changeOthers
  exact h.changeContexts

theorem State.Canonical.applyContexts {k slot} (h : s.Canonical) : (applyContexts k slot s).Canonical :=
  h.changeContexts.setRegionSlot

theorem State.Canonical.applyTreadling {c slot} (h : s.Canonical) : (applyTreadling c slot s).Canonical :=
  .forEach h.setRegionSlot (fun _ _ hu => hu.offerSheds)

theorem State.Canonical.startPanelMigs {d slot} (h : s.Canonical) : (startPanelMigs d slot s).Canonical :=
  .forEach h.with_shts.setFlag (fun _ _ hu => hu.wakeSht)

theorem State.Canonical.beginDrain (h : s.Canonical) : (beginDrain s).Canonical := by
  unfold Machine.beginDrain
  split
  · exact h
  · split
    · exact .ite h.startPanelMigs h
    · exact .ite h.startCtxReset h
    · exact h

theorem State.Canonical.finishLoad (h : s.Canonical) : (finishLoad s).Canonical := by
  unfold Machine.finishLoad
  split
  · exact .ite h.holdSlot.showActiveDraft.endLoad h
  · exact h

theorem State.Canonical.notePanel (h : s.Canonical) : (notePanel s).Canonical := h.onLoad.setFlag

theorem State.Canonical.nextPanel {n} (h : s.Canonical) : (nextPanel n s).Canonical := by
  induction n generalizing s with
  | zero => exact h
  | succ n ih =>
    unfold Machine.nextPanel
    split
    · exact h
    · split
      · extract_lets _ s1 wait ports
        have hs1 : s1.Canonical := h.onLoad.setFld
        have hwait : ∀ ports u, u.Canonical → (wait ports u).Canonical := fun _ _ hu => hu.onLoad.beginDrain
        refine .ite (.ite (hwait _ _ (.forEach hs1 fun _ _ hu => hu.onLnk)) (ih hs1.applyPorts.notePanel)) ?_
        refine .ite (.ite (ih hs1.applyShuttles.notePanel) (hwait _ _ hs1)) ?_
        refine .ite (.ite (ih hs1.changeOthers.applyContexts.notePanel) (hwait _ _ hs1.changeOthers)) ?_
        exact ih hs1.applyTreadling.notePanel
      · exact h

theorem State.Canonical.loadOn (h : s.Canonical) : (loadOn s).Canonical := by
  unfold Machine.loadOn
  split
  · exact h.nextPanel.finishLoad
  · exact h

theorem State.Canonical.draftVerified (h : s.Canonical) : (draftVerified s).Canonical := by
  unfold Machine.draftVerified
  split
  · exact h
  · refine .ite h ?_
    extract_lets
    split
    · exact h.showRefusal.endLoad
    · exact .ite h.onLoad.loadOn h.applyDraft.endLoad

theorem State.Canonical.panelDrained (h : s.Canonical) : (panelDrained s).Canonical := by
  unfold Machine.panelDrained
  split
  · exact h
  · split
    · exact .ite h.applyPorts.notePanel.loadOn h
    · exact .ite h.applyShuttles.setFlag.setFld.raiseInt.notePanel.loadOn h
    · exact h

theorem State.Canonical.liftFreezes (h : s.Canonical) : (liftFreezes s).Canonical :=
  .ite h h.with_shts.setFlag.raiseInt.windowBack

theorem State.Canonical.drainTimeout (h : s.Canonical) : (drainTimeout s).Canonical := by
  unfold Machine.drainTimeout
  split
  · exact h
  · refine .ite h ?_
    split
    · exact .loadOn (.notePanel (.applyPorts (.forEach h (fun _ _ hu => hu.flushPort))))
    · exact h.liftFreezes.endLoad
    · exact h

theorem State.Canonical.abandonLoad (h : s.Canonical) : (abandonLoad s).Canonical := by
  unfold Machine.abandonLoad
  split
  · exact h
  · extract_lets release s1
    have hrelease : ∀ p1 u, u.Canonical → (release p1 u).Canonical :=
      fun _ _ hu => .forEach hu.onLnk (fun _ _ hu => hu.giveCredits)
    have hs1 : s1.Canonical := .forEach h.liftFreezes (fun _ _ hu => hrelease _ _ hu)
    exact hs1.setFlag.endLoad

theorem State.Canonical.contextResetDone (h : s.Canonical) : (contextResetDone s).Canonical := by
  unfold Machine.contextResetDone
  extract_lets s1
  have hs1 : s1.Canonical := h.ctxResetSteps
  split
  · exact hs1
  · refine .ite hs1 ?_
    extract_lets s2
    have hs2 : s2.Canonical := hs1.finishCtxReset
    split
    · exact hs2
    · split
      · exact .ite hs2.applyContexts.notePanel.loadOn hs2.beginDrain
      · exact hs2

theorem State.Canonical.switchCycle (h : s.Canonical) : (switchCycle s).Canonical := h.switchNow.beginDrain
theorem State.Canonical.handover {p} (h : s.Canonical) : (handover p s).Canonical := h.treadlingHandover.finishLoad

theorem State.Canonical.portResetWrite {val} (h : s.Canonical) : (portResetWrite val s).Canonical :=
  .ite h.storeReg.portReset h.storeReg

theorem State.Canonical.shuttleResetWrite {val} (h : s.Canonical) : (shuttleResetWrite val s).Canonical :=
  .ite h.storeReg.resetRegs.onSht h.storeReg

/-! ### The Selvedge record -/

theorem State.Canonical.takeHalf {h1 l} (h : s.Canonical) : (takeHalf h1 l s).Canonical := by
  unfold Machine.takeHalf
  extract_lets _ s1 s2
  have hs1 : s1.Canonical := .writeBytes h.with_mem_sel (fun _ _ _ hu => hu.setSelByte)
  have hs2 : s2.Canonical := hs1.setFlag.setFld
  exact hs2.of_mem rfl

theorem State.Canonical.freshRecord (h : s.Canonical) : (freshRecord s).Canonical := by
  unfold Machine.freshRecord
  extract_lets _ s1 s2
  have hs2 : s2.Canonical := h.with_mem_sel.setFlag
  exact hs2.of_mem rfl

theorem State.Canonical.selConst (h : s.Canonical) : (selConst s).Canonical :=
  .writeBytes h.setSelWord.setSelWord (fun _ _ _ hu => hu.setSelByte)

theorem State.Canonical.loadSelvedge (h : s.Canonical) : (loadSelvedge s).Canonical := by
  unfold Machine.loadSelvedge
  refine .selConst ?_
  split
  · exact h.takeHalf
  · exact h.freshRecord

theorem State.Canonical.startSelWrite (h : s.Canonical) : (startSelWrite s).Canonical := .ite h.with_mgt h.setFlag

theorem State.Canonical.selHeader (h : s.Canonical) : (selHeader s).Canonical :=
  h.selConst.setSelWord.setSelWord.setSelWord

theorem State.Canonical.flashWrite {a l} (h : s.Canonical) : (flashWrite a l s).Canonical :=
  .writeBytes h (fun _ _ _ hu => hu.setFlashByte)

theorem State.Canonical.flashErase {a n} (h : s.Canonical) : (flashErase a n s).Canonical := flashErase_wf a n s h

theorem State.Canonical.storeHalf {h1 n l} (h : s.Canonical) : (storeHalf h1 n l s).Canonical :=
  h.flashErase.flashWrite.setFld.with_mgt

theorem State.Canonical.storeSelvedge (h : s.Canonical) : (storeSelvedge s).Canonical := h.selHeader.storeHalf

theorem State.Canonical.spoilSelvedge (h : s.Canonical) : (spoilSelvedge s).Canonical :=
  .with_mgt (.withFree h.selHeader.setFlag.setFld (fun _ _ hu => hu.flashWrite))

theorem State.Canonical.dumpCapture (h : s.Canonical) : (dumpCapture s).Canonical := h.flashErase.flashWrite.flashWrite

theorem State.Canonical.selWriteDone {ok} (h : s.Canonical) : (selWriteDone ok s).Canonical := by
  unfold Machine.selWriteDone
  refine .ite h ?_
  extract_lets s1 s2 _ s3 s4
  have hs1 : s1.Canonical := .ite h.storeSelvedge h.spoilSelvedge
  have hs2 : s2.Canonical := hs1.setFlag.raiseInt
  have hs3 : s3.Canonical := hs2.with_flt
  have hs4 : s4.Canonical := .ite (.ite hs3.dumpCapture hs3) hs2
  exact .ite hs4.with_mgt.startSelWrite hs4

theorem State.Canonical.selFlush {val} (h : s.Canonical) : (selFlush val s).Canonical := .ite h.startSelWrite h

theorem State.Canonical.fecHistogram {n corrected} (h : s.Canonical) : (fecHistogram n corrected s).Canonical :=
  .ite h.bumpSel h

theorem State.Canonical.tempHistogram (h : s.Canonical) : (tempHistogram s).Canonical := by
  unfold Machine.tempHistogram
  extract_lets s'
  have hs' : s'.Canonical := by
    unfold s'
    refine .forEach h fun _ _ hu => ?_
    split
    · exact hu.bumpSel
    · exact hu
  exact hs'.with_pwr

end Sys2Proof.Machine
end

section
/-! SUPPORT. Power and recovery keep the memories canonical. -/

namespace Sys2Proof.Machine

variable {s : State}

/-! ### Power -/

theorem State.Canonical.setSeq {n} (h : s.Canonical) : (setSeq n s).Canonical := h.setFld

theorem State.Canonical.fatalStop (h : s.Canonical) : (fatalStop s).Canonical :=
  .forEach h.abandonLoad.disableAll (fun _ _ hu => .ite hu hu.dieHold)

theorem State.Canonical.deckleSend {o} (h : s.Canonical) : (deckleSend o s).Canonical := .ite h (.ite h.with_mgt h.emit)

theorem State.Canonical.drive {r mv} (h : s.Canonical) : (drive r mv s).Canonical :=
  .ite h.setFlag (.ite (.deckleSend (.ite h.deckleSend h)) h)

theorem State.Canonical.offHead (h : s.Canonical) : (offHead s).Canonical := by
  unfold Machine.offHead
  split
  · exact h.drive.with_pwr
  · exact h

theorem State.Canonical.switchOff {l} (h : s.Canonical) : (switchOff l s).Canonical := h.with_pwr.offHead

theorem State.Canonical.startDown {emergency} (h : s.Canonical) : (startDown emergency s).Canonical :=
  .ite h.disableAll.setSeq.setFlag.with_pwr.switchOff h.disableAll.setSeq.setFlag.with_pwr

theorem State.Canonical.emergencyDown (h : s.Canonical) : (emergencyDown s).Canonical := .ite h.startDown h

theorem State.Canonical.raiseFatal {c loc detail} (h : s.Canonical) : (raiseFatal c loc detail s).Canonical := by
  unfold Machine.raiseFatal
  extract_lets _ _ _ s3
  have hs3 : s3.Canonical := h.raiseCause.setFlag.with_flt.startSelWrite
  exact .ite hs3.emergencyDown hs3.fatalStop

theorem State.Canonical.watchAlert {f} (h : s.Canonical) (hf : ∀ u, u.Canonical → (f u).Canonical) :
    (watchAlert f s).Canonical :=
  .ite (.raiseInt (hf _ h)) (hf _ h)

theorem State.Canonical.setAlert {bit} (h : s.Canonical) : (setAlert bit s).Canonical :=
  .watchAlert h (fun _ hu => hu.setFlag)

theorem State.Canonical.ownPins (h : s.Canonical) : (ownPins s).Canonical :=
  .forEach h (fun _ _ hu => hu.setFlag.setFlag.setFlag)

theorem State.Canonical.requestMv {mv} (h : s.Canonical) : (requestMv mv s).Canonical :=
  .ite h (.ite h.setFld.deckleSend h.setFld)

theorem State.Canonical.lowerRequest (h : s.Canonical) : (lowerRequest s).Canonical := .ite h.requestMv h
theorem State.Canonical.setCheckDue {n b} (h : s.Canonical) : (setCheckDue n b s).Canonical := h.with_mgt

theorem State.Canonical.busCheck {n sda} (h : s.Canonical) : (busCheck n sda s).Canonical := by
  unfold Machine.busCheck
  extract_lets s1
  have hs1 : s1.Canonical := h.setCheckDue
  split
  · exact hs1.setFlag.emit
  · exact .emit (.setFlag (.ite hs1 hs1.setFld))

theorem State.Canonical.deckleGo (h : s.Canonical) : (deckleGo s).Canonical := h.of_mem rfl

theorem State.Canonical.endI2c {n result} (h : s.Canonical) : (endI2c n result s).Canonical :=
  .ite h.setFlag.setFld.raiseInt.deckleGo h.setFlag.setFld.raiseInt

theorem State.Canonical.railOn {r} (h : s.Canonical) : (railOn r s).Canonical :=
  .with_pwr (.setFld (.drive (.ite h.setFld h)))

theorem State.Canonical.railIsGood {r} (h : s.Canonical) : (railIsGood r s).Canonical := h.setFld.setFlag

theorem State.Canonical.readFuses (h : s.Canonical) : (readFuses s).Canonical :=
  .forEach (.forEach h.wr.wr.setFld (fun _ _ hu => hu.wr)) (fun _ _ hu => hu.setFld)

theorem State.Canonical.readBoard {b} (h : s.Canonical) : (readBoard b s).Canonical := by
  unfold Machine.readBoard
  extract_lets s1 s2 _ _ _ _ s4
  have hs1 : s1.Canonical := h.setFld
  have hs2 : s2.Canonical := .ite hs1.setFld hs1
  have hs4 : s4.Canonical := hs2.busCheck.of_mem rfl
  exact .ite hs4.busCheck hs4

theorem State.Canonical.powerUp {b} (h : s.Canonical) : (powerUp b s).Canonical := by
  unfold Machine.powerUp
  refine .ite h ?_
  extract_lets _ _ _ _ _ s4 s5 s6 s7
  have hs4 : s4.Canonical := h.with_pwr.readFuses.loadSelvedge.bumpSel.with_pwr.readBoard
  have hs5 : s5.Canonical := .ite hs4.raise hs4
  have hs6 : s6.Canonical := .ite hs5.raise hs5
  have hs7 : s7.Canonical := .ite hs6.raiseFatal hs6
  exact hs7.railIsGood.railIsGood.ownPins.setSeq.railOn

theorem State.Canonical.trainPcie (h : s.Canonical) : (trainPcie s).Canonical := .ite h h.emit
theorem State.Canonical.tileUp (h : s.Canonical) : (tileUp s).Canonical := .trainPcie (.restartClocks (h.of_mem rfl))

theorem State.Canonical.powerGood (h : s.Canonical) : (powerGood s).Canonical :=
  .ite h.setSeq.setFlag.with_pwr h.setSeq.setFlag.with_pwr.tileUp

theorem State.Canonical.railGood {r} (h : s.Canonical) : (railGood r s).Canonical :=
  .ite (.ite h.railIsGood.powerGood h.railIsGood.railOn) (.ite h.with_pwr.railIsGood h)

theorem State.Canonical.railSeqFail (h : s.Canonical) : (railSeqFail s).Canonical :=
  .ite h.setSeq.raiseFatal.switchOff h

theorem State.Canonical.wipeSram (h : s.Canonical) : (wipeSram s).Canonical := h.of_flash_sel rfl

theorem State.Canonical.orderlyDown {val} (h : s.Canonical) : (orderlyDown val s).Canonical :=
  .ite h.storeReg.startDown h.storeReg

theorem State.Canonical.wipeDone (h : s.Canonical) : (wipeDone s).Canonical := .ite (.switchOff (.ite h.wipeSram h)) h

theorem State.Canonical.nextOff (h : s.Canonical) : (nextOff s).Canonical :=
  .ite (.ite h.with_pwr.with_pwr.setSeq.startSelWrite h.with_pwr.with_pwr) h.with_pwr.offHead

theorem State.Canonical.railOff {r} (h : s.Canonical) : (railOff r s).Canonical := by
  unfold Machine.railOff
  split
  · exact .ite h.setFld.setFlag.nextOff h
  · exact h

theorem State.Canonical.seqError {r step} (h : s.Canonical) : (seqError r step s).Canonical :=
  .setAlert (.setFlag (.ite h h.setFld.setFld))

theorem State.Canonical.railEvent {kind r step} (h : s.Canonical) : (railEvent kind r step s).Canonical :=
  .withFree h (fun _ _ hu => hu.appendEvent)

theorem State.Canonical.railOffFail {r} (h : s.Canonical) : (railOffFail r s).Canonical := by
  unfold Machine.railOffFail
  split
  · exact .ite h.railEvent.seqError.nextOff h
  · exact h

theorem State.Canonical.setRailMon {r v} (h : s.Canonical) : (setRailMon r v s).Canonical := h.with_pwr

theorem State.Canonical.watchOn {r mv out} (h : s.Canonical) : (watchOn r mv out s).Canonical := by
  unfold Machine.watchOn
  extract_lets _ _ _ _ s1 s2
  have hs1 : s1.Canonical := h.setRailMon
  have hs2 : s2.Canonical := .ite hs1 (.ite hs1.endLive hs1)
  exact .ite hs2.bumpSel.raise.setAlert hs2

theorem State.Canonical.watchDown {r mv} (h : s.Canonical) : (watchDown r mv s).Canonical :=
  .ite (.ite h.setRailMon.railEvent.seqError.with_pwr h.setRailMon.railEvent.seqError) h

theorem State.Canonical.sampleRail {r mv} (h : s.Canonical) : (sampleRail r mv s).Canonical := by
  unfold Machine.sampleRail
  extract_lets s1 _ _ s2
  have hs1 : s1.Canonical := h.setFld
  have hs2 : s2.Canonical := hs1.setFld.setFlag
  exact .ite hs1 (.ite hs2.watchOn (.ite hs2.watchDown hs2))

theorem State.Canonical.railMonitor {mv} (h : s.Canonical) : (railMonitor mv s).Canonical :=
  .forEach h (fun _ _ hu => hu.sampleRail)

theorem State.Canonical.railFault {r} (h : s.Canonical) : (railFault r s).Canonical := by
  unfold Machine.railFault
  split
  · exact .ite h.raiseFatal h
  · exact h

theorem State.Canonical.setThr {d r v} (h : s.Canonical) : (setThr d r v s).Canonical := h.with_pwr

theorem State.Canonical.showLevels (h : s.Canonical) : (showLevels s).Canonical :=
  .forEach h (fun _ _ hu => hu.setFld.setFld.setFld)

theorem State.Canonical.withLevels {f} (h : s.Canonical) (hf : ∀ u, u.Canonical → (f u).Canonical) :
    (withLevels f s).Canonical :=
  .forEach (.showLevels (hf _ h)) (fun _ _ hu => .ite hu.bump.setAlert hu)

theorem State.Canonical.phaseSelect {val} (h : s.Canonical) : (phaseSelect val s).Canonical :=
  .withLevels h (fun _ hu => hu.storeReg)

theorem State.Canonical.levelStep {d} (h : s.Canonical) : (levelStep d s).Canonical := by
  unfold Machine.levelStep
  refine .ite h ?_
  extract_lets
  refine .ite h.setFld.lowerRequest ?_
  exact .ite (.ite h.setFld (.ite (.ite h.with_pwr.requestMv (.ite h h.setFld)) (.ite h.setFld h))) h.lowerRequest

theorem State.Canonical.moveThr {d r above below span} (h : s.Canonical) :
    (moveThr d r above below span s).Canonical := by
  unfold Machine.moveThr
  extract_lets
  refine .ite h.setThr ?_
  refine .ite ?_ h.setThr
  split
  · exact h.setThr
  · exact .ite h.setThr h

theorem State.Canonical.pcap {watts} (h : s.Canonical) : (pcap watts s).Canonical :=
  .withLevels h (fun _ hu => .forEach hu (fun _ _ hv => .ite hv.setThr hv.moveThr))

theorem State.Canonical.icap {amps} (h : s.Canonical) : (icap amps s).Canonical :=
  .withLevels h.setFld (fun _ hu => .forEach hu (fun _ _ hv => .ite hv.setThr hv.moveThr))

theorem State.Canonical.droop {d stretch} (h : s.Canonical) : (droop d stretch s).Canonical := by
  unfold Machine.droop
  refine .ite h ?_
  refine .withLevels h fun _ hu => ?_
  extract_lets
  refine .ite hu.setThr ?_
  split
  · exact hu
  · exact .ite hu.setThr hu

theorem State.Canonical.temp {d} (h : s.Canonical) : (temp d s).Canonical :=
  .ite h (.withLevels h (fun _ hu => .ite (.ite hu.setThr hu.setThr) hu.moveThr))

theorem State.Canonical.setExt {low} (h : s.Canonical) : (setExt low s).Canonical :=
  .withLevels h (fun _ hu => .forEach hu.with_pwr (fun _ _ hv => hv.setThr))

theorem State.Canonical.droopTrip {d} (h : s.Canonical) : (droopTrip d s).Canonical := .ite h h.setFlag.with_pwr
theorem State.Canonical.stretchEnd {d} (h : s.Canonical) : (stretchEnd d s).Canonical := .ite h.setFlag h
theorem State.Canonical.energyUpdate {uj} (h : s.Canonical) : (energyUpdate uj s).Canonical := h.setFld.setFld

theorem State.Canonical.takeReading {i t'} (h : s.Canonical) : (takeReading i t' s).Canonical := by
  unfold Machine.takeReading
  extract_lets _ _ s1 s2 _ _ _ s3 _ s4
  have hs1 : s1.Canonical := h.setFld
  have hs2 : s2.Canonical := .ite hs1.setFld hs1
  have hs3 : s3.Canonical := hs2.with_pwr
  have hs4 : s4.Canonical := .ite hs3.setAlert hs3
  exact .ite hs4.beginLive (.ite hs4.endLive hs4)

theorem State.Canonical.thermtrip {i t'} (h : s.Canonical) : (thermtrip i t' s).Canonical :=
  .ite h.takeReading.raiseFatal h.takeReading

theorem State.Canonical.enterStandby {d} (h : s.Canonical) : (enterStandby d s).Canonical := by
  unfold Machine.enterStandby
  extract_lets s1 _ _ s4
  have hs1 : s1.Canonical := .forEach h (fun _ _ hu => hu.setShtP.unloadSht)
  have hs4 : s4.Canonical := .forEach hs1.setFlag.setFlag (fun _ _ hu => hu.setThr)
  exact .lowerRequest (.withLevels hs4.setFld fun _ hu => hu)

theorem State.Canonical.relock {d lvl} (h : s.Canonical) : (relock d lvl s).Canonical :=
  .ite h.setFld.with_pwr.requestMv h.setFld

theorem State.Canonical.leaveStandby {d} (h : s.Canonical) : (leaveStandby d s).Canonical :=
  .relock (.withLevels h.setFlag fun _ hu => hu)

theorem State.Canonical.writeDieCtl {d val} (h : s.Canonical) : (writeDieCtl d val s).Canonical := by
  unfold Machine.writeDieCtl
  extract_lets s1
  have hs1 : s1.Canonical := .withLevels h (fun _ hu => hu.storeReg.setThr)
  exact .ite (.ite hs1 (.ite hs1.enterStandby hs1.setFlag)) (.ite hs1.leaveStandby hs1)

theorem State.Canonical.writeStandby {d b} (h : s.Canonical) : (writeStandby d b s).Canonical := h.writeDieCtl
theorem State.Canonical.aonClkLoss (h : s.Canonical) : (aonClkLoss s).Canonical := .ite h h.with_pwr.raise

theorem State.Canonical.coreClkLoss (h : s.Canonical) : (coreClkLoss s).Canonical :=
  .ite h.raise.rebaseTime h.raise.rebaseTime.setTimeLocked

theorem State.Canonical.coreClkReturn (h : s.Canonical) : (coreClkReturn s).Canonical := h.endLive

theorem State.Canonical.laneClkLoss {b} (h : s.Canonical) : (laneClkLoss b s).Canonical := by
  unfold Machine.laneClkLoss
  extract_lets s1
  have hs1 : s1.Canonical := h.raise
  exact .forEach hs1 (fun _ _ hu => .linkLoss (.setActive (.forEach hu (fun _ _ hu => .ite hu hu.emit.toDetect.setFlag))))

theorem State.Canonical.laneClkReturn {b} (h : s.Canonical) : (laneClkReturn b s).Canonical :=
  .forEach h.endLive (fun _ _ hu => hu.retrainPort.enablePort)

theorem State.Canonical.addDuration {r} (h : s.Canonical) : (addDuration r s).Canonical := h.setFld.setFld

theorem State.Canonical.tick (h : s.Canonical) : (tick s).Canonical :=
  .ite h.with_now (.forEach h.with_now (fun _ _ hu => .ite hu.addDuration hu))

/-! ### Recovery -/

theorem State.Canonical.releaseFaultN (h : s.Canonical) : (releaseFaultN s).Canonical := .ite h h.setFlag.with_flt

theorem State.Canonical.faultMinEnd (h : s.Canonical) : (faultMinEnd s).Canonical := by
  unfold Machine.faultMinEnd
  split
  · exact h
  · exact .ite h (.ite h.with_flt.releaseFaultN h.with_flt)

theorem State.Canonical.faultRelease {val} (h : s.Canonical) : (faultRelease val s).Canonical :=
  .ite h.storeReg (.ite h.storeReg.with_flt h.storeReg.releaseFaultN)

theorem State.Canonical.channelFail {d e ch} (h : s.Canonical) : (channelFail d e ch s).Canonical := by
  unfold Machine.channelFail
  extract_lets _ _ _ _ _ _ _ s3
  have hs3 : s3.Canonical := h.with_flt.setFld.setFld
  exact .ite h (.ite hs3.raiseFatal.settle (.ite hs3.raise (.ite hs3.raise hs3)))

theorem State.Canonical.resend {k ch} (h : s.Canonical) : (resend k ch s).Canonical :=
  .ite h (.ite h.bump.with_flt.channelFail h.bump.with_flt)

theorem State.Canonical.resendSome (h : s.Canonical) : (resendSome s).Canonical :=
  .withFree h (fun _ _ hu => .ite hu.resend hu)

theorem State.Canonical.testChannels {d} (h : s.Canonical) : (testChannels d s).Canonical :=
  .forEach h (fun _ _ hu => hu.channelFail)

theorem State.Canonical.beginDieReset {d} (h : s.Canonical) : (beginDieReset d s).Canonical :=
  .settle (.ite h.bumpSel.abandonLoad.dieHold h.bumpSel.abandonLoad.dieHold.relock)

theorem State.Canonical.dieReset {val} (h : s.Canonical) : (dieReset val s).Canonical :=
  .ite h.storeReg.beginDieReset h.storeReg

theorem State.Canonical.pllUnlock {d} (h : s.Canonical) : (pllUnlock d s).Canonical := .ite h h.raise.beginDieReset

theorem State.Canonical.poisonDie {d} (h : s.Canonical) : (poisonDie d s).Canonical :=
  .bumpBy (.forEach h (fun _ _ hu => hu.setDir))

theorem State.Canonical.dieResetDone {d} (h : s.Canonical) : (dieResetDone d s).Canonical :=
  .ite h.setFlag.testChannels.bootDie.poisonDie.homeRebuild.raiseInt.settle h

theorem State.Canonical.warmClear (h : s.Canonical) : (warmClear s).Canonical :=
  .showAllLive (.restartClocks (h.of_flash_sel rfl))

theorem State.Canonical.warmLevels (h : s.Canonical) : (warmLevels s).Canonical := .ite h.setExt h.showLevels
theorem State.Canonical.beginWarm (h : s.Canonical) : (beginWarm s).Canonical := h.bumpSel.warmClear.warmLevels.tileUp

theorem State.Canonical.warmReset {key} (h : s.Canonical) : (warmReset key s).Canonical :=
  .ite h (.ite (.ite h.with_pwr.tileUp h) h.beginWarm)

theorem State.Canonical.takeBootDraft (h : s.Canonical) : (takeBootDraft s).Canonical := by
  unfold Machine.takeBootDraft
  refine .ite h.showRefusal ?_
  split
  · exact h.applyDraft
  · exact h.showRefusal

theorem State.Canonical.warmDone (h : s.Canonical) : (warmDone s).Canonical := by
  unfold Machine.warmDone
  refine .ite ?_ ?_
  · extract_lets _ _ s2
    have hs2 : s2.Canonical := .forEach h.with_pwr (fun _ _ hu => hu.fillCells.takeSpareMap.setShared)
    exact hs2.takeBootDraft.setFlag.warmLevels
  · exact h

theorem State.Canonical.spoilFlash {a n} (h : s.Canonical) : (spoilFlash a n s).Canonical :=
  .withFree h (fun _ _ hu => hu.flashWrite)

theorem State.Canonical.blowFuses {t'} (h : s.Canonical) : (blowFuses t' s).Canonical := h.with_fuses

theorem State.Canonical.cutTransition (h : s.Canonical) : (cutTransition s).Canonical := by
  unfold Machine.cutTransition
  split
  · exact h
  · exact .withFree h (fun _ _ hu => .ite hu.blowFuses (.ite hu.with_fuses hu))

theorem State.Canonical.cutFlash (h : s.Canonical) : (cutFlash s).Canonical := by
  unfold Machine.cutFlash
  extract_lets s1
  have hs1 : s1.Canonical := .ite h.spoilFlash h
  split
  · exact hs1.spoilFlash
  · exact hs1.spoilFlash
  · exact hs1.spoilFlash
  · exact hs1

theorem State.Canonical.powerOnReset (h : s.Canonical) : (powerOnReset s).Canonical :=
  h.cutTransition.cutFlash.of_flash rfl

theorem State.Canonical.lifeCycle {val} (h : s.Canonical) : (lifeCycle val s).Canonical :=
  .ite h.storeReg (.ite h.storeReg.setFlag.raiseInt h.storeReg.setFlag.flashErase.with_fuses)

theorem State.Canonical.lifeCycleDone (h : s.Canonical) : (lifeCycleDone s).Canonical := by
  unfold Machine.lifeCycleDone
  split
  · exact h
  · extract_lets s1 _ s2 s3 s4 s5
    have hs1 : s1.Canonical := h.storeSelvedge.setFlag.raiseInt
    have hs2 : s2.Canonical := hs1.with_mgt.blowFuses
    have hs3 : s3.Canonical := hs2.loadSelvedge
    have hs4 : s4.Canonical := hs3.setFld.setFlag
    have hs5 : s5.Canonical := .forEach hs4 (fun _ _ hu => hu.wr)
    exact .ite hs5 hs5.beginWarm

theorem State.Canonical.regTimeout {off write} (h : s.Canonical) : (regTimeout off write s).Canonical :=
  .ite h (.ite h.raise h.raise.emit)

theorem State.Canonical.deckleRestart (h : s.Canonical) : (deckleRestart s).Canonical :=
  .forEach (h.of_mem rfl) (fun _ _ hu => .ite hu.endI2c hu)

theorem State.Canonical.watchdog (h : s.Canonical) : (watchdog s).Canonical :=
  .ite h.raiseFatal.settle h.raise.deckleRestart

end Sys2Proof.Machine
end

section
/-! SUPPORT. Register accesses, management, memory errors and the test port keep the memories canonical. -/

namespace Sys2Proof.Machine

variable {s : State}

/-! ### Register reads -/

theorem State.Canonical.clearRc {off events} (h : s.Canonical) : (clearRc off events s).Canonical := .ite h h.wr

theorem State.Canonical.readReg32 {off events} (h : s.Canonical) : (readReg32 off events s).Canonical :=
  h.with_latch.clearRc.emit

theorem State.Canonical.readReg64 {off events} (h : s.Canonical) : (readReg64 off events s).Canonical :=
  h.clearRc.clearRc.emit

/-! ### Management -/

theorem State.Canonical.functionReset (h : s.Canonical) : (functionReset s).Canonical := h.of_mem rfl
theorem State.Canonical.pcieDown (h : s.Canonical) : (pcieDown s).Canonical := h.functionReset.with_mgt
theorem State.Canonical.perstRise (h : s.Canonical) : (perstRise s).Canonical := .ite h.with_mgt.trainPcie h.with_mgt

theorem State.Canonical.cfgRead {off} (h : s.Canonical) : (cfgRead off s).Canonical := by
  unfold Machine.cfgRead
  refine .ite h.emit ?_
  split
  · exact h.emit
  · exact .withFree h (fun _ _ hu => hu.emit)

theorem State.Canonical.onCfg {f} (h : s.Canonical) : (onCfg f s).Canonical :=
  .forEach h.with_mgt (fun _ _ hu => hu.unmaskMsix)

theorem State.Canonical.cfgWrite {off v} (h : s.Canonical) : (cfgWrite off v s).Canonical := by
  unfold Machine.cfgWrite
  refine .ite h.emit ?_
  split
  · exact h.onCfg
  · exact h.onCfg
  · exact h.onCfg
  · exact h

theorem State.Canonical.hostCfg {n} (h : s.Canonical) : (hostCfg n s).Canonical := by
  unfold Machine.hostCfg
  refine .ite h ?_
  split
  · exact h.cfgRead
  · exact h.cfgWrite
  · exact h.onCfg
  · exact h.onCfg
  · exact h.functionReset
  · exact h

theorem State.Canonical.putBuf {base l} (h : s.Canonical) : (putBuf base l s).Canonical :=
  .forEach h (fun _ _ hu => hu.setFld)

theorem State.Canonical.i2cTransfer {n val} (h : s.Canonical) : (i2cTransfer n val s).Canonical :=
  .ite h.storeReg (.ite h.storeReg.endI2c h.storeReg.setFlag.emit)

theorem State.Canonical.i2cTransferEnd {n result data sda} (h : s.Canonical) :
    (i2cTransferEnd n result data sda s).Canonical := by
  unfold Machine.i2cTransferEnd
  refine .ite h ?_
  extract_lets _ _ s1 s2 s3
  have hs1 : s1.Canonical := .ite h.busCheck h
  have hs2 : s2.Canonical := hs1.putBuf
  have hs3 : s3.Canonical := .ite (.ite hs2.setCheckDue hs2.busCheck) hs2
  exact .ite hs1.endI2c hs3.endI2c

theorem State.Canonical.i2cTimeout {n} (h : s.Canonical) : (i2cTimeout n s).Canonical :=
  .ite h (.ite h.busCheck.endI2c h.emit.setCheckDue.endI2c)

theorem State.Canonical.i2cRecover {n sda} (h : s.Canonical) : (i2cRecover n sda s).Canonical := h.busCheck
theorem State.Canonical.blockRead {cmd data} (h : s.Canonical) : (blockRead cmd data s).Canonical := .ite h h.emit
theorem State.Canonical.targetIdent (h : s.Canonical) : (targetIdent s).Canonical := h.blockRead
theorem State.Canonical.targetFault (h : s.Canonical) : (targetFault s).Canonical := h.blockRead
theorem State.Canonical.targetThermal (h : s.Canonical) : (targetThermal s).Canonical := h.blockRead
theorem State.Canonical.targetPower (h : s.Canonical) : (targetPower s).Canonical := h.blockRead

theorem State.Canonical.targetAddress {bytes p} (h : s.Canonical) : (targetAddress bytes p s).Canonical :=
  .ite h (.ite h.bump.emit h.with_mgt)

theorem State.Canonical.targetRead (h : s.Canonical) : (targetRead s).Canonical := .ite h h.blockRead.with_mgt

theorem State.Canonical.spiWrite {val} (h : s.Canonical) : (spiWrite val s).Canonical :=
  .ite h.storeReg h.storeReg.setFlag.with_mgt

theorem State.Canonical.spiPerform {op a n} (h : s.Canonical) : (spiPerform op a n s).Canonical := by
  unfold Machine.spiPerform
  split
  · exact h.putBuf
  · exact h.flashWrite
  · exact h.flashErase
  · exact h.dumpCapture

theorem State.Canonical.spiFail {op a n} (h : s.Canonical) : (spiFail op a n s).Canonical := by
  unfold Machine.spiFail
  split
  · exact .withFree h (fun _ _ hu => hu.putBuf)
  · exact h.spoilFlash
  · exact h.spoilFlash
  · exact h.spoilFlash

theorem State.Canonical.flashOpEnd {ok} (h : s.Canonical) : (flashOpEnd ok s).Canonical := by
  unfold Machine.flashOpEnd
  split
  · exact h
  · exact .ite h (.raiseInt (.setFld (.setFlag (.with_mgt (.ite h (.ite h.spiPerform h.spiFail))))))

theorem State.Canonical.gpioChange {pins} (h : s.Canonical) : (gpioChange pins s).Canonical :=
  .ite (.forEach h.setFld (fun _ _ hu => hu.setFlag)) (.raiseInt (.forEach h.setFld (fun _ _ hu => hu.setFlag)))

/-! ### BAR accesses -/

theorem State.Canonical.writeShtMap {L v} (h : s.Canonical) : (writeShtMap L v s).Canonical := h.storeReg.refreshWeight

theorem State.Canonical.strictWrite {off v} (h : s.Canonical) : (strictWrite off v s).Canonical :=
  .ite h.bump h.storeReg

theorem State.Canonical.writeFfc0 {v} (h : s.Canonical) : (writeFfc0 v s).Canonical := .ite h.setFlag.setFlag h
theorem State.Canonical.writeGpio {v} (h : s.Canonical) : (writeGpio v s).Canonical := h.storeReg

theorem State.Canonical.writeGlb {off v} (h : s.Canonical) : (writeGlb off v s).Canonical := by
  unfold Machine.writeGlb
  refine .ite h.abortGroup ?_
  refine .ite h.migrate ?_
  refine .ite h.storeReg.refreshWeights ?_
  refine .ite h.strictWrite ?_
  split
  · exact h.writeShtMap
  · exact h.storeReg

theorem State.Canonical.writeAon {off v} (h : s.Canonical) : (writeAon off v s).Canonical :=
  .ite h.lifeCycle (.ite (.ite h.storeReg h) h.storeReg)

theorem State.Canonical.writeFlt {off v} (h : s.Canonical) : (writeFlt off v s).Canonical := by
  unfold Machine.writeFlt
  refine .ite h.faultRelease ?_
  exact .ite h.writeFfc0 (.ite h.contextReset (.ite h.captureRelease (.ite h.dieReset (.ite h.warmReset h.storeReg))))

theorem State.Canonical.writePwr {off v} (h : s.Canonical) : (writePwr off v s).Canonical := by
  unfold Machine.writePwr
  refine .ite h.orderlyDown ?_
  refine .ite h.phaseSelect ?_
  refine .ite (.ite h.storeReg.setExt h.storeReg) ?_
  refine .ite (.watchAlert h (fun _ hu => hu.storeReg)) ?_
  split
  · exact h.writeDieCtl
  · exact .withLevels h (fun _ hu => hu.storeReg)
  · exact h.storeReg

theorem State.Canonical.writeDft {off v} (h : s.Canonical) : (writeDft off v s).Canonical :=
  .ite h.draftLoad (.ite h.portResetWrite (.ite h.shuttleResetWrite h.storeReg))

theorem State.Canonical.writeMio {off v} (h : s.Canonical) : (writeMio off v s).Canonical := by
  unfold Machine.writeMio
  refine .ite h.spiWrite ?_
  refine .ite h.writeGpio ?_
  split
  · exact .ite h.storeReg.setCheckDue h.storeReg
  · exact h.i2cTransfer
  · exact h.storeReg.unmaskMsix
  · exact h.storeReg

theorem State.Canonical.writeTrdCfg {p v} (h : s.Canonical) : (writeTrdCfg p v s).Canonical := .ite h.onPsch h.storeReg

theorem State.Canonical.writeQCfg {p q v} (h : s.Canonical) : (writeQCfg p q v s).Canonical :=
  .ite h.storeReg.onQsch (.ite h.storeReg.recheckShaper h.storeReg)

theorem State.Canonical.writePrt {p o v} (h : s.Canonical) : (writePrt p o v s).Canonical := by
  unfold Machine.writePrt
  extract_lets _ s1
  have hs1 : s1.Canonical := h.storeReg
  refine .ite (.ite hs1.widthPropose hs1) ?_
  refine .ite (.ite h.clearCauses h) ?_
  refine .ite h.writeTrdCfg ?_
  split
  · exact h.writeQCfg
  · exact h.storeReg

theorem State.Canonical.writeLne {n o v} (h : s.Canonical) : (writeLne n o v s).Canonical :=
  .ite (.ite h.retrainLane h) (.ite h.marginScan (.ite h.storeReg.endOverride h.storeReg))

theorem State.Canonical.writeSht {p o v} (h : s.Canonical) : (writeSht p o v s).Canonical := by
  unfold Machine.writeSht
  extract_lets s1 s2
  have hs1 : s1.Canonical := h.storeReg
  have hs2 : s2.Canonical := .ite hs1.unloadSht hs1
  exact .ite (.ite hs2.wakeSht hs2) (.ite (.ite hs1.pushSoft hs1) hs1)

theorem State.Canonical.writeRte {off v} (h : s.Canonical) : (writeRte off v s).Canonical := by
  unfold Machine.writeRte
  refine .ite h.routeWrite32 ?_
  extract_lets s1 s2
  have hs1 : s1.Canonical := h.storeReg
  have hs2 : s2.Canonical := .ite hs1.discStart hs1
  exact .ite (.ite hs2.discRestart hs2) hs1

theorem State.Canonical.writeCbf {off v} (h : s.Canonical) : (writeCbf off v s).Canonical := by
  unfold Machine.writeCbf
  extract_lets _ s1
  have hs1 : s1.Canonical := h.storeReg
  split
  · exact .ite hs1.with_core hs1
  · exact .ite hs1.fillPolicer hs1
  · exact hs1

theorem State.Canonical.writeSel {off v} (h : s.Canonical) : (writeSel off v s).Canonical := by
  unfold Machine.writeSel
  refine .ite h.selFlush ?_
  refine .ite h.traceRingWrite ?_
  split
  · exact .ite h.snapWatermark h
  · exact h.storeReg

theorem State.Canonical.writeOne {off v} (h : s.Canonical) : (writeOne off v s).Canonical := by
  unfold Machine.writeOne
  refine .ite h ?_
  refine .ite h.writeGlb ?_
  refine .ite h.writeAon ?_
  refine .ite h.writeFlt ?_
  refine .ite h.writePwr ?_
  refine .ite h.writeDft ?_
  refine .ite h.writeMio ?_
  refine .ite h.writePrt ?_
  refine .ite h.writeLne ?_
  refine .ite h.writeSht ?_
  refine .ite (.ite h.groupCommit h.storeReg) ?_
  exact .ite h.strictWrite (.ite h.writeRte (.ite h.writeCbf (.ite h.writeSel h.storeReg)))

theorem State.Canonical.showSelected {w l} (h : s.Canonical) : (showSelected w l s).Canonical := h.setFlag.setFld

theorem State.Canonical.windowWrite {off v} (h : s.Canonical) : (windowWrite off v s).Canonical := by
  unfold Machine.windowWrite
  split
  · exact h
  · exact .forEach h.showSelected (fun _ _ hu => hu.writeOne)

theorem State.Canonical.windowRead {off} (h : s.Canonical) : (windowRead off s).2.Canonical := by
  unfold Machine.windowRead
  split
  · exact h
  · extract_lets l _ s'
    have hs' : s'.Canonical := h.showSelected
    cases l with
    | nil => exact hs'
    | cons i rest =>
      dsimp only
      split
      · exact hs'.setFlag.setFld
      · exact hs'

theorem State.Canonical.broadcastWrite {off v} (h : s.Canonical) : (broadcastWrite off v s).Canonical :=
  .ite h.windowWrite h.emit

theorem State.Canonical.broadcastRead {off} (h : s.Canonical) : (broadcastRead off s).Canonical :=
  .ite h.windowRead.emit h.emit

theorem State.Canonical.broadcastRead64 {off} (h : s.Canonical) : (broadcastRead64 off s).Canonical :=
  h.windowRead.windowRead.emit

theorem State.Canonical.noteBar {off v} (h : s.Canonical) : (noteBar off v s).Canonical := h.with_mgt

theorem State.Canonical.writeReg {off v} (h : s.Canonical) : (writeReg off v s).Canonical :=
  .noteBar (.ite h.windowWrite h.writeOne)

theorem State.Canonical.keepSet {off hw t} (h : s.Canonical) : (keepSet off hw t s).Canonical := .ite h h.wr

theorem State.Canonical.sendAgain {off v hw t} (h : s.Canonical) : (sendAgain off v hw t s).Canonical :=
  .ite (.forEach h (fun _ _ hu => hu.sendMsix)) h

theorem State.Canonical.writeKeeping {off v hw} (h : s.Canonical) : (writeKeeping off v hw s).Canonical :=
  h.writeReg.keepSet.sendAgain

theorem State.Canonical.registerWrite {off size v hw} (h : s.Canonical) : (registerWrite off size v hw s).Canonical :=
  .ite h.emit (.ite h.writeKeeping (.ite (.ite h.routeWrite h.writeKeeping.writeKeeping) h.emit))

theorem State.Canonical.readClear {off size events} (h : s.Canonical) : (readClear off size events s).Canonical :=
  .ite h.emit (.ite (.ite h.broadcastRead h.readReg32) (.ite (.ite h.broadcastRead64 h.readReg64) h.emit))

theorem State.Canonical.latchingRead {off} (h : s.Canonical) : (latchingRead off s).Canonical := h.readClear

/-! ### Effects -/

theorem State.Canonical.kept {t} (h : s.Canonical) : (kept t s).Canonical := h.of_mem rfl

theorem State.Canonical.settled {f} (h : s.Canonical) (hf : ∀ u, u.Canonical → (f u).Canonical) :
    (settled f s).Canonical :=
  .settle (hf _ h)

theorem State.Canonical.whenUp {d f} (h : s.Canonical) (hf : ∀ u, u.Canonical → (f u).Canonical) :
    (whenUp d f s).Canonical :=
  .ite h (hf _ h)

theorem State.Canonical.whenRuns {d f} (h : s.Canonical) (hf : ∀ u, u.Canonical → (f u).Canonical) :
    (whenRuns d f s).Canonical :=
  .ite h (hf _ h)

/-! ### Memory errors -/

theorem State.Canonical.tableUe {t' d i} (h : s.Canonical) : (tableUe t' d i s).Canonical := h.raise

theorem State.Canonical.badGroupEntry {d e} (h : s.Canonical) : (badGroupEntry d e s).Canonical :=
  .showEntry (.forEach h.tableUe.setGrpE (fun _ _ hu => hu.endTrk))

theorem State.Canonical.badMember {d m} (h : s.Canonical) : (badMember d m s).Canonical := h.tableUe.setFlag

theorem State.Canonical.startDue (h : s.Canonical) : (startDue s).Canonical := by
  unfold Machine.startDue
  split
  · exact .ite h h.with_ecc.startCtxReset
  · exact h

theorem State.Canonical.badContext {d c} (h : s.Canonical) : (badContext d c s).Canonical := h.tableUe.with_ecc.startDue

theorem State.Canonical.badRoute {d i} (h : s.Canonical) : (badRoute d i s).Canonical :=
  .newVersion (.ite h.tableUe.wr.wr h.tableUe.wr)

theorem State.Canonical.badShed {d j} (h : s.Canonical) : (badShed d j s).Canonical := h.tableUe.with_ecc

theorem State.Canonical.upset {n} (h : s.Canonical) : (upset n s).Canonical := by
  unfold Machine.upset
  extract_lets kind
  clear_value kind
  refine .ite (.ite (h.of_mem rfl) h) ?_
  refine .ite h.raiseFatal ?_
  refine .ite (h.of_mem rfl) ?_
  refine .ite h ?_
  split
  · exact h.setCellErr
  · exact h.setWordErr
  · exact h.raise
  · exact h.badGroupEntry
  · exact h.badMember
  · exact h.badContext
  · exact h.badRoute
  · exact h.badShed
  · exact h.of_mem rfl
  · exact h

/-! ### The test port -/

theorem State.Canonical.tck {tms tdi n} (h : s.Canonical) : (tck tms tdi n s).Canonical := h.with_jtag

/-! ### An idle cycle -/

theorem State.Canonical.idle (h : s.Canonical) : (idle s).Canonical := by
  unfold Machine.idle
  extract_lets _ _ _ u v
  have hu : u.Canonical := h.tick.with_free.upset.startDue.settle
  have hv : v.Canonical := .ite hu.tck hu
  exact hv.hostCfg.of_mem rfl

end Sys2Proof.Machine
end

section
/-! SUPPORT. Every command, and with it every step, keeps the memories canonical. -/

namespace Sys2Proof.Machine

variable {s : State}

/-- The answer is a next state with canonical memories. -/
def AnswersCanonical (o : Host.Outcome State Fault Refusal) : Prop := ∃ t, o = .next t ∧ t.Canonical

theorem AnswersCanonical.effect {f : State → State} (h : (f s).Canonical) : AnswersCanonical (effect f s) :=
  ⟨_, rfl, h.kept⟩

theorem AnswersCanonical.effectFused {f : State → State} (h : (f s).Canonical) : AnswersCanonical (effectFused f s) :=
  ⟨_, rfl, h.of_mem rfl⟩

theorem AnswersCanonical.execRegisterWrite {off size w} (h : s.Canonical) :
    AnswersCanonical (execRegisterWrite off size w s) := by
  unfold Machine.execRegisterWrite
  split
  · exact .effectFused h.registerWrite
  · exact .effect (.settled h fun _ hu => hu.registerWrite)

theorem exec_answersCanonical {c : Instr} (h : s.Canonical) : AnswersCanonical (exec c s) := by
  cases c with
  | registerWrite => exact .execRegisterWrite h
  | readClear => exact .effect h.readClear
  | latchingRead => exact .effect h.latchingRead
  | load | store | fadd | swap | cas | acc | sacc | rdS | rdM | upg | wb | inv | cpl | hello | nbr | assign
  | epHello | epAck | req | rsp | res | eiEnter | prop | ack | go => exact .effect h.arrive
  | fanoutAdmit => exact .effect (.settled h (fun _ hu => hu.fanAdmit))
  | fanoutExpire => exact .effect h.fanExpire
  | expire => exact .effect (.settled h (fun _ hu => hu.dirExpire))
  | waitListHead => exact .effect (.settled h (fun _ hu => hu.waitListHead))
  | timeout => exact .effect (.settled h (fun _ hu => hu.ortTimeout))
  | quarantineEnd => exact .effect h.quarantineDone
  | staleExpire => exact .effect h.staleDone
  | waitDiscard => exact .effect (.settled h (fun _ hu => hu.waitDiscard))
  | packetReceive => exact .effect h.packetArrive
  | lock => exact .effect (.settled h (fun _ hu => hu.lock))
  | loss => exact .effect (.settled h (fun _ hu => hu.linkLoss))
  | lcuI => exact .effect (.settled h (fun _ hu => hu.lcuOne))
  | lcuU | rplGroup => exact .effect (.settled h (fun _ hu => hu.lcuZero))
  | badcw => exact .effect (.settled h (fun _ hu => hu.badGroup))
  | rtmo => exact .effect (.settled h (fun _ hu => hu.rtmo))
  | rlim => exact .effect (.settled h (fun _ hu => hu.rlim))
  | itmo => exact .effect (.settled h (fun _ hu => hu.itmo))
  | lcuSend => exact .effect (.settled h (fun _ hu => hu.lcuSend))
  | discStart => exact .effect (.settled h (fun _ hu => hu.discStart))
  | discRestart => exact .effect (.settled h (fun _ hu => hu.discRestart))
  | helloSend => exact .effect (.settled h (fun _ hu => hu.helloSend))
  | quiet => exact .effect (.settled h (fun _ hu => hu.quiet))
  | atmo => exact .effect (.settled h (fun _ hu => hu.atmo))
  | learnCommit => exact .effect (.settled h (fun _ hu => hu.learnCommit))
  | win => exact .effect (.settled h (fun _ hu => hu.win))
  | clr => exact .effect (.settled h (fun _ hu => .whenUp hu (fun _ hv => hv.clearCauses)))
  | routeWrite => exact .effect (.settled h (fun _ hu => hu.routeWrite))
  | versionRetire => exact .effect (.settled h (fun _ hu => hu.versionRetire))
  | ordHoldRelease => exact .effect (.settled h (fun _ hu => hu.releaseHeld))
  | admission => exact .effect (.settled h (fun _ hu => hu.admitQueue))
  | crossbarSlot => exact .effect (.settled h (fun _ hu => hu.crossbarSlot.resendSome))
  | egressArbitration => exact .effect (.settled h (fun _ hu => hu.egressBoundary))
  | holFlush => exact .effect (.settled h (fun _ hu => hu.holFlush))
  | ageTick => exact .effect h.ageTick
  | promotion => exact .effect h.promote
  | timeExchange => exact .effect (.settled h (fun _ hu => hu.timeExchangeAt))
  | shedOpen => exact .effect h.shedOpen
  | shedClose => exact .effect h.shedClose
  | treadlingHandover => exact .effect h.handover
  | fineSlot => exact .effect (.whenRuns h (fun _ hu => hu.fineSlot))
  | coarseSlot => exact .effect (.whenRuns h (fun _ hu => hu.coarseSlot))
  | sample => exact .effect h.sample
  | groupCommit => exact .effect (.settled h (fun _ hu => hu.groupCommit))
  | groupVersionRetire => exact .effect (.settled h (fun _ hu => hu.groupRetire))
  | inEvent => exact .effect (.settled h (fun _ hu => hu.inArrive))
  | sent => exact .effect (.settled h (fun _ hu => hu.sentTrk))
  | tmo => exact .effect (.settled h (fun _ hu => hu.trkTimeout))
  | abort => exact .effect (.settled h (fun _ hu => hu.abortGroup))
  | straggler => exact .effect h.stragglerAt
  | homeTabRebuild => exact .effect h.homeRebuild
  | add => exact .effect (.settled h (fun _ hu => .whenUp hu (fun _ hv => hv.addAt)))
  | part => exact .effect (.settled h (fun _ hu => .whenUp hu (fun _ hv => hv.partAt)))
  | result => exact .effect (.settled h (fun _ hu => .whenUp hu (fun _ hv => hv.resultAt)))
  | forward => exact .effect (.settled h (fun _ hu => .whenUp hu (fun _ hv => hv.forwardAt)))
  | drain => exact .effect (.settled h (fun _ hu => .whenUp hu (fun _ hv => hv.drainAt)))
  | fill => exact .effect (.settled h (fun _ hu => .whenUp hu (fun _ hv => hv.fillSht)))
  | copy => exact .effect (.settled h (fun _ hu => .whenUp hu (fun _ hv => hv.copySht)))
  | unload => exact .effect (.whenUp h (fun _ hu => hu.unloadSht))
  | wake => exact .effect (.whenUp h (fun _ hu => hu.wakeSht))
  | powerUpPlace => exact .effect (.whenUp h (fun _ hu => hu.powerUpPlace))
  | wakeDone => exact .effect (.settled h (fun _ hu => .whenUp hu (fun _ hv => hv.wakeDone)))
  | park => exact .effect (.whenUp h (fun _ hu => hu.parkSht))
  | off => exact .effect (.whenUp h (fun _ hu => hu.offSht))
  | migration => exact .effect h.migrate
  | switchCycle => exact .effect (.settled h (fun _ hu => hu.switchCycle))
  | redirectRelease => exact .effect h.releaseRedirect
  | reweight => exact .effect (.whenRuns h (fun _ hu => hu.reweight))
  | snap => exact .effect h.snapWatermark
  | traceRingEnable => exact .effect h.traceRingWrite
  | trainingFrame => exact .effect (.settled h (fun _ hu => hu.trainingFrame))
  | fll => exact .effect (.settled h (fun _ hu => hu.frameLoss))
  | ad => exact .effect h.adapted
  | join => exact .effect (.settled h (fun _ hu => hu.joinPort))
  | cwloss => exact .effect (.settled h (fun _ hu => hu.cwLoss))
  | rt => exact .effect (.settled h (fun _ hu => .whenUp hu (fun _ hv => hv.retrainLane)))
  | ttmo => exact .effect (.settled h (fun _ hu => hu.trainTimeout))
  | eiEntry => exact .effect (.settled h (fun _ hu => hu.eiEntry))
  | eiExit => exact .effect (.settled h (fun _ hu => hu.eiExit))
  | eiExitFail => exact .effect (.settled h (fun _ hu => hu.eiExitFail))
  | widthPropose => exact .effect (.settled h (fun _ hu => .whenUp hu (fun _ hv => hv.widthPropose)))
  | lapse => exact .effect (.settled h (fun _ hu => hu.lapse))
  | proposalRetry => exact .effect (.settled h (fun _ hu => hu.proposalRetry))
  | removalInterval => exact .effect (.settled h (fun _ hu => hu.removalInterval))
  | marginScan => exact .effect (.whenUp h (fun _ hu => hu.marginScan))
  | marginScanEnd => exact .effect (.whenUp h (fun _ hu => hu.marginScanEnd))
  | aonClkLoss => exact .effect h.aonClkLoss
  | coreRefclkLoss => exact .effect h.coreClkLoss
  | coreRefclkReturn => exact .effect h.coreClkReturn
  | pllUnlock => exact .effect (.settled h (fun _ hu => hu.pllUnlock))
  | laneRefclkLoss => exact .effect (.settled h (fun _ hu => hu.laneClkLoss))
  | laneRefclkReturn => exact .effect (.settled h (fun _ hu => hu.laneClkReturn))
  | powerUp => exact .effect h.powerUp
  | railGood => exact .effect h.railGood
  | railSeq => exact .effect (.settled h (fun _ hu => hu.railSeqFail))
  | orderlyPowerDown => exact .effect (.settled h (fun _ hu => hu.orderlyDown))
  | railOff => exact .effect h.railOff
  | railOffFail => exact .effect h.railOffFail
  | railMonitor => exact .effect h.railMonitor
  | railFault => exact .effect (.settled h (fun _ hu => hu.railFault))
  | phaseSelect => exact .effect h.phaseSelect
  | levelStep => exact .effect h.levelStep
  | pcap => exact .effect h.pcap
  | icap => exact .effect h.icap
  | droop => exact .effect h.droop
  | temp => exact .effect h.temp
  | throttleNFall | throttleNRise => exact .effect h.setExt
  | mgmt => exact .effect h.writeDieCtl
  | droopTrip => exact .effect h.droopTrip
  | stretchEnd => exact .effect h.stretchEnd
  | energyUpdate => exact .effect h.energyUpdate
  | sensorRead => exact .effect h.takeReading
  | thermtrip => exact .effect (.settled h (fun _ hu => hu.thermtrip))
  | dieStandby | dieStandbyExit => exact .effect h.writeStandby
  | faultNMinimumEnd => exact .effect h.faultMinEnd
  | faultNRelease => exact .effect h.faultRelease
  | d2dChannelFail => exact .effect (.settled h (fun _ hu => hu.channelFail))
  | regTmo => exact .effect h.regTimeout
  | watchdogExpiry => exact .effect h.watchdog
  | cmdTmo => exact .effect (.settled h (fun _ hu => .whenUp hu (fun _ hv => hv.commandTimeout)))
  | shtHang => exact .effect (.settled h (fun _ hu => .whenUp hu (fun _ hv => hv.shuttleHang)))
  | contextReset => exact .effect (.settled h (fun _ hu => hu.contextReset))
  | ctxResetTmo => exact .effect (.settled h (fun _ hu => hu.ctxResetTmo))
  | captureRelease => exact .effect h.captureRelease
  | dieReset => exact .effect (.settled h (fun _ hu => hu.dieReset))
  | warmReset => exact .effect h.warmReset
  | selvedgeFlush => exact .effect h.selFlush
  | selvedgeHourly => exact .effect h.startSelWrite
  | fecHistogram => exact .effect h.fecHistogram
  | tempHistogram => exact .effect h.tempHistogram
  | functionLevelReset => exact .effect h.functionReset
  | pcieLinkDown => exact .effect h.pcieDown
  | i2cTransfer => exact .effect h.i2cTransfer
  | i2cTransferEnd => exact .effect h.i2cTransferEnd
  | i2cTimeout => exact .effect h.i2cTimeout
  | recover => exact .effect h.i2cRecover
  | ident => exact .effect h.targetIdent
  | i2cFault => exact .effect h.targetFault
  | thermal => exact .effect h.targetThermal
  | power => exact .effect h.targetPower
  | addr => exact .effect h.targetAddress
  | read => exact .effect h.targetRead
  | spiRead | program | erase | dump => exact .effect h.spiWrite
  | flashOpEnd => exact .effect h.flashOpEnd
  | draftLoad => exact .effect h.draftLoad
  | panelDrainEnd => exact .effect (.settled h (fun _ hu => hu.panelDrained))
  | drainTmo => exact .effect (.settled h (fun _ hu => hu.drainTimeout))
  | portReset => exact .effect (.settled h (fun _ hu => hu.portResetWrite))
  | shuttleReset => exact .effect h.shuttleResetWrite
  | broadcastWrite => exact .effect (.settled h (fun _ hu => hu.broadcastWrite))
  | broadcastRead => exact .effect h.broadcastRead
  | lifeCycleRequest => exact .effectFused h.lifeCycle
  | gpioChange => exact .effect h.gpioChange
  | receiveElectricalIdle => exact .effect (.settled h (fun _ hu => hu.receiveIdle))
  | sheetsCleared => exact .effect (.settled h (fun _ hu => hu.clearSheets))
  | sramWipeDone => exact .effect h.wipeDone
  | selvedgeWriteDone => exact .effect h.selWriteDone
  | abortDone => exact .effect (.settled h (fun _ hu => hu.abortFinish))
  | contextResetDone => exact .effect (.settled h (fun _ hu => hu.contextResetDone))
  | dieResetDone => exact .effect h.dieResetDone
  | warmResetDone => exact .effect h.warmDone
  | draftVerifyDone => exact .effect (.settled h (fun _ hu => hu.draftVerified))
  | lifeCycleTransitionDone => exact .effectFused h.lifeCycleDone
  | powerOnReset => exact .effectFused h.powerOnReset
  | pciePerstNRise => exact .effect h.perstRise
  | schLate => exact .effect h.schLate

theorem step_answersCanonical (h : s.Canonical) : AnswersCanonical (step s) := by
  cases hp : s.pending with
  | nil => exact ⟨_, step_of_nil hp, h.idle⟩
  | cons c rest =>
    rw [step_of_cons hp]
    exact exec_answersCanonical h.with_pending

/-- Settles O60: every operation of the model keeps the memories canonical. -/
theorem memoriesStayCanonical : Obligations.MemoriesStayCanonical := by
  unfold Obligations.MemoriesStayCanonical
  intro s t h e
  obtain ⟨u, hu, hc⟩ := step_answersCanonical h
  cases hu.symm.trans e
  exact hc

end Sys2Proof.Machine
end
